-- ==== Sys2Proof/Word.lean ====
section
/-! DEFINITION. The plainest words of the model: bytes, text, the block's own numberings (channels, decks, treadle
lines, slots) and a fixed-length bank of cells. -/

namespace Sys2Proof

/-- One byte of the link (R167). -/
abbrev Byte := BitVec 8

/-- A text of the link: ASCII characters as bytes (11.6). -/
abbrev Text := List Byte

/-- A load-cell channel; the manual's channel number is the value plus one (00_scope.md, Decks and channels). -/
abbrev Chan := Fin 16

/-- A deck; the manual's deck number is the value plus one (00_scope.md, Decks and channels). -/
abbrev Deck := Fin 4

/-- A treadle line, 0 to 4, numbered as the manual numbers it (00_scope.md, Treadle lines). -/
abbrev LineNo := Fin 5

/-- A fixed number of like cells, held as a list of that length. -/
structure Bank (α : Type) (n : Nat) where
  cells : List α
  size : cells.length = n
deriving DecidableEq, Repr

namespace Bank

variable {α : Type} {n : Nat}

/-- The cell with index `i`. -/
def get (b : Bank α n) (i : Fin n) : α := b.cells[i.val]'(by rw [b.size]; exact i.isLt)

/-- The bank with `x` in the cell with index `i`. -/
def set (b : Bank α n) (i : Fin n) (x : α) : Bank α n :=
  ⟨b.cells.set i.val x, by rw [List.length_set, b.size]⟩

/-- The bank whose cell `i` is `f i`. -/
def ofFn (f : Fin n → α) : Bank α n := ⟨List.ofFn f, List.length_ofFn⟩

/-- The bank whose every cell is `x`. -/
def fill (n : Nat) (x : α) : Bank α n := ⟨List.replicate n x, List.length_replicate⟩

/-- The bank with `f` applied to every cell. -/
def map {β : Type} (f : α → β) (b : Bank α n) : Bank β n := ⟨b.cells.map f, by rw [List.length_map, b.size]⟩

@[simp] theorem get_ofFn (f : Fin n → α) (i : Fin n) : (ofFn f).get i = f i := by simp [get, ofFn]

@[simp] theorem get_fill (x : α) (i : Fin n) : (fill n x).get i = x := by simp [get, fill]

@[simp] theorem get_map {β : Type} (f : α → β) (b : Bank α n) (i : Fin n) : (b.map f).get i = f (b.get i) := by
  simp [get, map]

theorem get_set (b : Bank α n) (i j : Fin n) (x : α) : (b.set i x).get j = if i = j then x else b.get j := by
  simp [get, set, List.getElem_set, Fin.ext_iff]

@[simp] theorem get_set_self (b : Bank α n) (i : Fin n) (x : α) : (b.set i x).get i = x := by simp [get_set]

theorem get_set_of_ne (b : Bank α n) {i j : Fin n} (h : i ≠ j) (x : α) : (b.set i x).get j = b.get j := by
  simp [get_set, h]

end Bank

/-- The four decks, from the entry end. -/
def allDecks : List Deck := [0, 1, 2, 3]

/-- The sixteen channels, in ascending channel number. -/
def allChans : List Chan := [0, 1, 2, 3, 4, 5, 6, 7, 8, 9, 10, 11, 12, 13, 14, 15]

end Sys2Proof
end

