-- ==== Sys2Proof/Machine/Bytes.lean ====
section
/-! DEFINITION. The bytes of the link: integers least significant byte first, texts, the CRC-16, and the readers with
which a request's payload is taken apart (R135, R167, R169, 11.6). -/

namespace Sys2Proof.Machine

/-- `n` in `k` bytes, least significant byte first (11.6). -/
def leBytes : (k n : Nat) → List Byte
  | 0, _ => []
  | k + 1, n => BitVec.ofNat 8 n :: leBytes k (n / 256)

/-- A signed value in `k` bytes of two's complement (11.6). -/
def signedBytes (k : Nat) (x : Int) : List Byte := leBytes k (x % (2 ^ (8 * k) : Nat)).toNat

/-- The number that bytes spell, least significant byte first (11.6). -/
def leValue : List Byte → Nat
  | [] => 0
  | b :: r => b.toNat + 256 * leValue r

/-- A number of `k` bytes read as two's complement (11.6). -/
def signedValue (k n : Nat) : Int := if 2 * n < 2 ^ (8 * k) then n else (n : Int) - (2 ^ (8 * k) : Nat)

/-- A flag byte: 1 for set, yes or on, 0 for clear, no or off (PRESUMED, log 15). -/
def flagByte (b : Bool) : Byte := if b then 1 else 0

/-- A text: a length byte and that many characters (11.6). -/
def textBytes (t : Text) : List Byte := BitVec.ofNat 8 t.length :: t

/-- An optional field: a presence byte, and the field when it is present (11.6). -/
def optBytes : Option (List Byte) → List Byte
  | none => [0]
  | some bs => 1 :: bs

/-! ## The CRC (R135, R167) -/

/-- One bit's shift of the CRC register: polynomial x^16 + x^12 + x^5 + 1, most significant bit first. -/
def crcShift (c : BitVec 16) : BitVec 16 := if c.getLsbD 15 then (c <<< 1) ^^^ 0x1021#16 else c <<< 1

/-- One byte taken into the CRC register. -/
def crcByte (c : BitVec 16) (b : Byte) : BitVec 16 :=
  crcShift (crcShift (crcShift (crcShift (crcShift (crcShift (crcShift (crcShift (c ^^^ (b.zeroExtend 16 <<< 8)))))))))

/-- The CRC-16 of a run of bytes: initial value all ones, no final inversion (R135, R167). -/
def crc16 (bs : List Byte) : BitVec 16 := bs.foldl crcByte 0xFFFF#16

/-- The CRC of a frame: over kind, length and payload (R167). -/
def frameCrc (kind : Byte) (payload : List Byte) : BitVec 16 := crc16 (kind :: leBytes 2 payload.length ++ payload)

/-- A whole frame of the link: start, kind, length, payload, CRC (R167). -/
def frameBytes (kind : Byte) (payload : List Byte) : List Byte :=
  0xA5#8 :: kind :: leBytes 2 payload.length ++ payload ++ leBytes 2 (frameCrc kind payload).toNat

/-- The largest payload of a frame (R167). -/
def maxPayload : Nat := 1024

/-! ## Readers -/

/-- A reader takes a value off the front of a payload, or finds that the payload does not match. -/
abbrev Reader (α : Type) := List Byte → Option (α × List Byte)

/-- An unsigned number of `k` bytes. -/
def readNat (k : Nat) : Reader Nat := fun bs =>
  if bs.length < k then none else some (leValue (bs.take k), bs.drop k)

/-- A signed number of `k` bytes. -/
def readInt (k : Nat) : Reader Int := fun bs =>
  (readNat k bs).map fun (n, r) => (signedValue k n, r)

/-- A flag byte; a byte other than 0 and 1 does not match (log 15, log 16). -/
def readFlag : Reader Bool
  | [] => none
  | b :: r => if b = 0 then some (false, r) else if b = 1 then some (true, r) else none

/-- A text: its length byte and its characters. Every byte value is read as a character: 11.6 calls a text ASCII and gives
no answer to a byte above 0x7F (log 48). -/
def readText : Reader Text
  | [] => none
  | n :: r => if r.length < n.toNat then none else some (r.take n.toNat, r.drop n.toNat)

/-- An optional text: a presence byte, and the text when the byte is 1. -/
def readOptText : Reader (Option Text) := fun bs =>
  match readFlag bs with
  | none => none
  | some (false, r) => some (none, r)
  | some (true, r) => (readText r).map fun (t, r') => (some t, r')

/-- `k` values read one after the other. -/
def readList {α : Type} (rd : Reader α) : Nat → Reader (List α)
  | 0, bs => some ([], bs)
  | k + 1, bs =>
    match rd bs with
    | none => none
    | some (x, r) => (readList rd k r).map fun (xs, r') => (x :: xs, r')

/-- The value of a reader that must use the whole payload: its length is the sum of its fields' sizes (R169). -/
def readWhole {α : Type} (rd : Reader α) (bs : List Byte) : Option α :=
  match rd bs with
  | some (x, []) => some x
  | _ => none

end Sys2Proof.Machine
end

