-- ==== Sys2Proof/Syntax.lean ====
section
/-! DEFINITION. The commands of the block: one constructor of `Instr` for each row of spec/opcode_table.json, with the
operands the row's event or request brings from outside. -/

namespace Sys2Proof

/-- What a sample event brings from outside: the conversions of the sixteen channel inputs (R25), the excitation sense
monitors that read under 80% of nominal (R27), and whether a store write made at this event verifies (R112, log 7). -/
structure SampleInput where
  raw : Bank (BitVec 24) 16
  senseLow : Bank Bool 4
  storeOk : Bool
deriving DecidableEq, Repr

/-- The input levels found at a reset: the treadle elements A and B of each line and the two loops (R75), the
calibration switch (R136) and the baud-rate strap (R167, R176). -/
structure ResetInputs where
  levelA : Bank Bool 5
  levelB : Bank Bool 5
  loopEntry : Bool
  loopExit : Bool
  switchCal : Bool
  fastBaud : Bool
deriving DecidableEq, Repr

/-- The two elements of a treadle line (00_scope.md, Treadle lines). -/
inductive Element where
  | a
  | b
deriving DecidableEq, Repr

/-- The two vehicle loops (R69). -/
inductive Loop where
  | entry
  | exit
deriving DecidableEq, Repr

/-- The two ways in which the row MAIN_SUPPLY_LOSS comes about (R162). -/
inductive SupplyLoss where
  /-- The main supply fails. -/
  | supplyFails
  /-- The monitor finds the crystal stopped with the main supply absent. -/
  | crystalStops
deriving DecidableEq, Repr

/-- The commands: the rows of the table of operations and events, in its order. A request row carries the request's
payload (R169); `storeOk` says whether the nonvolatile write that the command makes, if it makes one, verifies (R112,
R113, log 7). -/
inductive Instr where
  /-- SAMPLE_EVENT (R25). -/
  | sampleEvent (inp : SampleInput)
  /-- WARMUP_END (R22). -/
  | warmupEnd (inp : SampleInput)
  /-- STUCK (R28). -/
  | stuck (ch : Chan) (inp : SampleInput)
  /-- CLEAN_HALF_SECOND (R32). -/
  | cleanHalfSecond (ch : Chan) (inp : SampleInput)
  /-- RECOVERY_COMPLETE (R35). -/
  | recoveryComplete (ch : Chan) (inp : SampleInput)
  /-- ZERO_TRACKING_STEP (R54). -/
  | zeroTrackingStep (inp : SampleInput)
  /-- HIDDEN_LOAD (R71). -/
  | hiddenLoad (inp : SampleInput)
  /-- MAP_RECOVERY (R72). -/
  | mapRecovery (inp : SampleInput)
  /-- UNSTABLE_TIMEOUT (R103). -/
  | unstableTimeout (inp : SampleInput)
  /-- CAL_UNSTABLE (R139). -/
  | calUnstable (inp : SampleInput)
  /-- STEP_FAILED_UNSTABLE (R152). -/
  | stepFailedUnstable (inp : SampleInput)
  /-- ADJUST_IDLE_ABORT (R145). -/
  | adjustIdleAbort (inp : SampleInput)
  /-- AUDIT_IDLE_ABANDON (R150). -/
  | auditIdleAbandon (inp : SampleInput)
  /-- ACTIVATION (R58). -/
  | activation (line : LineNo) (element : Element) (stamp : Nat) (storeOk : Bool)
  /-- ELEMENT_CLEAR (R58). -/
  | elementClear (line : LineNo) (element : Element)
  /-- PAIRING_GUARD (R59). -/
  | pairingGuard (line : LineNo)
  /-- SINGLE_ELEMENT_FAULT (R60). -/
  | singleElementFault (line : LineNo)
  /-- LOOP_CHANGE (R69). -/
  | loopChange (loop : Loop) (active : Bool) (storeOk : Bool)
  /-- SWITCH_STATE (R136). -/
  | switchState (toCal : Bool)
  /-- SECOND_CARRY (R160). -/
  | secondCarry (stales : List Bool)
  /-- CRYSTAL_STOP (R162). -/
  | crystalStop
  /-- CRYSTAL_RETURN (R162). -/
  | crystalReturn
  /-- MAIN_SUPPLY_LOSS (R162). -/
  | mainSupplyLoss (cause : SupplyLoss)
  /-- COLD_START (R39). -/
  | coldStart (inputs : ResetInputs)
  /-- POWER_ON_RESET (R39). -/
  | powerOnReset (inputs : ResetInputs)
  /-- RESET_LINE (R39). -/
  | resetLine (inputs : ResetInputs)
  /-- FRAME_GAP_TIMEOUT (R167). -/
  | frameGapTimeout
  /-- FRAMING_ERROR (R167). -/
  | framingError
  /-- LENGTH_ERROR (R167). -/
  | lengthError (kind : Byte) (length : BitVec 16)
  /-- CRC_ERROR (R167). -/
  | crcError (kind : Byte) (payload : List Byte) (crc : BitVec 16)
  /-- UNKNOWN_REQUEST (R168). -/
  | unknownRequest (kind : Byte) (payload : List Byte)
  /-- TRANSMIT_COMPLETE (R170). -/
  | transmitComplete (inputs : ResetInputs)
  /-- IDENTIFY (R173). -/
  | identify (payload : List Byte)
  /-- READ_STATUS (R174). -/
  | readStatus (payload : List Byte)
  /-- WARM_RESET (R175). -/
  | warmReset (payload : List Byte)
  /-- SET_NOTICE_MASK (R172). -/
  | setNoticeMask (payload : List Byte) (storeOk : Bool)
  /-- ENTER_STANDBY (R23). -/
  | enterStandby (payload : List Byte)
  /-- LEAVE_STANDBY (R24). -/
  | leaveStandby (payload : List Byte)
  /-- WRITE_CHANNEL_SETTINGS (R30). -/
  | writeChannelSettings (payload : List Byte)
  /-- EXCLUDE_CHANNEL (R34). -/
  | excludeChannel (payload : List Byte)
  /-- REINSTATE_CHANNEL (R35). -/
  | reinstateChannel (payload : List Byte)
  /-- READ_CHANNEL (R36). -/
  | readChannel (payload : List Byte)
  /-- READ_FAULT_CAPTURE (R38). -/
  | readFaultCapture (payload : List Byte)
  /-- SET_ZERO (R52). -/
  | setZero (payload : List Byte)
  /-- READ_WEIGHT (R55). -/
  | readWeight (payload : List Byte)
  /-- WRITE_TREADLE_SETTINGS (R57). -/
  | writeTreadleSettings (payload : List Byte) (storeOk : Bool)
  /-- READ_TREADLES (R62). -/
  | readTreadles (payload : List Byte)
  /-- READ_AXLE_MAP (R74). -/
  | readAxleMap (payload : List Byte)
  /-- WRITE_GROUP_LIMITS (R76). -/
  | writeGroupLimits (payload : List Byte) (storeOk : Bool)
  /-- WRITE_CLASS (R77). -/
  | writeClass (payload : List Byte) (storeOk : Bool)
  /-- READ_SITE_TABLES (R78). -/
  | readSiteTables (payload : List Byte)
  /-- START_CAPTURE (R95). -/
  | startCapture (payload : List Byte)
  /-- CANCEL_OPERATION (R105). -/
  | cancelOperation (payload : List Byte)
  /-- RELEASE_VEHICLE (R110). -/
  | releaseVehicle (payload : List Byte)
  /-- WRITE_CAPTURE_SETTINGS (R96). -/
  | writeCaptureSettings (payload : List Byte)
  /-- READ_TRANSACTION (R122). -/
  | readTransaction (payload : List Byte)
  /-- LIST_TRANSACTIONS (R122). -/
  | listTransactions (payload : List Byte)
  /-- CANCEL_TRANSACTION (R121). -/
  | cancelTransaction (payload : List Byte) (storeOk : Bool)
  /-- READ_STORED_TARE (R126). -/
  | readStoredTare (payload : List Byte)
  /-- LIST_STORED_TARES (R126). -/
  | listStoredTares (payload : List Byte)
  /-- DELETE_STORED_TARE (R126). -/
  | deleteStoredTare (payload : List Byte) (storeOk : Bool)
  /-- FETCH_TICKET (R131). -/
  | fetchTicket (payload : List Byte)
  /-- RELEASE_TICKET (R131). -/
  | releaseTicket (payload : List Byte) (storeOk : Bool)
  /-- WRITE_TICKET_SETTINGS (R132). -/
  | writeTicketSettings (payload : List Byte) (storeOk : Bool)
  /-- OPEN_ADJUSTMENT (R137). -/
  | openAdjustment (payload : List Byte)
  /-- STAGE_PARAMETER (R138). -/
  | stageParameter (payload : List Byte)
  /-- CALIBRATE_ZERO (R139). -/
  | calibrateZero (payload : List Byte)
  /-- CALIBRATE_SPAN (R139). -/
  | calibrateSpan (payload : List Byte)
  /-- CALIBRATE_LINEARITY_POINT (R139). -/
  | calibrateLinearityPoint (payload : List Byte)
  /-- COMMIT_ADJUSTMENT (R143). -/
  | commitAdjustment (payload : List Byte) (storeOk : Bool)
  /-- ABANDON_ADJUSTMENT (R145). -/
  | abandonAdjustment (payload : List Byte)
  /-- READ_METROLOGY_STATUS (R148). -/
  | readMetrologyStatus (payload : List Byte)
  /-- READ_CONFIGURATION (R148). -/
  | readConfiguration (payload : List Byte)
  /-- READ_AUDIT_TRAIL (R146). -/
  | readAuditTrail (payload : List Byte)
  /-- OPEN_AUDIT (R149). -/
  | openAudit (payload : List Byte)
  /-- AUDIT_STEP (R151). -/
  | auditStep (payload : List Byte)
  /-- CLOSE_AUDIT (R155). -/
  | closeAudit (payload : List Byte) (storeOk : Bool)
  /-- ABANDON_AUDIT (R157). -/
  | abandonAudit (payload : List Byte)
  /-- READ_AUDIT_RECORD (R158). -/
  | readAuditRecord (payload : List Byte)
  /-- SET_CALENDAR (R164). -/
  | setCalendar (payload : List Byte) (storeOk : Bool)
  /-- READ_CALENDAR (R165). -/
  | readCalendar (payload : List Byte)
  /-- CRYSTAL_RUN_GAP (R162). -/
  | crystalRunGap
deriving DecidableEq, Repr

end Sys2Proof
end

