-- ==== Sys2Proof/Decode.lean ====
section
/-! DEFINITION. From bits to commands. The table of operations gives no row any bits, so no table word spells a command.
Requests reach the block as frames of the link (R167 to R169): the receiver reads them from a run of bytes, and `frame?`
writes them. -/

namespace Sys2Proof

/-- The command that a table word spells: none, since no row of the table gives bits. -/
def decodeTableWord (_nbits _w : Nat) : Option Instr := none

/-- The request kinds (R169), each with the command that its payload and the outcome of its write make (log 7). -/
def requestTable : List (Byte × (List Byte → Bool → Instr)) :=
  [(0x01, fun p _ => .identify p),
   (0x02, fun p _ => .readStatus p),
   (0x03, fun p _ => .warmReset p),
   (0x04, fun p ok => .setNoticeMask p ok),
   (0x10, fun p _ => .enterStandby p),
   (0x11, fun p _ => .leaveStandby p),
   (0x12, fun p _ => .writeChannelSettings p),
   (0x13, fun p _ => .excludeChannel p),
   (0x14, fun p _ => .reinstateChannel p),
   (0x15, fun p _ => .readChannel p),
   (0x16, fun p _ => .readFaultCapture p),
   (0x18, fun p _ => .setZero p),
   (0x19, fun p _ => .readWeight p),
   (0x20, fun p ok => .writeTreadleSettings p ok),
   (0x21, fun p _ => .readTreadles p),
   (0x22, fun p _ => .readAxleMap p),
   (0x23, fun p ok => .writeGroupLimits p ok),
   (0x24, fun p ok => .writeClass p ok),
   (0x25, fun p _ => .readSiteTables p),
   (0x30, fun p _ => .startCapture p),
   (0x31, fun p _ => .cancelOperation p),
   (0x32, fun p _ => .releaseVehicle p),
   (0x33, fun p _ => .writeCaptureSettings p),
   (0x40, fun p _ => .readTransaction p),
   (0x41, fun p _ => .listTransactions p),
   (0x42, fun p ok => .cancelTransaction p ok),
   (0x43, fun p _ => .readStoredTare p),
   (0x44, fun p _ => .listStoredTares p),
   (0x45, fun p ok => .deleteStoredTare p ok),
   (0x46, fun p _ => .fetchTicket p),
   (0x47, fun p ok => .releaseTicket p ok),
   (0x48, fun p ok => .writeTicketSettings p ok),
   (0x50, fun p _ => .openAdjustment p),
   (0x51, fun p _ => .stageParameter p),
   (0x52, fun p _ => .calibrateZero p),
   (0x53, fun p _ => .calibrateSpan p),
   (0x54, fun p _ => .calibrateLinearityPoint p),
   (0x55, fun p ok => .commitAdjustment p ok),
   (0x56, fun p _ => .abandonAdjustment p),
   (0x57, fun p _ => .readMetrologyStatus p),
   (0x58, fun p _ => .readConfiguration p),
   (0x59, fun p _ => .readAuditTrail p),
   (0x60, fun p _ => .openAudit p),
   (0x61, fun p _ => .auditStep p),
   (0x62, fun p ok => .closeAudit p ok),
   (0x63, fun p _ => .abandonAudit p),
   (0x64, fun p _ => .readAuditRecord p),
   (0x70, fun p ok => .setCalendar p ok),
   (0x71, fun p _ => .readCalendar p)]

/-- The kind bytes that name a request (R169). -/
def requestKinds : List Byte := requestTable.map Prod.fst

/-- A kind byte names a request (R169). -/
def namesRequest (kind : Byte) : Bool := requestKinds.contains kind

/-- The command of a frame with a good CRC (R168, R169). -/
def commandOf (kind : Byte) (payload : List Byte) (storeOk : Bool) : Instr :=
  match requestTable.find? fun r => r.1 == kind with
  | some r => r.2 payload storeOk
  | none => .unknownRequest kind payload

/-- What follows a start byte: the command that the frame is, with the bytes after it; none while bytes are still to
come (R167). A length above 1,024 ends the frame at its length bytes. -/
def receiveFrame (storeOk : Bool) : List Byte → Option (Instr × List Byte)
  | kind :: l0 :: l1 :: rest =>
    let n := Machine.leValue [l0, l1]
    if Machine.maxPayload < n then some (.lengthError kind (BitVec.ofNat 16 n), rest)
    else if rest.length < n + 2 then none
    else
      let payload := rest.take n
      let crc := BitVec.ofNat 16 (Machine.leValue ((rest.drop n).take 2))
      let after := rest.drop (n + 2)
      if crc = Machine.frameCrc kind payload then some (commandOf kind payload storeOk, after)
      else some (.crcError kind payload crc, after)
  | _ => none

/-- The commands of a run of bytes: the receiver hunts for a start byte, takes a frame, and hunts again (R167). `fuel`
bounds the number of bytes looked at. -/
def receiveFrom (storeOk : Bool) : (fuel : Nat) → List Byte → List Instr
  | 0, _ => []
  | _ + 1, [] => []
  | fuel + 1, b :: rest =>
    if b = 0xA5 then
      match receiveFrame storeOk rest with
      | none => []
      | some (c, after) => c :: receiveFrom storeOk fuel after
    else receiveFrom storeOk fuel rest

/-- The commands of a run of bytes received without a gap or a framing error (R167). -/
def receive (storeOk : Bool) (bytes : List Byte) : List Instr := receiveFrom storeOk bytes.length bytes

/-- The kind byte and payload of a request (R169); none for an event. -/
def Instr.frame? : Instr → Option (Byte × List Byte)
  | .identify p => some (0x01, p)
  | .readStatus p => some (0x02, p)
  | .warmReset p => some (0x03, p)
  | .setNoticeMask p _ => some (0x04, p)
  | .enterStandby p => some (0x10, p)
  | .leaveStandby p => some (0x11, p)
  | .writeChannelSettings p => some (0x12, p)
  | .excludeChannel p => some (0x13, p)
  | .reinstateChannel p => some (0x14, p)
  | .readChannel p => some (0x15, p)
  | .readFaultCapture p => some (0x16, p)
  | .setZero p => some (0x18, p)
  | .readWeight p => some (0x19, p)
  | .writeTreadleSettings p _ => some (0x20, p)
  | .readTreadles p => some (0x21, p)
  | .readAxleMap p => some (0x22, p)
  | .writeGroupLimits p _ => some (0x23, p)
  | .writeClass p _ => some (0x24, p)
  | .readSiteTables p => some (0x25, p)
  | .startCapture p => some (0x30, p)
  | .cancelOperation p => some (0x31, p)
  | .releaseVehicle p => some (0x32, p)
  | .writeCaptureSettings p => some (0x33, p)
  | .readTransaction p => some (0x40, p)
  | .listTransactions p => some (0x41, p)
  | .cancelTransaction p _ => some (0x42, p)
  | .readStoredTare p => some (0x43, p)
  | .listStoredTares p => some (0x44, p)
  | .deleteStoredTare p _ => some (0x45, p)
  | .fetchTicket p => some (0x46, p)
  | .releaseTicket p _ => some (0x47, p)
  | .writeTicketSettings p _ => some (0x48, p)
  | .openAdjustment p => some (0x50, p)
  | .stageParameter p => some (0x51, p)
  | .calibrateZero p => some (0x52, p)
  | .calibrateSpan p => some (0x53, p)
  | .calibrateLinearityPoint p => some (0x54, p)
  | .commitAdjustment p _ => some (0x55, p)
  | .abandonAdjustment p => some (0x56, p)
  | .readMetrologyStatus p => some (0x57, p)
  | .readConfiguration p => some (0x58, p)
  | .readAuditTrail p => some (0x59, p)
  | .openAudit p => some (0x60, p)
  | .auditStep p => some (0x61, p)
  | .closeAudit p _ => some (0x62, p)
  | .abandonAudit p => some (0x63, p)
  | .readAuditRecord p => some (0x64, p)
  | .setCalendar p _ => some (0x70, p)
  | .readCalendar p => some (0x71, p)
  | .unknownRequest kind p => some (kind, p)
  | _ => none

/-- The frame that carries a request (R167, R169); no bytes for an event. -/
def Instr.encode (i : Instr) : List Byte :=
  match i.frame? with
  | none => []
  | some (kind, p) => Machine.frameBytes kind p

end Sys2Proof
end

