-- ==== Sys2Proof/Machine/Types.lean ====
section
/-! DEFINITION. The records and the named values of the block: what each of its fields can hold, chapter by chapter. -/

namespace Sys2Proof.Machine

/-! ## The calendar (10_the_calendar.md) -/

/-- A calendar date; the day may lie beyond its month's length (R161). -/
structure Date where
  year : Nat
  month : Nat
  day : Nat
deriving DecidableEq, Repr

/-- A calendar value, and so a stamp (R160, R163). -/
structure DateTime where
  date : Date
  hour : Nat
  minute : Nat
  second : Nat
deriving DecidableEq, Repr

/-- The day of the week, counted from 1 January 2000, a Saturday (R160). -/
inductive Weekday where
  | saturday
  | sunday
  | monday
  | tuesday
  | wednesday
  | thursday
  | friday
deriving DecidableEq, Repr

/-- The calendar's counting source (R162). -/
inductive CountSource where
  | crystal
  | main
deriving DecidableEq, Repr

/-! ## Load-cell channels (02_load_cell_channels.md) -/

/-- The scale state (R22). -/
inductive ScaleState where
  | warmup
  | run
  | standby
deriving DecidableEq, Repr

/-- A channel's health state (R32). -/
inductive Health where
  | good
  | watch
  | excluded
  | recovering
deriving DecidableEq, Repr

/-- Why a channel was excluded (R32, R34). -/
inductive ExclusionCause where
  | automatic
  | manual
deriving DecidableEq, Repr

/-- The kinds of fault (R27). -/
inductive FaultKind where
  | overrange
  | senseLost
  | stuck
  | spike
deriving DecidableEq, Repr

/-- A channel's last fault code (R36). -/
inductive FaultCode where
  | none
  | kind (k : FaultKind)
  | noNew
deriving DecidableEq, Repr

/-- All that the acquisition unit holds per channel (02, first table; `evaluated` is R36's field). -/
structure Channel where
  raw : Option Int
  prev : Option Int
  lastGood : Option Int
  stuckRun : Nat
  counter : Nat
  cleanRun : Nat
  health : Health
  cause : Option ExclusionCause
  recovery : Nat
  lastCode : FaultCode
  evaluated : Bool
deriving DecidableEq, Repr

/-- The fault capture record, when it holds a fault (R37). -/
structure FaultCapture where
  channel : Chan
  kind : FaultKind
  raw : Int
  sampleNumber : BitVec 32
  stamp : Option DateTime
  more : Bool
deriving DecidableEq, Repr

/-! ## The sample result and the window (01_weight_arithmetic.md, 03_zero_and_motion.md) -/

/-- The zones of the indicated gross (R13). -/
inductive Zone where
  | underload
  | overload
  | overMax
  | centreZero
  | normal
deriving DecidableEq, Repr

/-- A deck's entry of a sample result in VALUE (R1). -/
structure DeckMass where
  deck : Deck
  mass : Int
  substituted : Bool
deriving DecidableEq, Repr

/-- A deck's entry of a sample result: VALUE with its mass, or DOWN (R1, R6). -/
inductive DeckResult where
  | value (m : DeckMass)
  | down (d : Deck)
deriving DecidableEq, Repr

/-- One sample result (R1). -/
inductive SampleResult where
  | scaleNotRunning
  | uncalibrated
  | deckDown (decks : List DeckResult)
  | value (decks : List DeckMass) (total gross : Int) (zone : Zone)
deriving DecidableEq, Repr

/-- The latest sample result, with the number of the sample event that formed it and the division e in hg that was in
force then (R41, R55; 00_scope.md, Mass: a mass is a multiple of the e in force when it was weighed). -/
structure LatestResult where
  result : SampleResult
  sampleNumber : BitVec 32
  eHg : Nat
deriving DecidableEq, Repr

/-- One entry of the stability window (R41). -/
structure WindowEntry where
  total : Int
  decks : List DeckMass
  sampleNumber : BitVec 32
deriving DecidableEq, Repr

/-- The three stability decisions that stand (R45). -/
structure Decisions where
  profile1 : Bool
  profile2 : Bool
  zeroBand : Bool
deriving DecidableEq, Repr

/-- The zero state (R50). -/
inductive ZeroState where
  | pending
  | set
deriving DecidableEq, Repr

/-! ## The metrological configuration (R134) -/

/-- One channel's parameters: `none` is UNUSED. -/
structure ChannelParams where
  deck : Option Deck
  zero : Int
  gain : Nat
deriving DecidableEq, Repr

/-- One linearity point: load and correction in hg (R8). -/
structure LinPoint where
  load : Nat
  correction : Int
deriving DecidableEq, Repr

/-- A settling profile: segments of duration code and level, and an offset (R47). -/
structure Profile where
  segments : List (Nat × Nat)
  offset : Int
deriving DecidableEq, Repr

/-- The two settling profiles by name (R47). -/
inductive ProfileNo where
  | one
  | two
deriving DecidableEq, Repr

/-- The metrological configuration, group by group (R134). `mpe` holds upper bounds in divisions with their MPE in
quarter-divisions. -/
structure MetroConfig where
  channels : Bank ChannelParams 16
  linearity : Bank (List LinPoint) 4
  maxKg : Nat
  eKg : Nat
  profile1 : Profile
  profile2 : Profile
  window : Nat
  zeroTracking : Bool
  warmupCode : Nat
  mpe : List (Nat × Nat)
  auditInterval : Nat
  minTestLoad : Bank Nat 4
deriving DecidableEq, Repr

/-- The seven parameter groups (R134). -/
inductive ParamGroup where
  | channel
  | linearity
  | scale
  | profile
  | window
  | mpe
  | audit
deriving DecidableEq, Repr

/-- The conditions of a complete configuration, in their order (R134, R143). -/
inductive IncompleteCondition where
  | noActiveDeck
  | namedDeckNotActive
  | deckGap
  | maxDivision
deriving DecidableEq, Repr

/-! ## The axle map (04_the_axle_map.md) -/

/-- A line's pairing state, with its opening time (R59). In GUARD the element that opened the pairing is kept: R60
reports it and R59 pairs it still with a partner stamped in time. -/
inductive Pairing where
  | idle
  | openA (t0 : Nat)
  | openB (t0 : Nat)
  | guardA (t0 : Nat)
  | guardB (t0 : Nat)
deriving DecidableEq, Repr

/-- A line's last fault code (R62). -/
inductive TreadleCode where
  | none
  | singleElement
  | phantom
  | noNew
deriving DecidableEq, Repr

/-- What is held per treadle line (R58, R59, R62); a level is true when ACTIVE. -/
structure TreadleLine where
  levelA : Bool
  levelB : Bool
  pairing : Pairing
  code : TreadleCode
deriving DecidableEq, Repr

/-- An axle record (R63). -/
structure Axle where
  number : Nat
  entryTime : Nat
  entrySpeed : Option Nat
  spacing : Option Nat
  speedHigh : Bool
  reEntered : Bool
  uncertainBoundary : Bool
deriving DecidableEq, Repr

/-- Why the map became UNCERTAIN (R68). -/
inductive LossCause where
  | phantom
  | singleElement
  | secondVehicle
  | overflow
  | hiddenLoad
  | configuration
  | reset
deriving DecidableEq, Repr

/-- Occupancy (R73); `part` is the manual's PARTIAL. -/
inductive Occupancy where
  | empty
  | part
  | whole
deriving DecidableEq, Repr

/-- The direction of a crossing (R59). -/
inductive Direction where
  | forward
  | backward
deriving DecidableEq, Repr

/-- The treadle settings (R57). -/
structure TreadleSettings where
  separation : Nat
  filterTime : Nat
  groupGap : Nat
deriving DecidableEq, Repr

/-! ## Groups and verdicts (05_axle_groups_and_verdicts.md) -/

/-- The six group types (R76). -/
inductive GroupType where
  | steerSingle
  | steerTwin
  | single
  | tandem
  | tridem
  | quad
deriving DecidableEq, Repr

/-- The group limit table, in kg (R76). -/
structure GroupLimits where
  steerSingle : Nat
  steerTwin : Nat
  single : Nat
  tandem : Nat
  tridem : Nat
  quad : Nat
deriving DecidableEq, Repr

/-- One class table entry (R77). -/
structure ClassEntry where
  inUse : Bool
  grossLimit : Nat
  maxAxles : Nat
  profile : ProfileNo
deriving DecidableEq, Repr

/-- A component's status (R85). -/
inductive ComponentStatus where
  | unresolved
  | combined
  | single
deriving DecidableEq, Repr

/-- A comparison of a mass with a limit; OVER carries the excess in kg (R86, R88). -/
inductive Comparison where
  | within
  | overBy (excess : Int)
  | unresolved
deriving DecidableEq, Repr

/-- A group's verdict (R87). -/
inductive GroupVerdict where
  | unresolved
  | uncertain
  | overBy (excess : Int)
  | within
deriving DecidableEq, Repr

/-- One entry of a verdict's group list (R90). -/
structure GroupEntry where
  number : Nat
  firstAxle : Nat
  lastAxle : Nat
  axleCount : Nat
  type : GroupType
  limit : Nat
  component : Option Nat
  mass : Option Int
  verdict : GroupVerdict
  straddled : Bool
  uncertainBoundary : Bool
  substituted : Bool
deriving DecidableEq, Repr

/-- One entry of a verdict's component list; `position` is 0 when the verdict is not composite (R90, R92). -/
structure ComponentEntry where
  number : Nat
  decks : List Deck
  firstGroup : Nat
  lastGroup : Nat
  status : ComponentStatus
  mass : Int
  limit : Option Nat
  comparison : Comparison
  substituted : Bool
  position : Nat
deriving DecidableEq, Repr

/-- The vehicle verdict (R89). -/
inductive VehicleVerdict where
  | incomplete
  | overloaded
  | compliant
deriving DecidableEq, Repr

/-- The reasons of an INCOMPLETE verdict (R89). -/
structure IncompleteReasons where
  mapUncertain : Bool
  tooManyGroups : Bool
  deckLoadWithoutAxle : Bool
  groupUnresolved : Bool
  groupUncertain : Bool
  classMismatch : Bool
deriving DecidableEq, Repr

/-- The verdict record (R90). -/
structure Verdict where
  vehicle : VehicleVerdict
  reasons : IncompleteReasons
  cls : Nat
  grossLimit : Nat
  maxAxles : Nat
  entered : Nat
  gross : Int
  grossComparison : Comparison
  deckLoads : List Deck
  groups : List GroupEntry
  components : List ComponentEntry
deriving DecidableEq, Repr

/-! ## Capture operations (06_capture_operations.md) -/

/-- The five kinds of capture (R94). -/
inductive CaptureKind where
  | first
  | second
  | singlePass
  | tare
  | axleCheck
deriving DecidableEq, Repr

/-- The two kinds of transaction (R94, R116). -/
inductive TxKind where
  | receival
  | outturn
deriving DecidableEq, Repr

/-- The request fields of a Start Capture (R94). A field that the kind does not carry holds its value for none. -/
structure CaptureRequest where
  kind : CaptureKind
  vehicle : Text
  cls : Nat
  txKind : Option TxKind
  commodity : Nat
  grade : Option Text
  txNumber : Nat
  allowComposite : Bool
  acceptIncomplete : Bool
deriving DecidableEq, Repr

/-- A component credited at a position (R91): its position, its place among that position's components, its decks and
status, and the comparison it was given there. -/
structure CreditedComponent where
  position : Nat
  index : Nat
  decks : List Deck
  status : ComponentStatus
  mass : Int
  roundedKg : Int
  limit : Nat
  comparison : Comparison
  substituted : Bool
deriving DecidableEq, Repr

/-- One entry of the credited-group list (R91). -/
structure CreditedGroup where
  firstAxle : Nat
  lastAxle : Nat
  axleCount : Nat
  type : GroupType
  limit : Nat
  uncertainBoundary : Bool
  straddled : Bool
  component : CreditedComponent
deriving DecidableEq, Repr

/-- An operation's state (R97). -/
inductive OpState where
  | awaitingVehicle
  | settling
  | positionWait
deriving DecidableEq, Repr

/-- An operation's mode (R97). -/
inductive OpMode where
  | whole
  | composite
deriving DecidableEq, Repr

/-- The operation record (R97). -/
structure Operation where
  number : Nat
  request : CaptureRequest
  profile : ProfileNo
  timeoutLimit : Nat
  timeoutCount : Nat
  state : OpState
  mode : OpMode
  positions : Nat
  credited : List CreditedGroup
deriving DecidableEq, Repr

/-- Why an operation failed (R104). -/
inductive FailReason where
  | unstableTimeout
  | overload
  | underload
  | deckDown
  | twoVehicles
  | mapUncertain
  | compositeIncomplete
  | positionLimit
  | cancelled
  | storeFault
deriving DecidableEq, Repr

/-- The flags that a capture carries (R106): zone flags, SUBSTITUTED, COMPOSITE with its position count (0 when the
capture is not composite), TIME_DEGRADED. -/
structure CaptureFlags where
  overMax : Bool
  belowMin : Bool
  substituted : Bool
  composite : Bool
  positions : Nat
  degraded : Bool
deriving DecidableEq, Repr

/-- The colour of a lamp (R108, R109). -/
inductive Lamp where
  | red
  | green
deriving DecidableEq, Repr

/-- The reasons of the metrology status, in the order of R147; TRADE_READY is the set with none. -/
structure StatusReasons where
  uncalibrated : Bool
  adjusting : Bool
  auditRequired : Bool
  auditFailed : Bool
  auditOverdue : Bool
  timeUnset : Bool
deriving DecidableEq, Repr

/-- The not-for-trade reasons, in the order of the ticket's bits (R128, 11.6). -/
structure TradeReasons where
  status : StatusReasons
  mixedCalibration : Bool
  composite : Bool
  substituted : Bool
  overMax : Bool
  belowMin : Bool
  reversed : Bool
deriving DecidableEq, Repr

/-- Why an entry is in REWORK (R116, R120). -/
inductive ReworkReason where
  | overloaded
  | incomplete (reasons : IncompleteReasons)
deriving DecidableEq, Repr

/-- Why a stored tare was not used (R124). -/
inductive FallbackReason where
  | tareUndated
  | tareAged
  | tareCounter
  | noTare
deriving DecidableEq, Repr

/-- The completion outcome, with its details (R107); a failed write is not among them. -/
inductive Completion where
  | checked
  | opened (tx : Nat)
  | ticketIssued (ticket tx : Nat)
  | rework (tx : Nat) (reason : ReworkReason)
  | fallbackTwoPass (tx : Nat) (reason : FallbackReason)
  | tareStored (slot : Nat) (displaced : Option Text)
  | tareNotStored (reasons : TradeReasons)
deriving DecidableEq, Repr

/-- The capture result record (R106). -/
structure CaptureResult where
  operation : Nat
  request : CaptureRequest
  gross : Int
  deckMeans : List Int
  flags : CaptureFlags
  stamp : Option DateTime
  status : StatusReasons
  counter : Nat
  checksum : BitVec 16
  verdict : Verdict
  outcome : Completion
deriving DecidableEq, Repr

/-! ## The record store (07_transactions_tare_and_tickets.md) -/

/-- The first weighing of an entry (R116). -/
structure FirstWeighing where
  gross : Int
  stamp : Option DateTime
  counter : Nat
  checksum : BitVec 16
  flags : CaptureFlags
  verdict : VehicleVerdict
  groups : List GroupEntry
deriving DecidableEq, Repr

/-- The state of an open transaction entry (R116); `standing` is the manual's OPEN. -/
inductive EntryState where
  | standing
  | rework (reason : ReworkReason)
deriving DecidableEq, Repr

/-- One entry of the open transaction table (R116). -/
structure OpenEntry where
  number : Nat
  kind : TxKind
  vehicle : Text
  cls : Nat
  commodity : Nat
  grade : Option Text
  state : EntryState
  stale : Bool
  first : FirstWeighing
deriving DecidableEq, Repr

/-- One stored tare (R123). -/
structure StoredTare where
  vehicle : Text
  mass : Int
  date : Date
  counter : Nat
deriving DecidableEq, Repr

/-- The stamp of a ticket's weighing: absent, a capture's stamp, or the date of a stored tare (R125, R127). -/
inductive WeighingStamp where
  | absent
  | stamp (t : DateTime)
  | tareDate (d : Date)
deriving DecidableEq, Repr

/-- One weighing as a ticket carries it (R127). -/
structure TicketWeighing where
  gross : Int
  stamp : WeighingStamp
  counter : Nat
deriving DecidableEq, Repr

/-- Where a ticket's tare comes from (R127). -/
inductive TareSource where
  | weighed
  | stored
deriving DecidableEq, Repr

/-- A ticket (R127). -/
structure Ticket where
  number : Nat
  tx : Nat
  kind : TxKind
  vehicle : Text
  cls : Nat
  commodity : Nat
  grade : Option Text
  first : TicketWeighing
  second : TicketWeighing
  tareSource : TareSource
  net : Int
  reasons : TradeReasons
  stale : Bool
  degraded : Bool
  verdict : VehicleVerdict
  incomplete : IncompleteReasons
  groups : List GroupEntry
  counter : Nat
  checksum : BitVec 16
deriving DecidableEq, Repr

/-- The ticket site settings (R132). -/
structure TicketSettings where
  watermark : Nat
  tareValidity : Nat
  staleness : Nat
deriving DecidableEq, Repr

/-- The store writes (R112). -/
inductive StoreWrite where
  | openEntry
  | rework
  | issue
  | tare
  | stale
  | removal
  | commit
  | auditClose
  | calendarSet
deriving DecidableEq, Repr

/-! ## Audits and the trail (08_metrology_configuration_and_status.md, 09_verification_audits.md) -/

/-- The kind and fields of a trail entry (R146); `passed` is the result of a closed audit. -/
inductive TrailKind where
  | adjustment (counter : Nat) (before after : BitVec 16) (groups : List ParamGroup) (stamp : Option DateTime)
  | calendarSet (old : Option DateTime) (new : DateTime)
  | auditClosed (number : Nat) (passed : Bool)
deriving DecidableEq, Repr

/-- One audit trail entry (R146). -/
structure TrailEntry where
  seq : Nat
  kind : TrailKind
deriving DecidableEq, Repr

/-- The three kinds of calibration capture (R139). -/
inductive CalKind where
  | zero
  | span
  | linearity
deriving DecidableEq, Repr

/-- One entry of the calibration window: the channel values of the target deck and its staged raw sum (R139). -/
structure CalEntry where
  values : List (Chan × Int)
  rawSum : Int
deriving DecidableEq, Repr

/-- A calibration capture in flight (R139). -/
structure Calibration where
  kind : CalKind
  deck : Deck
  load : Nat
  limit : Nat
  count : Nat
  window : List CalEntry
deriving DecidableEq, Repr

/-- The outcome of a calibration capture with the values that its rule names (R139 to R142). -/
inductive CalOutcome where
  | zeroOk (zeros : List (Chan × Int))
  | spanOk (s : Int) (factor : Int) (gains : List (Chan × Nat))
  | spanRange (values : Option (Int × Int))
  | linearityOk (x c : Int) (table : List LinPoint)
  | linearityRange (x c : Int) (table : List LinPoint)
  | tableFull (x c : Int) (table : List LinPoint)
  | calUnstable
  | channelExcluded
deriving DecidableEq, Repr

/-- The adjustment session record (R137). -/
structure AdjustSession where
  staged : MetroConfig
  idle : Nat
  calibration : Option Calibration
deriving DecidableEq, Repr

/-- The kinds of audit step (09, 9.2); `again` is the manual's REPEAT. -/
inductive StepKind where
  | load
  | again
  | zero
deriving DecidableEq, Repr

/-- The target of an audit step (R151). -/
inductive StepTarget where
  | bridge
  | deck (d : Deck)
deriving DecidableEq, Repr

/-- A step record (R154); `refIndex` and `difference` are present for REPEAT only. -/
structure StepRecord where
  index : Nat
  kind : StepKind
  target : StepTarget
  load : Nat
  refIndex : Option Nat
  indication : Int
  reportedError : Int
  mpe : Nat
  mpeQuarters : Nat
  difference : Option Int
  substituted : Bool
  passed : Bool
  stamp : Option DateTime
deriving DecidableEq, Repr

/-- A step in flight (R151). -/
structure StepFlight where
  kind : StepKind
  target : StepTarget
  load : Nat
  refIndex : Nat
  count : Nat
  limit : Nat
deriving DecidableEq, Repr

/-- The audit session record (R149). -/
structure AuditSession where
  number : Nat
  steps : List StepRecord
  idle : Nat
  flight : Option StepFlight
deriving DecidableEq, Repr

/-- The reasons of a FAIL (R155). -/
structure AuditReasons where
  stepFailed : Bool
  coverage : List Deck
  noFinalZero : Bool
deriving DecidableEq, Repr

/-- An audit record (R156); the due date is present for a PASS only. -/
structure AuditRecord where
  number : Nat
  date : Date
  counter : Nat
  checksum : BitVec 16
  passed : Bool
  reasons : AuditReasons
  due : Option Date
  steps : List StepRecord
deriving DecidableEq, Repr

/-- The operation slot, with what holds it (R93, R97, R137, R149). -/
inductive Slot where
  | free
  | capture (op : Operation)
  | adjustment (session : AdjustSession)
  | audit (session : AuditSession)
deriving DecidableEq, Repr

/-- How an adjustment session was aborted (R145). -/
inductive AbortCause where
  | switch
  | idle
deriving DecidableEq, Repr

/-- Why an audit session was abandoned (R157). -/
inductive AbandonCause where
  | request
  | idle
deriving DecidableEq, Repr

end Sys2Proof.Machine
end

