-- ==== Sys2Proof/Machine/Operands.lean ====
section
/-! DEFINITION. The operands of the requests: every payload of R169 read into its fields, and written back. A reader
answers none where the payload's length or fields do not match the request (R168). Fields that a kind does not use are
read over (log 17). -/

namespace Sys2Proof.Machine

/-- A payload without fields. -/
def parseEmpty (p : List Byte) : Option Unit := if p = [] then some () else none

/-- One number of `k` bytes. -/
def parseNat (k : Nat) (p : List Byte) : Option Nat := readWhole (readNat k) p

/-- One text. -/
def parseText (p : List Byte) : Option Text := readWhole readText p

/-- Set Notice Mask: mask (4), store-default flag (1). -/
def parseNoticeMask (p : List Byte) : Option (BitVec 32 × Bool) := do
  let (m, r) ← readNat 4 p
  let f ← readWhole readFlag r
  some (BitVec.ofNat 32 m, f)

/-- Write Treadle Settings: separation (2), filter time (1), group gap (2). -/
def parseTreadle (p : List Byte) : Option TreadleSettings := do
  let (s, r) ← readNat 2 p
  let (f, r) ← readNat 1 r
  let g ← readWhole (readNat 2) r
  some { separation := s, filterTime := f, groupGap := g }

/-- Write Group Limits: six limits (2 each), in the order of R76. -/
def parseLimits (p : List Byte) : Option GroupLimits := do
  let (a, r) ← readNat 2 p
  let (b, r) ← readNat 2 r
  let (c, r) ← readNat 2 r
  let (d, r) ← readNat 2 r
  let (e, r) ← readNat 2 r
  let f ← readWhole (readNat 2) r
  some { steerSingle := a, steerTwin := b, single := c, tandem := d, tridem := e, quad := f }

/-- The fields of Write Class, not yet checked (R77). -/
structure ClassWrite where
  cls : Nat
  inUse : Bool
  grossLimit : Nat
  maxAxles : Nat
  profile : Nat
deriving DecidableEq, Repr

/-- Write Class: class code (1), in use (1), gross limit (4), maximum axles (1), settling profile (1). -/
def parseClass (p : List Byte) : Option ClassWrite := do
  let (c, r) ← readNat 1 p
  let (u, r) ← readFlag r
  let (g, r) ← readNat 4 r
  let (m, r) ← readNat 1 r
  let q ← readWhole (readNat 1) r
  some { cls := c, inUse := u, grossLimit := g, maxAxles := m, profile := q }

/-- Write Ticket Settings: watermark (1), tare validity (2), staleness limit (2). -/
def parseTicketSettings (p : List Byte) : Option TicketSettings := do
  let (w, r) ← readNat 1 p
  let (v, r) ← readNat 2 r
  let s ← readWhole (readNat 2) r
  some { watermark := w, tareValidity := v, staleness := s }

/-- The capture kind of a byte (R94, 11.6). -/
def captureKindOf : Nat → Option CaptureKind
  | 0 => some .first
  | 1 => some .second
  | 2 => some .singlePass
  | 3 => some .tare
  | 4 => some .axleCheck
  | _ => none

/-- The transaction kind of a byte (R94, 11.6). -/
def txKindOf : Nat → Option TxKind
  | 0 => some .receival
  | 1 => some .outturn
  | _ => none

/-- The fields of Start Capture as they lie in the payload (R169). -/
structure CaptureFields where
  kind : Nat
  vehicle : Text
  cls : Nat
  txKind : Nat
  commodity : Nat
  grade : Option Text
  txNumber : Nat
  flags : Nat
deriving DecidableEq, Repr

/-- Start Capture: kind (1), vehicle (text), class (1), transaction kind (1), commodity (2), grade (optional text),
transaction number (4), request flags (1). -/
def parseCapture (p : List Byte) : Option CaptureFields := do
  let (k, r) ← readNat 1 p
  let (v, r) ← readText r
  let (c, r) ← readNat 1 r
  let (t, r) ← readNat 1 r
  let (m, r) ← readNat 2 r
  let (g, r) ← readOptText r
  let (n, r) ← readNat 4 r
  let f ← readWhole (readNat 1) r
  some { kind := k, vehicle := v, cls := c, txKind := t, commodity := m, grade := g, txNumber := n, flags := f }

/-- The kind carries commodity and grade (R94). -/
def CaptureKind.carriesGoods : CaptureKind → Bool
  | first => true
  | singlePass => true
  | second => false
  | tare => false
  | axleCheck => false

/-- A character of a vehicle identifier: hyphen, 0 to 9, A to Z (R94). -/
def idChar (b : Byte) : Bool :=
  b == 0x2D || (decide (0x30 ≤ b.toNat) && decide (b.toNat ≤ 0x39)) || (decide (0x41 ≤ b.toNat) && decide (b.toNat ≤ 0x5A))

/-- A vehicle identifier: 1 to 12 such characters (R94). -/
def validVehicle (t : Text) : Bool := decide (1 ≤ t.length) && decide (t.length ≤ 12) && t.all idChar

/-- The request fields of a Start Capture by the checks of R94 that its fields alone decide; a field that the kind does
not carry becomes its value for none (log 17). Bits 2 to 7 of the request flags are not looked at (log 45). -/
def CaptureFields.request (f : CaptureFields) : Option CaptureRequest :=
  match captureKindOf f.kind with
  | none => none
  | some k =>
    let goods := k.carriesGoods
    let allow := f.flags % 2 == 1
    if !validVehicle f.vehicle || !(decide (1 ≤ f.cls) && decide (f.cls ≤ 32)) then none
    else if goods && (decide (999 < f.commodity) || decide (6 < (f.grade.getD []).length)) then none
    else if k = .first ∧ txKindOf f.txKind = none then none
    else if k = .tare ∧ allow = true then none
    else some
      { kind := k, vehicle := f.vehicle, cls := f.cls
        txKind := if k = .first then txKindOf f.txKind else none
        commodity := if goods then f.commodity else 0
        grade := if goods then f.grade else none
        txNumber := if k = .second then f.txNumber else 0
        allowComposite := allow
        acceptIncomplete := decide (k = .second) && f.flags / 2 % 2 == 1 }

/-- What Stage Parameter stages (R138, R169); numbers are as they lie in the payload. -/
inductive StageFields where
  | channel (ch deck : Nat) (zero : Int) (gain : Nat)
  | linearity (deck : Nat) (points : List LinPoint) (count : Nat)
  | scale (maxKg eKg : Nat)
  | profile (number : Nat) (segments : List (Nat × Nat)) (count : Nat) (offset : Int)
  | window (w zeroTracking warmupCode : Nat)
  | mpe (bands : List (Nat × Nat)) (count : Nat)
  | audit (interval : Nat) (minima : List Nat)
deriving DecidableEq, Repr

/-- One linearity point: load (4), correction (4, signed). -/
def readPoint : Reader LinPoint := fun p => do
  let (l, r) ← readNat 4 p
  let (c, r) ← readInt 4 r
  some ({ load := l, correction := c }, r)

/-- Two numbers, of `a` and of `b` bytes. -/
def readPair (a b : Nat) : Reader (Nat × Nat) := fun p => do
  let (x, r) ← readNat a p
  let (y, r) ← readNat b r
  some ((x, y), r)

/-- Stage Parameter: group (1), the channel, deck or profile (1) where the group has one, then the fields in the bytes
of the checksum serialization (R169). The bytes of unused point, segment and band slots are read over (log 47). -/
def parseStage (p : List Byte) : Option StageFields := do
  let (g, r) ← readNat 1 p
  match g with
  | 0 => do
    let (ch, r) ← readNat 1 r
    let (d, r) ← readNat 1 r
    let (z, r) ← readInt 3 r
    let n ← readWhole (readNat 3) r
    some (.channel ch d z n)
  | 1 => do
    let (d, r) ← readNat 1 r
    let (n, r) ← readNat 1 r
    let ps ← readWhole (readList readPoint 4) r
    some (.linearity d (ps.take n) n)
  | 2 => do
    let (m, r) ← readNat 4 r
    let e ← readWhole (readNat 1) r
    some (.scale m e)
  | 3 => do
    let (k, r) ← readNat 1 r
    let (n, r) ← readNat 1 r
    let (ss, r) ← readList (readPair 1 1) 8 r
    let o ← readWhole (readInt 1) r
    some (.profile k (ss.take n) n o)
  | 4 => do
    let (w, r) ← readNat 1 r
    let (z, r) ← readNat 1 r
    let c ← readWhole (readNat 1) r
    some (.window w z c)
  | 5 => do
    let (n, r) ← readNat 1 r
    let bs ← readWhole (readList (readPair 2 1) 4) r
    some (.mpe (bs.take n) n)
  | 6 => do
    let (i, r) ← readNat 2 r
    let ms ← readWhole (readList (readNat 4) 4) r
    some (.audit i ms)
  | _ => none

/-- A calibration with a reference load: deck (1), R (4). -/
def parseDeckLoad (p : List Byte) : Option (Nat × Nat) := readWhole (readPair 1 4) p

/-- The fields of Audit Step (R151, R169); the kind is checked with the other fields, inside the session. -/
structure StepFields where
  kind : Nat
  target : Nat
  load : Nat
  refIndex : Nat
deriving DecidableEq, Repr

/-- The step kind of a byte: LOAD 0, REPEAT 1, ZERO 2 (R169). -/
def stepKindOf : Nat → Option StepKind
  | 0 => some .load
  | 1 => some .again
  | 2 => some .zero
  | _ => none

/-- Audit Step: kind (1), target (1), R (4), referenced index (1). -/
def parseStep (p : List Byte) : Option StepFields := do
  let (k, r) ← readNat 1 p
  let (t, r) ← readNat 1 r
  let (l, r) ← readNat 4 r
  let i ← readWhole (readNat 1) r
  some { kind := k, target := t, load := l, refIndex := i }

/-- The selector of Read Configuration (R148, R169). -/
inductive ConfigSelector where
  | stored
  | staged
deriving DecidableEq, Repr

/-- Read Configuration: STORED 0, STAGED 1. -/
def parseConfigSelector (p : List Byte) : Option ConfigSelector :=
  match parseNat 1 p with
  | some 0 => some .stored
  | some 1 => some .staged
  | _ => none

/-- The selector of Read Audit Record (R158, R169). -/
inductive AuditSelector where
  | number (n : Nat)
  | newest
  | session
deriving DecidableEq, Repr

/-- Read Audit Record: selector (1), audit number (4). -/
def parseAuditSelector (p : List Byte) : Option AuditSelector :=
  match readWhole (readPair 1 4) p with
  | some (0, n) => some (.number n)
  | some (1, _) => some .newest
  | some (2, _) => some .session
  | _ => none

/-- Set Calendar: a stamp (7). -/
def parseStamp (p : List Byte) : Option DateTime := do
  let (y, r) ← readNat 2 p
  let (mo, r) ← readNat 1 r
  let (d, r) ← readNat 1 r
  let (h, r) ← readNat 1 r
  let (mi, r) ← readNat 1 r
  let s ← readWhole (readNat 1) r
  some { date := { year := y, month := mo, day := d }, hour := h, minute := mi, second := s }

/-- The channel with a number, 1 to 16. -/
def chanOf (n : Nat) : Option Chan := if h : 1 ≤ n ∧ n ≤ 16 then some ⟨n - 1, by omega⟩ else none

/-- The deck with a number, 1 to 4. -/
def deckOf (n : Nat) : Option Deck := if h : 1 ≤ n ∧ n ≤ 4 then some ⟨n - 1, by omega⟩ else none

/-- The class table place of a code, 1 to 32. -/
def classOf (n : Nat) : Option (Fin 32) := if h : 1 ≤ n ∧ n ≤ 32 then some ⟨n - 1, by omega⟩ else none

/-- The profile with a number, 1 or 2. -/
def profileOf : Nat → Option ProfileNo
  | 1 => some .one
  | 2 => some .two
  | _ => none

end Sys2Proof.Machine
end

