-- ==== Sys2Proof/Machine/Dates.lean ====
section
/-! DEFINITION. Dates: leap years, carries, normalized dates, day counts and the order of dates (R160, R161, R119). -/

namespace Sys2Proof.Machine

/-- A leap year is a year divisible by 4, except 2100 (R160). -/
def isLeap (y : Nat) : Bool := y % 4 == 0 && y != 2100

/-- A month's length (R160). -/
def monthLength (y m : Nat) : Nat :=
  if m = 2 then (if isLeap y then 29 else 28) else if m = 4 ∨ m = 6 ∨ m = 9 ∨ m = 11 then 30 else 31

/-- The date of the day after, as the midnight carry forms it (R160): a day at or beyond its month's length becomes 1
and the month rises. -/
def Date.next (d : Date) : Date :=
  if d.day < monthLength d.year d.month then { d with day := d.day + 1 }
  else if d.month < 12 then { d with month := d.month + 1, day := 1 }
  else { year := d.year + 1, month := 1, day := 1 }

/-- The normalized date: a day beyond its month's length is the matching day of the next month (R119, R160). -/
def Date.normalize (d : Date) : Date :=
  let len := monthLength d.year d.month
  if d.day ≤ len then d
  else if d.month < 12 then { d with month := d.month + 1, day := d.day - len }
  else { year := d.year + 1, month := 1, day := d.day - len }

/-- The date `n` days after a normalized date (R156). -/
def Date.addDays : Date → Nat → Date
  | d, 0 => d
  | d, n + 1 => d.next.addDays n

/-- Days from 1 January to the first of a month. -/
def daysBeforeMonth (y : Nat) : Nat → Nat
  | 0 => 0
  | 1 => 0
  | m + 1 => daysBeforeMonth y m + monthLength y m

/-- Leap years from 2000 up to, but not including, `y`. -/
def leapsBefore (y : Nat) : Nat := (y - 2000 + 3) / 4 - (if 2100 < y then 1 else 0)

/-- The number of days from 1 January 2000 to the normalized date (R160). -/
def Date.dayNumber (d : Date) : Nat :=
  let n := d.normalize
  365 * (n.year - 2000) + leapsBefore n.year + daysBeforeMonth n.year n.month + (n.day - 1)

/-- The day of the week of a number of days from 1 January 2000, a Saturday (R160). -/
def weekdayOf (days : Nat) : Weekday :=
  match days % 7 with
  | 0 => .saturday
  | 1 => .sunday
  | 2 => .monday
  | 3 => .tuesday
  | 4 => .wednesday
  | 5 => .thursday
  | _ => .friday

/-- The order of two dates, field by field from the year down (R161). -/
def Date.before (a b : Date) : Bool :=
  a.year < b.year || (a.year == b.year && (a.month < b.month || (a.month == b.month && a.day < b.day)))

/-- Seconds from 1 January 2000 to a calendar value, on its normalized date. -/
def DateTime.seconds (t : DateTime) : Nat := 86400 * t.date.dayNumber + 3600 * t.hour + 60 * t.minute + t.second

/-- A first weighing's age reaches the staleness limit: the whole hours from its stamp to the calendar value are at
least the limit; a stamp after the value has a negative age (R119). -/
def agedHours (stamp now : DateTime) (limit : Nat) : Bool :=
  decide (stamp.seconds ≤ now.seconds ∧ limit ≤ (now.seconds - stamp.seconds) / 3600)

/-- A stored tare's age in days, negative for a date after the current date (R124). -/
def tareAge (tare now : Date) : Int := (now.dayNumber : Int) - tare.dayNumber

/-- The due date of an audit closed on a date (R156). -/
def dueDate (closed : Date) (interval : Nat) : Date := closed.normalize.addDays interval

/-- What one second carry does to the calendar value (R160): the value after it, none at the end of 31 December 2199,
with the hour event and the day event that it hands (R163). -/
structure CarryResult where
  value : Option DateTime
  hourEvent : Bool
  dayEvent : Bool
deriving DecidableEq, Repr

/-- One second carry (R160, R163). -/
def DateTime.carry (t : DateTime) : CarryResult :=
  if t.second < 59 then { value := some { t with second := t.second + 1 }, hourEvent := false, dayEvent := false }
  else if t.minute < 59 then
    { value := some { t with minute := t.minute + 1, second := 0 }, hourEvent := false, dayEvent := false }
  else if t.hour < 23 then
    { value := some { t with hour := t.hour + 1, minute := 0, second := 0 }, hourEvent := true, dayEvent := false }
  else
    let d := t.date.next
    if 2199 < d.year then { value := none, hourEvent := false, dayEvent := false }
    else { value := some { date := d, hour := 0, minute := 0, second := 0 }, hourEvent := true, dayEvent := true }

/-- The fields of a calendar value lie in their ranges (R164, check 1). -/
def DateTime.inRange (t : DateTime) : Bool :=
  decide (2000 ≤ t.date.year ∧ t.date.year ≤ 2199 ∧ 1 ≤ t.date.month ∧ t.date.month ≤ 12 ∧ 1 ≤ t.date.day ∧
    t.date.day ≤ 31 ∧ t.hour ≤ 23 ∧ t.minute ≤ 59 ∧ t.second ≤ 59)

end Sys2Proof.Machine
end

