-- ==== Sys2Proof/Machine/Arith.lean ====
section
/-! DEFINITION. Number handling of every chapter: exact integers, round half away from zero, truncation (R2, R3). -/

namespace Sys2Proof.Machine

/-- `n / d` rounded half away from zero, on the exact quotient (R2). The divisor is positive wherever it is used. -/
def roundDiv (n : Int) (d : Nat) : Int :=
  let m : Nat := (2 * n.natAbs + d) / (2 * d)
  if n < 0 then -(m : Int) else m

/-- "Rounded to e": divide by e in hg, round, multiply back (R2). The result is in hg. -/
def roundTo (eHg : Nat) (x : Int) : Int := roundDiv x eHg * eHg

/-- A value rounded to e, reported in kg: the hg value divided by 10 (R2). -/
def roundToKg (eHg : Nat) (x : Int) : Int := roundTo eHg x / 10

/-- The sum of a list of masses; sums are exact (R3). -/
def sumInt (xs : List Int) : Int := xs.foldl (· + ·) 0

/-- `x` clamped to `-b` to `b`. -/
def clamp (b : Nat) (x : Int) : Int := if x < -(b : Int) then -(b : Int) else if (b : Int) < x then b else x

/-- Insertion of `x` into a list in the order of `le`. -/
def insertBy {α : Type} (le : α → α → Bool) (x : α) : List α → List α
  | [] => [x]
  | y :: r => if le x y then x :: y :: r else y :: insertBy le x r

/-- A list put in the order of `le`; equal members keep their places. -/
def sortBy {α : Type} (le : α → α → Bool) : List α → List α
  | [] => []
  | x :: r => insertBy le x (sortBy le r)

end Sys2Proof.Machine
end

