-- ==== Sys2Proof/Machine/Mass.lean ====
section
/-! DEFINITION. Weight arithmetic (01_weight_arithmetic.md): what the configuration fixes, the stages of a sample, the
zones, and the settling bands of R47 to R49. -/

namespace Sys2Proof.Machine

/-! ## What a configuration fixes -/

/-- The channels that a deck assignment gives to a deck. -/
def deckChannels (assign : Chan → Option Deck) (d : Deck) : List Chan := allChans.filter fun i => assign i == some d

/-- The deck assignment of a configuration's CHANNEL group. -/
def MetroConfig.assign (c : MetroConfig) (i : Chan) : Option Deck := (c.channels.get i).deck

/-- The channels that a configuration gives to a deck. -/
def MetroConfig.deckChans (c : MetroConfig) (d : Deck) : List Chan := deckChannels c.assign d

/-- A deck is active when 2 to 8 channels name it (R134). -/
def MetroConfig.active (c : MetroConfig) (d : Deck) : Bool :=
  decide (2 ≤ (c.deckChans d).length ∧ (c.deckChans d).length ≤ 8)

/-- The active decks, from the entry end. -/
def MetroConfig.activeDecks (c : MetroConfig) : List Deck := allDecks.filter c.active

/-- N, the number of active decks. -/
def MetroConfig.deckCount (c : MetroConfig) : Nat := c.activeDecks.length

/-- The division e in hg (00_scope.md, Mass). -/
def MetroConfig.eHg (c : MetroConfig) : Nat := 10 * c.eKg

/-- The quarter-division q in hg, truncated (R2). -/
def MetroConfig.q (c : MetroConfig) : Nat := c.eHg / 4

/-- Max in hg. -/
def MetroConfig.maxHg (c : MetroConfig) : Nat := 10 * c.maxKg

/-- The deck share, Max/N in hg, truncated (R2). -/
def MetroConfig.deckShare (c : MetroConfig) : Nat := c.maxHg / c.deckCount

/-- The initial range Li (R40). -/
def MetroConfig.initialRange (c : MetroConfig) : Nat := c.deckShare / 10

/-- The tracking range Lz (R40). -/
def MetroConfig.trackingRange (c : MetroConfig) : Nat := c.deckShare / 50

/-- The first condition of a complete configuration that fails, if one does (R134). -/
def MetroConfig.incomplete (c : MetroConfig) : Option IncompleteCondition :=
  if c.activeDecks = [] then some .noActiveDeck
  else if allDecks.any (fun d => c.deckChans d != [] && !c.active d) then some .namedDeckNotActive
  else if c.activeDecks != allDecks.take c.deckCount then some .deckGap
  else if c.eKg = 0 ∨ c.maxKg % c.eKg ≠ 0 ∨ c.maxKg / c.eKg < 500 ∨ 10000 < c.maxKg / c.eKg then some .maxDivision
  else none

/-- The profile with a number. -/
def MetroConfig.profile (c : MetroConfig) : ProfileNo → Profile
  | .one => c.profile1
  | .two => c.profile2

/-! ## Settling profiles (R47, R49) -/

/-- The length of a duration code, in sample events (R47). -/
def segmentSamples (code : Nat) : Nat :=
  [10, 20, 30, 40, 50, 70, 90, 120, 150, 200, 250, 300, 400, 500, 650, 800].getD code 800

/-- The level of the segment that contains `t`; the last segment contains every `t` from its start onward (R49). -/
def segmentLevel : List (Nat × Nat) → Nat → Nat
  | [], _ => 0
  | [(_, level)], _ => level
  | (code, level) :: r, t => if t < segmentSamples code then level else segmentLevel r (t - segmentSamples code)

/-- The band of a profile at settling clock `t`, in hg (R49). -/
def band (p : Profile) (q t : Nat) : Nat :=
  let sum : Int := segmentLevel p.segments t + p.offset
  (if sum < 0 then 0 else if 31 < sum then 31 else sum.toNat) * q

/-! ## Stages 1 to 3 -/

/-- The channel mass: (c - z) times g divided by 2^20, rounded (R4). -/
def channelMass (p : ChannelParams) (c : Int) : Int := roundDiv ((c - p.zero) * p.gain) 1048576

/-- A channel is included when it is GOOD or WATCH (R4). -/
def Health.included : Health → Bool
  | good => true
  | watch => true
  | excluded => false
  | recovering => false

/-- A deck's raw sum and whether it is SUBSTITUTED; none when the deck is DOWN (R6, R7). -/
def rawSum (c : MetroConfig) (health : Chan → Health) (value : Chan → Int) (d : Deck) : Option (Int × Bool) :=
  let chans := c.deckChans d
  let incl := chans.filter fun i => (health i).included
  let excl := chans.length - incl.length
  let sum := sumInt (incl.map fun i => channelMass (c.channels.get i) (value i))
  if incl.length < 2 then none
  else if excl = 0 then some (sum, false)
  else some (sum + excl * roundDiv sum incl.length, true)

/-- The correction on the line from a point to the points after it, held beyond the last (R9). -/
def correctionFrom (l0 : Nat) (c0 : Int) : List LinPoint → Int → Int
  | [], _ => c0
  | p :: r, x =>
    if x ≤ p.load then c0 + roundDiv ((x - l0) * (p.correction - c0)) (p.load - l0)
    else correctionFrom p.load p.correction r x

/-- The linearity correction of a raw sum (R9). -/
def correction (table : List LinPoint) (x : Int) : Int := if x ≤ 0 then 0 else correctionFrom 0 0 table x

/-- The linearized value (R9). -/
def linearized (table : List LinPoint) (x : Int) : Int := x + correction table x

/-! ## Stages 4 to 6 -/

/-- A deck's entry of the sample result: raw sum, linearity, zero (R6 to R10). -/
def deckResult (c : MetroConfig) (health : Chan → Health) (value : Chan → Int) (offset : Bank Int 4) (d : Deck) :
    DeckResult :=
  match rawSum c health value d with
  | none => .down d
  | some (x, sub) => .value { deck := d, mass := linearized (c.linearity.get d) x - offset.get d, substituted := sub }

/-- The entries in VALUE of a list of deck entries. -/
def valueEntries : List DeckResult → List DeckMass
  | [] => []
  | .value m :: r => m :: valueEntries r
  | .down _ :: r => valueEntries r

/-- The zone of an indicated gross `g` formed from the bridge total `t` (R13). -/
def zoneOf (c : MetroConfig) (t g : Int) : Zone :=
  if g < -(20 * c.eHg : Nat) then .underload
  else if (c.maxHg + 9 * c.eHg : Nat) < g then .overload
  else if (c.maxHg : Int) < g then .overMax
  else if t.natAbs ≤ c.q then .centreZero
  else .normal

/-- The sample result formed from the deck entries (R1, R11 to R13). -/
def resultOf (c : MetroConfig) (decks : List DeckResult) : SampleResult :=
  let vals := valueEntries decks
  if vals.length < decks.length then .deckDown decks
  else
    let t := sumInt (vals.map DeckMass.mass)
    let g := roundTo c.eHg t
    .value vals t g (zoneOf c t g)

/-- The sample result of one sample event (R1). -/
def sampleResult (scale : ScaleState) (valid : Bool) (c : MetroConfig) (health : Chan → Health)
    (value : Chan → Int) (offset : Bank Int 4) : SampleResult :=
  if scale ≠ .run then .scaleNotRunning
  else if !valid then .uncalibrated
  else resultOf c (c.activeDecks.map (deckResult c health value offset))

/-- The indicated mass in kg, by zone (R14). -/
def indicatedMass : SampleResult → Option Int
  | .value _ _ g zone =>
    match zone with
    | .underload => none
    | .overload => none
    | .centreZero => some 0
    | .overMax => some (g / 10)
    | .normal => some (g / 10)
  | .scaleNotRunning => none
  | .uncalibrated => none
  | .deckDown _ => none

/-! ## Means over the window (R16, R17, R46) -/

/-- A deck's mass in a window entry. -/
def WindowEntry.deckMass (w : WindowEntry) (d : Deck) : Int :=
  sumInt ((w.decks.filter fun m => m.deck == d).map DeckMass.mass)

/-- A deck's mean over the window: the capture mean and the window mean (R16, R46). -/
def windowMean (window : List WindowEntry) (d : Deck) : Int :=
  roundDiv (sumInt (window.map fun w => w.deckMass d)) window.length

/-- The decks that carried SUBSTITUTED in the window's samples (R17). -/
def windowSubstituted (window : List WindowEntry) : List Deck :=
  allDecks.filter fun d => window.any fun w => w.decks.any fun m => m.deck == d && m.substituted

/-- The spread: the largest of the values less the smallest (R45). -/
def spread : List Int → Nat
  | [] => 0
  | x :: r => ((r.foldl max x) - (r.foldl min x)).toNat

/-- A window of length `w` is stable under a band (R45). -/
def stableUnder (w bandHg : Nat) (totals : List Int) : Bool := decide (w ≤ totals.length ∧ spread totals ≤ bandHg)

/-! ## The range of a capture (R18) -/

/-- What the range check says of a captured gross in hg (R18). -/
inductive RangeCheck where
  | overload
  | underload
  | ok (overMax belowMin : Bool)
deriving DecidableEq, Repr

/-- The range check of a captured gross (R18). -/
def rangeCheck (c : MetroConfig) (g : Int) : RangeCheck :=
  if (c.maxHg + 9 * c.eHg : Nat) < g then .overload
  else if g < 0 then .underload
  else .ok (decide ((c.maxHg : Int) < g)) (decide (g < (20 * c.eHg : Nat)))

end Sys2Proof.Machine
end

