-- ==== Sys2Proof/Config.lean ====
section
/-! DEFINITION. What the manual leaves open and the model leaves free: constants without a body, about which nothing
can be proved but their type. -/

namespace Sys2Proof.Config

/-- The hour, minute and second bytes that a ticket record carries in the stamp of a second weighing that is a stored
tare. R125 gives the tare date as the stamp, and the layout of 11.6 gives a stamp seven bytes: the manual states no
time of day. A free value of the date (log 21). -/
opaque tareTimeOfDay : (year month day : Nat) → Byte × Byte × Byte

/-- How many bytes a whole number takes in a notice's payload where no layout of the manual gives a size for that
quantity, by the notice code and the place of the field in the notice. R171 lays the payload down as the code followed by
the fields that the rule raising the notice lists; 11.6 gives no width for these. A free value (log 22). -/
opaque noticeWidth : (code field : Nat) → Nat

end Sys2Proof.Config
end

