-- ==== Sys2Proof/Machine/Messages.lean ====
section
/-! DEFINITION. What the block says on the link: status codes, the fields of its answers and its notices. Where the
manual gives a layout the bytes are in Machine/Layout.lean; every other record is described by its named fields
(00_scope.md, What this manual covers), and so it is held here (log 20). -/

namespace Sys2Proof.Machine

/-- The status codes (11.5). -/
inductive Status where
  | ok
  | accepted
  | badRequest
  | linkBusy
  | linkError
  | busy
  | sessionOpen
  | notReady
  | deckDown
  | bridgeOccupied
  | motion
  | range
  | notTradeReady
  | vehicleOpen
  | tableFull
  | storeFull
  | storeFault
  | noSuchTransaction
  | noSuchEntry
  | empty
  | switchNotCal
  | notInSession
  | counterExhausted
  | configIncomplete
  | channelExcluded
  | notExcluded
  | stepLimit
  | calendarUnset
  | timeBeforeAudit
deriving DecidableEq, Repr

/-- The cause of a LINK_ERROR (R167). -/
inductive LinkCause where
  | crc
  | length
deriving DecidableEq, Repr

/-- What kind of fault a TREADLE_FAULT reports (R60, R68). -/
inductive TreadleFault where
  | singleElement (opener : Element)
  | phantom
deriving DecidableEq, Repr

/-- The notices, in the order of their codes (R171), each with the fields that the rule raising it lists. -/
inductive Notice where
  | scaleState (new old : ScaleState)
  | channelState (ch : Chan) (new old : Health) (cause : Option ExclusionCause) (sample : BitVec 32)
  | zeroState (new : ZeroState) (offsets : List (Deck × Int))
  | zeroRange (means : List (Deck × Int)) (range : Nat)
  | zeroLimit (deck : Deck) (offset initial : Int)
  | axleCrossing (line : LineNo) (dir : Direction) (speed : Option Nat) (axle : Option Nat) (certain : Bool)
  | treadleFault (line : LineNo) (kind : TreadleFault)
  | axleInconsistent (cause : LossCause) (line : Option LineNo)
  | occupancy (new : Occupancy) (certain : Bool) (old : Occupancy)
  | operationState (number : Nat) (state : OpState) (mode : OpMode) (positions : Nat)
  | positionCaptured (number position : Nat) (groups : List (Nat × Nat))
  | captureResult (r : CaptureResult)
  | captureFailed (number : Nat) (kind : CaptureKind) (reason : FailReason) (positions : Nat)
  | lampState (entry exit : Lamp)
  | storeFault (write : StoreWrite)
  | transactionStale (number : Nat) (vehicle : Text)
  | tareExpired (vehicle : Text) (date : Date)
  | ticketReady (number stored : Nat)
  | storeWatermark
  | switchState (cal : Bool)
  | calibrationResult (kind : CalKind) (deck : Deck) (outcome : CalOutcome)
  | adjustAborted (cause : AbortCause)
  | metrologyStatus (new old : StatusReasons)
  | stepFailedUnstable (kind : StepKind) (target : StepTarget) (load : Nat)
  | auditStepDone (step : StepRecord)
  | auditClosed (number : Nat) (passed : Bool) (reasons : AuditReasons) (due : Option Date)
  | auditAbandoned (cause : AbandonCause)
  | calendarSource (source : CountSource) (degraded : Bool)
  | storeFull
  | calendarState (running : Bool)
deriving DecidableEq, Repr

/-- What Read Status says of the operation slot: its holder, with the operation number and state when it is CAPTURE
(R174). -/
inductive SlotReport where
  | free
  | capture (number : Nat) (state : OpState)
  | adjustment
  | audit
deriving DecidableEq, Repr

/-- The fields of Read Status (R174). -/
structure StatusFields where
  noticeLoss : Bool
  queued : Nat
  storeFault : Bool
  scale : ScaleState
  zeroState : ZeroState
  occupancy : Occupancy
  certain : Bool
  slot : SlotReport
  entryLamp : Lamp
  exitLamp : Lamp
  reworkHold : Bool
  status : StatusReasons
  calendarRunning : Bool
  degraded : Bool
  tickets : Nat
  reserved : Nat
  freeSlots : Nat
  ticket : TicketSettings
  timeout : Nat
  spikeLimit : Nat
  mask : BitVec 32
  defaultMask : BitVec 32
  sampleNumber : BitVec 32
deriving DecidableEq, Repr

/-- The fields of Read Channel (R36). -/
structure ChannelFields where
  channel : Chan
  deck : Option Deck
  evaluated : Bool
  raw : Option Int
  lastGood : Option Int
  health : Health
  cause : Option ExclusionCause
  counter : Nat
  recovery : Option Nat
  lastCode : FaultCode
deriving DecidableEq, Repr

/-- The outcome that Read Weight gives (R55). -/
inductive WeightOutcome where
  | value
  | scaleNotRunning
  | uncalibrated
  | deckDown
  | noSample
deriving DecidableEq, Repr

/-- What Read Weight gives of one deck: DOWN, or VALUE with its mass in kg and its SUBSTITUTED mark (R55). -/
inductive DeckWeight where
  | down
  | value (kg : Int) (substituted : Bool)
deriving DecidableEq, Repr

/-- The fields of Read Weight, in the order of R55's table; `decks` is empty when the outcome gives no deck. -/
structure WeightFields where
  outcome : WeightOutcome
  indicated : Option Int
  zone : Option Zone
  stable : Bool
  decks : List (Deck × DeckWeight)
  halts : List (Deck × Bool)
  zeroState : ZeroState
  clock : Nat
  fill : Nat
  spread : Option Nat
  band : Nat
  sampleNumber : Option (BitVec 32)
deriving DecidableEq, Repr

/-- What Read Treadles reports of one line; the pairing state is given for decoded lines (R62). -/
structure LineFields where
  decoded : Bool
  levelA : Bool
  levelB : Bool
  pairing : Option Pairing
  code : TreadleCode
deriving DecidableEq, Repr

/-- The fields of Read Treadles (R62). -/
structure TreadleFields where
  settings : TreadleSettings
  loopEntry : Bool
  loopExit : Bool
  lines : Bank LineFields 5
deriving DecidableEq, Repr

/-- The fields of Read Axle Map (R74); `activeDecks`, the number N, and `decks` are present when the configuration is
valid. -/
structure AxleMapFields where
  certain : Bool
  cause : LossCause
  occupancy : Occupancy
  hiddenCount : Nat
  recoveryCount : Nat
  entered : Nat
  exitedCount : Nat
  entryComplete : Bool
  reversal : Bool
  activeDecks : Option Nat
  decks : Option (List (List Axle))
  exited : List Axle
deriving DecidableEq, Repr

/-- The state that List Transactions gives of an entry, OPEN or REWORK, without its rework reason (R122); `standing` is
the manual's OPEN. -/
inductive ListedState where
  | standing
  | rework
deriving DecidableEq, Repr

/-- One entry of List Transactions (R122). -/
structure TxListing where
  number : Nat
  kind : TxKind
  vehicle : Text
  state : ListedState
  stale : Bool
  gross : Int
deriving DecidableEq, Repr

/-- The fields of Read Metrology Status (R148); `idle` and `calibration` are present while a session is open. -/
structure MetroFields where
  status : StatusReasons
  valid : Bool
  counter : Nat
  checksum : BitVec 16
  switchCal : Bool
  idle : Option Nat
  calibration : Option (CalKind × Deck)
  newest : Option (Nat × Bool × Nat × Option Date)
  nextSeq : Nat
deriving DecidableEq, Repr

/-- The fields that an answer carries after its status, as the owning rule names them for that status (R168). -/
inductive Body where
  | none
  | linkError (cause : LinkCause) (kind : Byte)
  | identify (vendor part : Text) (protocol payload baud channels senses lines : Nat)
  | status (f : StatusFields)
  | channel (f : ChannelFields)
  | faultCapture (f : FaultCapture)
  | zeroSet (offsets : List (Deck × Int))
  | zeroRange (means centres : List (Deck × Int)) (range : Nat)
  | weight (f : WeightFields)
  | treadles (f : TreadleFields)
  | axleMap (f : AxleMapFields)
  | siteTables (classes : Bank ClassEntry 32) (limits : GroupLimits) (treadle : TreadleSettings)
  | operation (number : Nat)
  | transaction (e : OpenEntry)
  | transactions (held : Nat) (entries : List TxListing) (more : Bool)
  | storedTare (slot : Nat) (tare : StoredTare) (age : Option Int) (unusable : Option FallbackReason)
  | storedTares (held : Nat) (entries : List StoredTare) (more : Bool)
  | ticket (t : Ticket)
  | adjustmentOpened (counter : Nat) (valid fromDefaults : Bool)
  | staged (checksum : BitVec 16)
  | committed (counter : Nat) (checksum : BitVec 16)
  | incomplete (condition : IncompleteCondition)
  | metrology (f : MetroFields)
  | storedConfiguration (c : MetroConfig) (checksum : BitVec 16) (valid : Bool)
  | stagedConfiguration (c : MetroConfig) (checksum : BitVec 16)
  | trail (nextSeq : Nat) (entries : List TrailEntry) (more lost : Bool)
  | auditOpened (number counter : Nat) (checksum : BitVec 16) (minima : List (Deck × Nat))
  | stepIndex (index : Nat)
  | auditClosed (number : Nat) (passed : Bool) (reasons : AuditReasons) (due : Option Date)
  | auditRecord (r : AuditRecord) (counter held : Nat)
  | auditSession (number idle : Nat) (steps : List StepRecord) (flight : Option (StepKind × StepTarget × Nat × Nat))
      (counter held : Nat)
  | auditCounts (counter held : Nat)
  | calendarSet (value : DateTime) (weekday : Weekday)
  | calendar (value : Option (DateTime × Weekday)) (degraded : Bool) (source : CountSource) (crystalRunning : Bool)
      (earliest : Option Date)
deriving DecidableEq, Repr

/-- What a request is answered with: a status and its fields. -/
structure Reply where
  status : Status
  body : Body
deriving DecidableEq, Repr

/-- An answer in a slot: its kind byte and its reply (R168). -/
structure Answer where
  kind : Byte
  reply : Reply
deriving DecidableEq, Repr

/-- The frame that the transmitter is sending: the oldest answer, which keeps its slot, or a notice that has left the
queue (R168, R170). -/
inductive TxFrame where
  | answer
  | notice (n : Notice)
deriving DecidableEq, Repr

/-- The two baud rates that the strap selects (R167). -/
inductive Baud where
  | b19200
  | b115200
deriving DecidableEq, Repr

end Sys2Proof.Machine
end

