-- ==== Sys2Proof/Machine/Layout.lean ====
section
/-! DEFINITION. The layouts of 11.5 and 11.6: status bytes, notice codes, the capture result record, the ticket record,
and the serialization of the configuration with its checksum (R135). -/

namespace Sys2Proof.Machine

/-- One byte. -/
def u8 (n : Nat) : List Byte := leBytes 1 n

/-- A mass: in kg, signed, four bytes (11.6). -/
def massBytes (m : Int) : List Byte := signedBytes 4 m

/-- A stamp: year in two bytes, then one byte each (11.6). -/
def stampBytes (t : DateTime) : List Byte :=
  leBytes 2 t.date.year ++ u8 t.date.month ++ u8 t.date.day ++ u8 t.hour ++ u8 t.minute ++ u8 t.second

/-- A set of flags as a bit field, bit 0 first (11.6). -/
def bits : List Bool → Nat
  | [] => 0
  | b :: r => (if b then 1 else 0) + 2 * bits r

/-- A set of decks as bits 0 to 3 (11.6). -/
def deckBits (ds : List Deck) : Nat := bits (allDecks.map (ds.contains ·))

/-- The status byte (11.5). -/
def Status.byte : Status → Byte
  | ok => 0x00
  | accepted => 0x01
  | badRequest => 0x10
  | linkBusy => 0x11
  | linkError => 0x12
  | busy => 0x20
  | sessionOpen => 0x21
  | notReady => 0x22
  | deckDown => 0x23
  | bridgeOccupied => 0x24
  | motion => 0x25
  | range => 0x26
  | notTradeReady => 0x30
  | vehicleOpen => 0x31
  | tableFull => 0x32
  | storeFull => 0x33
  | storeFault => 0x34
  | noSuchTransaction => 0x40
  | noSuchEntry => 0x41
  | empty => 0x42
  | switchNotCal => 0x50
  | notInSession => 0x51
  | counterExhausted => 0x52
  | configIncomplete => 0x53
  | channelExcluded => 0x54
  | notExcluded => 0x60
  | stepLimit => 0x61
  | calendarUnset => 0x62
  | timeBeforeAudit => 0x63

/-- The notice code, which is the notice's bit of the mask (R171). -/
def Notice.code : Notice → Nat
  | scaleState .. => 0
  | channelState .. => 1
  | zeroState .. => 2
  | zeroRange .. => 3
  | zeroLimit .. => 4
  | axleCrossing .. => 5
  | treadleFault .. => 6
  | axleInconsistent .. => 7
  | occupancy .. => 8
  | operationState .. => 10
  | positionCaptured .. => 11
  | captureResult .. => 12
  | captureFailed .. => 13
  | lampState .. => 14
  | storeFault .. => 15
  | transactionStale .. => 16
  | tareExpired .. => 17
  | ticketReady .. => 18
  | storeWatermark => 19
  | switchState .. => 20
  | calibrationResult .. => 21
  | adjustAborted .. => 22
  | metrologyStatus .. => 23
  | stepFailedUnstable .. => 24
  | auditStepDone .. => 25
  | auditClosed .. => 26
  | auditAbandoned .. => 27
  | calendarSource .. => 28
  | storeFull => 29
  | calendarState .. => 30

/-- The mask with every assigned bit set: all but bits 9 and 31 (R171, R172). -/
def fullMask : BitVec 32 := 0x7FFFFDFF#32

/-! ## Enumerated bytes: the position in the list where the manual first gives the values (11.6) -/

def CaptureKind.byte : CaptureKind → Nat
  | first => 0
  | second => 1
  | singlePass => 2
  | tare => 3
  | axleCheck => 4

def TxKind.byte : TxKind → Nat
  | receival => 0
  | outturn => 1

def VehicleVerdict.byte : VehicleVerdict → Nat
  | incomplete => 0
  | overloaded => 1
  | compliant => 2

def Comparison.byte : Comparison → Nat
  | within => 0
  | overBy _ => 1
  | unresolved => 2

/-- The four bytes of a gross or component excess: the excess when OVER (R90). 11.6 keeps the field for the other
comparisons and gives it no value there: the model's choice is 0 (log 52). -/
def Comparison.excess : Comparison → Int
  | overBy x => x
  | within => 0
  | unresolved => 0

def GroupType.byte : GroupType → Nat
  | steerSingle => 0
  | steerTwin => 1
  | single => 2
  | tandem => 3
  | tridem => 4
  | quad => 5

def GroupVerdict.byte : GroupVerdict → Nat
  | unresolved => 0
  | uncertain => 1
  | overBy _ => 2
  | within => 3

/-- The four bytes of a group excess: the excess when OVER (R90). 11.6 keeps the field for the other verdicts and gives
it no value there: the model's choice is 0 (log 52). -/
def GroupVerdict.excess : GroupVerdict → Int
  | overBy x => x
  | unresolved => 0
  | uncertain => 0
  | within => 0

def ComponentStatus.byte : ComponentStatus → Nat
  | unresolved => 0
  | combined => 1
  | single => 2

def FallbackReason.byte : FallbackReason → Nat
  | tareUndated => 0
  | tareAged => 1
  | tareCounter => 2
  | noTare => 3

/-! ## Sets -/

/-- The status reasons as the R147 list. -/
def StatusReasons.list (r : StatusReasons) : List Bool :=
  [r.uncalibrated, r.adjusting, r.auditRequired, r.auditFailed, r.auditOverdue, r.timeUnset]

/-- The incomplete reasons as the R89 list. -/
def IncompleteReasons.list (r : IncompleteReasons) : List Bool :=
  [r.mapUncertain, r.tooManyGroups, r.deckLoadWithoutAxle, r.groupUnresolved, r.groupUncertain, r.classMismatch]

/-- The not-for-trade reasons, bits 0 to 11 of the ticket's reason set (11.6). -/
def TradeReasons.list (r : TradeReasons) : List Bool :=
  r.status.list ++ [r.mixedCalibration, r.composite, r.substituted, r.overMax, r.belowMin, r.reversed]

/-! ## The capture result record -/

/-- One group entry, 18 bytes. -/
def GroupEntry.bytes (g : GroupEntry) : List Byte :=
  u8 g.number ++ u8 g.firstAxle ++ u8 g.lastAxle ++ u8 g.axleCount ++ u8 g.type.byte ++ leBytes 2 g.limit ++
    u8 (g.component.getD 0) ++ massBytes (g.mass.getD 0) ++ u8 g.verdict.byte ++ massBytes g.verdict.excess ++
    u8 (bits [g.straddled, g.uncertainBoundary, g.substituted, g.mass.isSome])

/-- One component entry, 20 bytes. -/
def ComponentEntry.bytes (c : ComponentEntry) : List Byte :=
  u8 c.number ++ u8 (deckBits c.decks) ++ u8 c.firstGroup ++ u8 c.lastGroup ++ u8 c.status.byte ++
    massBytes c.mass ++ massBytes (c.limit.getD 0) ++ u8 c.comparison.byte ++ massBytes c.comparison.excess ++
    [flagByte c.substituted] ++ u8 c.position

/-- The group count and the group entries. -/
def groupListBytes (gs : List GroupEntry) : List Byte := u8 gs.length ++ gs.flatMap GroupEntry.bytes

/-- The verdict record within the capture result. -/
def Verdict.bytes (v : Verdict) : List Byte :=
  u8 v.vehicle.byte ++ u8 (bits v.reasons.list) ++ u8 v.cls ++ leBytes 4 v.grossLimit ++ u8 v.maxAxles ++
    u8 v.entered ++ massBytes v.gross ++ u8 v.grossComparison.byte ++ massBytes v.grossComparison.excess ++
    u8 (deckBits v.deckLoads) ++ groupListBytes v.groups ++
    u8 v.components.length ++ v.components.flatMap ComponentEntry.bytes

/-- The completion outcome's byte, its two numbers, its reasons and the displaced vehicle. -/
def Completion.bytes : Completion → List Byte
  | checked => u8 0 ++ leBytes 4 0 ++ leBytes 4 0 ++ leBytes 2 0 ++ optBytes none
  | opened tx => u8 1 ++ leBytes 4 tx ++ leBytes 4 0 ++ leBytes 2 0 ++ optBytes none
  | ticketIssued t tx => u8 2 ++ leBytes 4 t ++ leBytes 4 tx ++ leBytes 2 0 ++ optBytes none
  | rework tx .overloaded => u8 3 ++ leBytes 4 tx ++ leBytes 4 0 ++ leBytes 2 0x8000 ++ optBytes none
  | rework tx (.incomplete r) => u8 3 ++ leBytes 4 tx ++ leBytes 4 0 ++ leBytes 2 (bits r.list) ++ optBytes none
  | fallbackTwoPass tx r => u8 4 ++ leBytes 4 tx ++ leBytes 4 0 ++ leBytes 2 r.byte ++ optBytes none
  | tareStored slot d => u8 5 ++ leBytes 4 slot ++ leBytes 4 0 ++ leBytes 2 0 ++ optBytes (d.map textBytes)
  | tareNotStored r => u8 6 ++ leBytes 4 0 ++ leBytes 4 0 ++ leBytes 2 (bits r.list) ++ optBytes none

/-- The capture result record: the payload of CAPTURE_RESULT after the notice code (11.6). -/
def CaptureResult.bytes (r : CaptureResult) : List Byte :=
  leBytes 2 r.operation ++ u8 r.request.kind.byte ++ textBytes r.request.vehicle ++ u8 r.request.cls ++
    u8 ((r.request.txKind.map TxKind.byte).getD 0xFF) ++ leBytes 2 r.request.commodity ++
    optBytes (r.request.grade.map textBytes) ++ leBytes 4 r.request.txNumber ++
    u8 (bits [r.request.allowComposite, r.request.acceptIncomplete]) ++ massBytes r.gross ++
    u8 r.deckMeans.length ++ r.deckMeans.flatMap massBytes ++
    u8 (bits [r.flags.overMax, r.flags.belowMin, r.flags.substituted, r.flags.composite, r.flags.degraded]) ++
    u8 r.flags.positions ++ optBytes (r.stamp.map stampBytes) ++ u8 (bits r.status.list) ++ leBytes 2 r.counter ++
    leBytes 2 r.checksum.toNat ++ r.verdict.bytes ++ r.outcome.bytes

/-! ## The ticket record -/

/-- The stamp of a ticket's weighing. The time of day of a stored tare's stamp is a free value (log 21). -/
def WeighingStamp.bytes : WeighingStamp → List Byte
  | absent => optBytes none
  | stamp t => optBytes (some (stampBytes t))
  | tareDate d =>
    let (h, m, s) := Config.tareTimeOfDay d.year d.month d.day
    optBytes (some (leBytes 2 d.year ++ u8 d.month ++ u8 d.day ++ [h, m, s]))

/-- One weighing of a ticket. -/
def TicketWeighing.bytes (w : TicketWeighing) : List Byte := massBytes w.gross ++ w.stamp.bytes ++ leBytes 2 w.counter

def TareSource.byte : TareSource → Nat
  | weighed => 0
  | stored => 1

/-- The ticket record: the payload of Fetch Ticket after the status (11.6). -/
def Ticket.bytes (t : Ticket) : List Byte :=
  leBytes 4 t.number ++ leBytes 4 t.tx ++ u8 t.kind.byte ++ textBytes t.vehicle ++ u8 t.cls ++ leBytes 2 t.commodity ++
    optBytes (t.grade.map textBytes) ++ t.first.bytes ++ t.second.bytes ++ u8 t.tareSource.byte ++ massBytes t.net ++
    leBytes 2 (bits t.reasons.list) ++ u8 (bits [t.stale, t.degraded]) ++ u8 t.verdict.byte ++
    u8 (bits t.incomplete.list) ++ groupListBytes t.groups ++ leBytes 2 t.counter ++ leBytes 2 t.checksum.toNat

/-! ## The checksum serialization -/

/-- One channel of the CHANNEL group: deck (0 for UNUSED), zero count and gain. -/
def channelBytes (c : ChannelParams) : List Byte :=
  u8 ((c.deck.map fun d => d.val + 1).getD 0) ++ signedBytes 3 c.zero ++ leBytes 3 c.gain

/-- One deck of the LINEARITY group: point count and four point slots, unused slots zero. -/
def linearityBytes (ps : List LinPoint) : List Byte :=
  u8 ps.length ++ ps.flatMap (fun p => leBytes 4 p.load ++ signedBytes 4 p.correction) ++
    List.replicate (8 * (4 - ps.length)) 0

/-- One profile of the PROFILE group: segment count, eight segment slots, offset. -/
def profileBytes (p : Profile) : List Byte :=
  u8 p.segments.length ++ p.segments.flatMap (fun (c, l) => u8 c ++ u8 l) ++
    List.replicate (2 * (8 - p.segments.length)) 0 ++ signedBytes 1 p.offset

/-- The SCALE group. -/
def scaleBytes (c : MetroConfig) : List Byte := leBytes 4 c.maxKg ++ u8 c.eKg

/-- The WINDOW group. -/
def windowBytes (c : MetroConfig) : List Byte := u8 c.window ++ [flagByte c.zeroTracking] ++ u8 c.warmupCode

/-- The MPE group: band count and four band slots. -/
def mpeBytes (bands : List (Nat × Nat)) : List Byte :=
  u8 bands.length ++ bands.flatMap (fun (b, m) => leBytes 2 b ++ u8 m) ++ List.replicate (3 * (4 - bands.length)) 0

/-- The AUDIT group. -/
def auditBytes (c : MetroConfig) : List Byte :=
  leBytes 2 c.auditInterval ++ c.minTestLoad.cells.flatMap (leBytes 4)

/-- The canonical serialization of a configuration (R135, 11.6). -/
def configBytes (c : MetroConfig) : List Byte :=
  c.channels.cells.flatMap channelBytes ++ c.linearity.cells.flatMap linearityBytes ++ scaleBytes c ++
    profileBytes c.profile1 ++ profileBytes c.profile2 ++ windowBytes c ++ mpeBytes c.mpe ++ auditBytes c

/-- The configuration checksum (R135). -/
def configChecksum (c : MetroConfig) : BitVec 16 := crc16 (configBytes c)

/-! ## Frames of answers and notices -/

/-- The payload of an answer whose layout the manual gives, with its leading status byte (R168): an answer without
further fields, a LINK_ERROR, a ticket. Other answers are described by their named fields only (log 20). -/
def Reply.payload? (r : Reply) : Option (List Byte) :=
  match r.body with
  | .none => some [r.status.byte]
  | .linkError cause kind => some [r.status.byte, match cause with | .crc => 0 | .length => 1, kind]
  | .ticket t => some (r.status.byte :: t.bytes)
  | .operation n => some (r.status.byte :: leBytes 2 n)
  | _ => none

/-- The whole frame of such an answer (R167, R168). -/
def Answer.frame? (a : Answer) : Option (List Byte) := a.reply.payload?.map (frameBytes a.kind)

/-! ### Notices (R171)

A notice's payload is its code and then the fields that its rule lists, encoded as 11.6 lays down. A whole number takes
the size that a layout of the manual gives the same quantity; where none does, its size is the free value
`Config.noticeWidth` (log 22). -/

def ScaleState.byte : ScaleState → Nat
  | warmup => 0
  | run => 1
  | standby => 2

def Health.byte : Health → Nat
  | good => 0
  | watch => 1
  | excluded => 2
  | recovering => 3

def ExclusionCause.byte : ExclusionCause → Nat
  | automatic => 0
  | manual => 1

def ZeroState.byte : ZeroState → Nat
  | pending => 0
  | set => 1

def Direction.byte : Direction → Nat
  | forward => 0
  | backward => 1

def elementByte : Element → Nat
  | .a => 0
  | .b => 1

/-- CERTAIN 0, UNCERTAIN 1. -/
def certaintyByte (certain : Bool) : Nat := if certain then 0 else 1

/-- The kind, by its place among the fault codes NONE, SINGLE_ELEMENT, PHANTOM, NO_NEW (log 22). -/
def TreadleFault.byte : TreadleFault → Nat
  | singleElement _ => 1
  | phantom => 2

/-- The element that opened the pairing, for SINGLE_ELEMENT (R60). -/
def TreadleFault.opener? : TreadleFault → Option Element
  | singleElement x => some x
  | phantom => none

/-- The cause, by its place in the table of R68. -/
def LossCause.byte : LossCause → Nat
  | phantom => 0
  | singleElement => 1
  | secondVehicle => 2
  | overflow => 3
  | hiddenLoad => 4
  | configuration => 5
  | reset => 6

def Occupancy.byte : Occupancy → Nat
  | empty => 0
  | part => 1
  | whole => 2

def OpState.byte : OpState → Nat
  | awaitingVehicle => 0
  | settling => 1
  | positionWait => 2

def OpMode.byte : OpMode → Nat
  | whole => 0
  | composite => 1

/-- The reason, by its place in the table of R104, where OVERLOAD stands before UNDERLOAD. -/
def FailReason.byte : FailReason → Nat
  | unstableTimeout => 0
  | overload => 1
  | underload => 2
  | deckDown => 3
  | twoVehicles => 4
  | mapUncertain => 5
  | compositeIncomplete => 6
  | positionLimit => 7
  | cancelled => 8
  | storeFault => 9

def Lamp.byte : Lamp → Nat
  | red => 0
  | green => 1

/-- The write, by its place in the table of R112. -/
def StoreWrite.byte : StoreWrite → Nat
  | openEntry => 0
  | rework => 1
  | issue => 2
  | tare => 3
  | stale => 4
  | removal => 5
  | commit => 6
  | auditClose => 7
  | calendarSet => 8

/-- The kind, by its place among the three requests of R139. -/
def CalKind.byte : CalKind → Nat
  | zero => 0
  | span => 1
  | linearity => 2

/-- The outcome, by its place in the list of R139: OK, CAL_UNSTABLE, CHANNEL_EXCLUDED, RANGE, TABLE_FULL. -/
def CalOutcome.byte : CalOutcome → Nat
  | zeroOk _ => 0
  | spanOk .. => 0
  | linearityOk .. => 0
  | calUnstable => 1
  | channelExcluded => 2
  | spanRange _ => 3
  | linearityRange .. => 3
  | tableFull .. => 4

def AbortCause.byte : AbortCause → Nat
  | switch => 0
  | idle => 1

def AbandonCause.byte : AbandonCause → Nat
  | request => 0
  | idle => 1

def StepKind.byte : StepKind → Nat
  | load => 0
  | again => 1
  | zero => 2

/-- The target: 0 for BRIDGE, the number of a deck otherwise (R169). -/
def StepTarget.byte : StepTarget → Nat
  | bridge => 0
  | deck d => d.val + 1

def CountSource.byte : CountSource → Nat
  | crystal => 0
  | main => 1

/-- PASS 0, FAIL 1. -/
def passByte (passed : Bool) : Nat := if passed then 0 else 1

/-- The number of a deck, in one byte. -/
def deckNumberByte (d : Deck) : List Byte := u8 (d.val + 1)

/-- The number of a channel, in one byte (R169). -/
def channelNumberByte (i : Chan) : List Byte := u8 (i.val + 1)

/-- A date, as the first three fields of a stamp. -/
def dateBytes (d : Date) : List Byte := leBytes 2 d.year ++ u8 d.month ++ u8 d.day

/-- A whole number, not negative, whose size the manual does not give: field `field` of notice `code` (log 22). -/
def openNat (code field n : Nat) : List Byte := leBytes (Config.noticeWidth code field) n

/-- A signed number whose size the manual does not give (log 22). -/
def openInt (code field : Nat) (x : Int) : List Byte := signedBytes (Config.noticeWidth code field) x

/-- A value of every active deck: the deck count, then the values in deck order, as the deck means of 11.6. -/
def deckValues (code field : Nat) (xs : List (Deck × Int)) : List Byte :=
  u8 xs.length ++ xs.flatMap fun x => openInt code field x.2

/-- A linearity table: its point count and its points, as in the checksum serialization. -/
def tableBytes (ps : List LinPoint) : List Byte :=
  u8 ps.length ++ ps.flatMap fun p => leBytes 4 p.load ++ signedBytes 4 p.correction

/-- The values that the rule of a calibration outcome names (R140 to R142). For RANGE of a span one presence byte stands
before S and the factor together: both are present or neither is (log 22). -/
def CalOutcome.bytes (code : Nat) : CalOutcome → List Byte
  | zeroOk zeros => openNat code 3 zeros.length ++ zeros.flatMap fun z => channelNumberByte z.1 ++ signedBytes 3 z.2
  | spanOk s factor gains =>
    openInt code 3 s ++ openInt code 4 factor ++
      openNat code 5 gains.length ++ gains.flatMap fun g => channelNumberByte g.1 ++ leBytes 3 g.2
  | spanRange values => optBytes (values.map fun v => openInt code 3 v.1 ++ openInt code 4 v.2)
  | linearityOk x c table => openInt code 3 x ++ openInt code 4 c ++ tableBytes table
  | linearityRange x c table => openInt code 3 x ++ openInt code 4 c ++ tableBytes table
  | tableFull x c table => openInt code 3 x ++ openInt code 4 c ++ tableBytes table
  | calUnstable => []
  | channelExcluded => []

/-- A step record (R154). -/
def StepRecord.bytes (code : Nat) (r : StepRecord) : List Byte :=
  u8 r.index ++ u8 r.kind.byte ++ u8 r.target.byte ++ leBytes 4 r.load ++ optBytes (r.refIndex.map u8) ++
    openInt code 5 r.indication ++ openInt code 6 r.reportedError ++ openNat code 7 r.mpe ++ u8 r.mpeQuarters ++
    optBytes (r.difference.map (openInt code 8)) ++ [flagByte r.substituted] ++ u8 (passByte r.passed) ++
    optBytes (r.stamp.map stampBytes)

/-- The reasons of a FAIL: the set of R155, and the decks that COVERAGE names. The decks are a bit field, deck 1 in bit 0,
and no counted list; both bytes stand on a PASS too, and are then 0 (log 22). -/
def AuditReasons.bytes (r : AuditReasons) : List Byte :=
  u8 (bits [r.stepFailed, r.coverage != [], r.noFinalZero]) ++ u8 (deckBits r.coverage)

/-- The fields of a notice, in the order in which the rule raising it lists them (R171). -/
def Notice.fields : Notice → List Byte
  | scaleState new old => u8 new.byte ++ u8 old.byte
  | channelState i new old cause n =>
    channelNumberByte i ++ u8 new.byte ++ u8 old.byte ++ optBytes (cause.map fun c => u8 c.byte) ++ openNat 1 4 n.toNat
  | zeroState new offsets =>
    u8 new.byte ++ optBytes (if new = .set then some (deckValues 2 1 offsets) else none)
  | zeroRange means range => deckValues 3 0 means ++ openNat 3 1 range
  | zeroLimit d offset initial => deckNumberByte d ++ openInt 4 1 offset ++ openInt 4 2 initial
  | axleCrossing line dir speed axle certain =>
    openNat 5 0 line.val ++ u8 dir.byte ++ optBytes (speed.map (openNat 5 2)) ++ optBytes (axle.map u8) ++
      u8 (certaintyByte certain)
  | treadleFault line kind => openNat 6 0 line.val ++ u8 kind.byte ++ optBytes (kind.opener?.map fun x => u8 (elementByte x))
  | axleInconsistent cause line => u8 cause.byte ++ optBytes (line.map fun k => openNat 7 1 k.val)
  | occupancy new certain old => u8 new.byte ++ u8 (certaintyByte certain) ++ u8 old.byte
  | operationState n st mode positions => leBytes 2 n ++ u8 st.byte ++ u8 mode.byte ++ u8 positions
  | positionCaptured n position groups =>
    leBytes 2 n ++ u8 position ++ u8 groups.length ++ groups.flatMap fun g => u8 g.1 ++ u8 g.2
  | captureResult r => r.bytes
  | captureFailed n kind reason positions => leBytes 2 n ++ u8 kind.byte ++ u8 reason.byte ++ u8 positions
  | lampState entry exit => u8 entry.byte ++ u8 exit.byte
  | storeFault w => u8 w.byte
  | transactionStale n vehicle => leBytes 4 n ++ textBytes vehicle
  | tareExpired vehicle date => textBytes vehicle ++ dateBytes date
  | ticketReady n stored => leBytes 4 n ++ openNat 18 1 stored
  | storeWatermark => []
  | switchState cal => u8 (if cal then 0 else 1)
  | calibrationResult kind d outcome =>
    u8 kind.byte ++ deckNumberByte d ++ u8 outcome.byte ++ outcome.bytes 21
  | adjustAborted cause => u8 cause.byte
  | metrologyStatus new old => u8 (bits new.list) ++ u8 (bits old.list)
  | stepFailedUnstable kind target load => u8 kind.byte ++ u8 target.byte ++ leBytes 4 load
  | auditStepDone step => step.bytes 25
  | auditClosed n passed reasons due =>
    leBytes 4 n ++ u8 (passByte passed) ++ reasons.bytes ++ optBytes (due.map dateBytes)
  | auditAbandoned cause => u8 cause.byte
  | calendarSource source degraded => u8 source.byte ++ [flagByte degraded]
  | storeFull => []
  | calendarState running => u8 (if running then 1 else 0)

/-- The payload of a notice: its code, then its fields (R171). -/
def Notice.payload (n : Notice) : List Byte := u8 n.code ++ n.fields

/-- The whole frame of a notice, of kind 0x7F (R171). -/
def Notice.frame (n : Notice) : List Byte := frameBytes 0x7F n.payload

/-- The whole frame of a CAPTURE_RESULT notice (R171, 11.6). -/
def captureResultFrame (r : CaptureResult) : List Byte := (Notice.captureResult r).frame

end Sys2Proof.Machine
end

