-- ==== Sys2Proof/Machine/Defaults.lean ====
section
/-! DEFINITION. The values of a part never written, and of each block after a reset, as the chapters state them. -/

namespace Sys2Proof.Machine

/-- The default configuration (R134). -/
def defaultConfig : MetroConfig where
  channels := Bank.fill 16 { deck := none, zero := 0, gain := 1048576 }
  linearity := Bank.fill 4 []
  maxKg := 60000
  eKg := 20
  profile1 := { segments := [(0, 4)], offset := 0 }
  profile2 := { segments := [(0, 4)], offset := 0 }
  window := 25
  zeroTracking := true
  warmupCode := 1
  mpe := [(500, 2), (2000, 4), (10000, 6)]
  auditInterval := 365
  minTestLoad := Bank.fill 4 10000

/-- The treadle settings of a part never written (R57). -/
def defaultTreadle : TreadleSettings := { separation := 300, filterTime := 8, groupGap := 250 }

/-- The group limits of a part never written (R76). -/
def defaultLimits : GroupLimits :=
  { steerSingle := 6500, steerTwin := 11000, single := 9000, tandem := 16500, tridem := 20000, quad := 23000 }

/-- A class table entry of a part never written (R77). -/
def defaultClass : ClassEntry := { inUse := false, grossLimit := 42500, maxAxles := 24, profile := .one }

/-- The ticket settings of a part never written (R132). -/
def defaultTicketSettings : TicketSettings := { watermark := 24, tareValidity := 90, staleness := 72 }

/-- A channel after any reset (R39). Until the first sample event since the reset it counts as not evaluated, which R36
leaves open (log 42). -/
def resetChannel : Channel where
  raw := none
  prev := none
  lastGood := none
  stuckRun := 0
  counter := 0
  cleanRun := 0
  health := .good
  cause := none
  recovery := 0
  lastCode := .none
  evaluated := false

/-- The spike limit after every reset (R30). -/
def resetSpikeLimit : Nat := 100000

/-- The capture timeout after every reset, in s (R96). -/
def resetTimeout : Nat := 45

/-- No stability decision stands (R45). -/
def notStable : Decisions := { profile1 := false, profile2 := false, zeroBand := false }

/-- The warm-up length of a warm-up code, in sample events (R22). -/
def warmupSamples : Nat → Nat
  | 0 => 100
  | 1 => 250
  | 2 => 500
  | _ => 1000

/-- The warm-up length fixed at entry to WARMUP: by the stored code, or that of code 3 when the configuration is not
valid (R22). -/
def warmupLength (valid : Bool) (c : MetroConfig) : Nat := if valid then warmupSamples c.warmupCode else warmupSamples 3

end Sys2Proof.Machine
end

