-- ==== Sys2Proof/Machine/State.lean ====
section
/-! DEFINITION. The state of the block, block by block (00_scope.md, Block overview), its faults and refusals, and the
state after reset. Plain data. -/

namespace Sys2Proof.Machine

/-- The reasons for which the machine stops. The manual names none: every request is answered and every event has its
effect (log 32), so the type has no member and no step faults. Safe. -/
inductive Fault where
deriving DecidableEq, Repr

/-- The reasons for which a command is refused. -/
inductive Refusal where
  /-- Raised by an arm of `exec` whose command has no meaning yet; no arm raises it. Safe: the machine stops. -/
  | notModelled (mnemonic : String)
deriving DecidableEq, Repr

/-- The link port (R167 to R176). `slots` holds the two answer slots, oldest first; `tx` is the frame in the
transmitter. -/
structure Link where
  rxBuffer : List Byte
  slots : List Answer
  tx : Option TxFrame
  queue : List Notice
  mask : BitVec 32
  noticeLoss : Bool
  baud : Baud
deriving DecidableEq, Repr

/-- The acquisition unit (R22 to R39). `assign` is the health assignment in force: a change of its cause takes effect at
the next sample event (R26). -/
structure Acq where
  channels : Bank Channel 16
  assign : Bank (Option Deck) 16
  faultCapture : Option FaultCapture
  sampleNumber : BitVec 32
  spikeLimit : Nat
  scale : ScaleState
  warmCount : Nat
  warmLength : Nat
  excitation : Bool
deriving DecidableEq, Repr

/-- The zero and motion unit (R40 to R56). -/
structure ZeroMotion where
  zeroState : ZeroState
  offset : Bank Int 4
  initial : Bank Int 4
  halt : Bank Bool 4
  rangeReported : Bool
  trackCount : Nat
  clock : Nat
  window : List WindowEntry
  latest : Option LatestResult
  decisions : Decisions
deriving DecidableEq, Repr

/-- The axle map unit (R57 to R75). -/
structure AxleMap where
  timeBase : Nat
  lines : Bank TreadleLine 5
  loopEntry : Bool
  loopExit : Bool
  decks : Bank (List Axle) 4
  exited : List Axle
  entered : Nat
  exitedCount : Nat
  entryComplete : Bool
  reversal : Bool
  certain : Bool
  cause : LossCause
  hiddenCount : Nat
  recoveryCount : Nat
  occupancy : Occupancy
deriving DecidableEq, Repr

/-- The settings area: the site settings of every block (R57, R76, R77, R132, R172). -/
structure Site where
  treadle : TreadleSettings
  limits : GroupLimits
  classes : Bank ClassEntry 32
  ticket : TicketSettings
  defaultMask : BitVec 32
deriving DecidableEq, Repr

/-- The capture controller (R93 to R111). -/
structure Capture where
  slot : Slot
  opCounter : Nat
  timeout : Nat
  entryLamp : Lamp
  exitLamp : Lamp
  reworkHold : Bool
deriving DecidableEq, Repr

/-- The record store (R112), nonvolatile: the records of the transaction manager, the metrology unit and the audit
unit. -/
structure Store where
  entries : List OpenEntry
  tares : Bank (Option StoredTare) 128
  tickets : List Ticket
  txCounter : Nat
  ticketCounter : Nat
  config : MetroConfig
  checksum : BitVec 16
  eventCounter : Nat
  trail : List TrailEntry
  nextSeq : Nat
  audits : List AuditRecord
  auditCounter : Nat
deriving DecidableEq, Repr

/-- What the transaction manager holds outside the record store (R114, R130). -/
structure TxManager where
  reserved : Nat
  storeFault : Bool
deriving DecidableEq, Repr

/-- What the metrology unit holds outside the record store (R135, R136, R147). -/
structure Metro where
  valid : Bool
  switchCal : Bool
  status : StatusReasons
deriving DecidableEq, Repr

/-- The calendar (R160 to R166). Its state is RUNNING when it holds a value and UNSET when it holds none. -/
structure Calendar where
  value : Option DateTime
  subSecond : Nat
  source : CountSource
  crystalRunning : Bool
  runCount : Nat
  stopRecord : Bool
  degraded : Bool
deriving DecidableEq, Repr

/-- The whole block. `pending` is the model's own queue of commands; `mainSupply` says whether the main supply is
present (R162). -/
structure State where
  pending : List Instr
  mainSupply : Bool
  link : Link
  acq : Acq
  zm : ZeroMotion
  axle : AxleMap
  site : Site
  cap : Capture
  store : Store
  tm : TxManager
  metro : Metro
  cal : Calendar
deriving DecidableEq, Repr

namespace State

/-! One named update per part of the state. -/

def setPending (s : State) (x : List Instr) : State := { s with pending := x }
def setMainSupply (s : State) (x : Bool) : State := { s with mainSupply := x }
def setLink (s : State) (x : Link) : State := { s with link := x }
def setAcq (s : State) (x : Acq) : State := { s with acq := x }
def setZm (s : State) (x : ZeroMotion) : State := { s with zm := x }
def setAxle (s : State) (x : AxleMap) : State := { s with axle := x }
def setSite (s : State) (x : Site) : State := { s with site := x }
def setCap (s : State) (x : Capture) : State := { s with cap := x }
def setStore (s : State) (x : Store) : State := { s with store := x }
def setTm (s : State) (x : TxManager) : State := { s with tm := x }
def setMetro (s : State) (x : Metro) : State := { s with metro := x }
def setCal (s : State) (x : Calendar) : State := { s with cal := x }

/-- The machine right after reset: the cold start of a part never written, with every input at rest (logs 8 and 9). -/
def reset : State where
  pending := []
  mainSupply := true
  link :=
    { rxBuffer := [], slots := [], tx := none, queue := [], mask := fullMask, noticeLoss := false, baud := .b19200 }
  acq :=
    { channels := Bank.fill 16 resetChannel, assign := Bank.fill 16 none, faultCapture := none, sampleNumber := 0,
      spikeLimit := resetSpikeLimit, scale := .warmup, warmCount := 0, warmLength := 1000, excitation := true }
  zm :=
    { zeroState := .pending, offset := Bank.fill 4 0, initial := Bank.fill 4 0, halt := Bank.fill 4 false,
      rangeReported := false, trackCount := 0, clock := 0, window := [], latest := none, decisions := notStable }
  axle :=
    { timeBase := 0, lines := Bank.fill 5 { levelA := false, levelB := false, pairing := .idle, code := .none },
      loopEntry := false, loopExit := false, decks := Bank.fill 4 [], exited := [], entered := 0, exitedCount := 0,
      entryComplete := false, reversal := false, certain := false, cause := .reset, hiddenCount := 0,
      recoveryCount := 0, occupancy := .part }
  site :=
    { treadle := defaultTreadle, limits := defaultLimits, classes := Bank.fill 32 defaultClass,
      ticket := defaultTicketSettings, defaultMask := fullMask }
  cap :=
    { slot := .free, opCounter := 0, timeout := resetTimeout, entryLamp := .red, exitLamp := .red,
      reworkHold := false }
  store :=
    { entries := [], tares := Bank.fill 128 none, tickets := [], txCounter := 0, ticketCounter := 0,
      config := defaultConfig, checksum := configChecksum defaultConfig, eventCounter := 0, trail := [], nextSeq := 1,
      audits := [], auditCounter := 0 }
  tm := { reserved := 0, storeFault := false }
  metro :=
    { valid := false, switchCal := false,
      status := { uncalibrated := true, adjusting := false, auditRequired := true, auditFailed := false,
                  auditOverdue := false, timeUnset := true } }
  cal :=
    { value := none, subSecond := 0, source := .main, crystalRunning := false, runCount := 0, stopRecord := false,
      degraded := false }

end State

end Sys2Proof.Machine
end

