-- ==== Sys2Proof/Machine/Flags.lean ====
section
/-! DEFINITION. What is derived from the state: the newest audit record, the metrology status reasons (R147), the
health assignment (R26), the decoded lines (R59), occupancy (R73) and the entry lamp (R108). -/

namespace Sys2Proof.Machine

/-- The newest audit record, when one is held (R156). -/
def Store.newestAudit (st : Store) : Option AuditRecord := st.audits.getLast?

/-- An entry of the trail has taken the last sequence number (R146). -/
def Store.trailExhausted (st : Store) : Bool := st.trail.any fun e => e.seq == 4294967295

/-- The current date is after the record's due date, both normalized (R147). -/
def overdue (due : Option Date) (now : Option DateTime) : Bool :=
  match due, now with
  | some d, some t => decide (d.dayNumber < t.date.dayNumber)
  | _, _ => false

/-- The metrology status reasons that apply (R147). -/
def statusReasons (valid adjusting : Bool) (st : Store) (now : Option DateTime) : StatusReasons :=
  let current := match st.newestAudit with
    | none => none
    | some r => if r.counter = st.eventCounter then some r else none
  { uncalibrated := !valid
    adjusting := adjusting
    auditRequired := current.isNone
    auditFailed := match current with
      | some r => !r.passed
      | none => false
    auditOverdue := match current with
      | some r => r.passed && overdue r.due now
      | none => false
    timeUnset := now.isNone }

/-- TRADE_READY: no reason applies (R147). -/
def StatusReasons.tradeReady (r : StatusReasons) : Bool := r.list.all (!·)

/-- The slot holds an adjustment session (R93). -/
def Slot.isAdjustment : Slot → Bool
  | free => false
  | capture _ => false
  | adjustment _ => true
  | audit _ => false

/-- The slot holds a session: an adjustment or an audit (R93). -/
def Slot.isSession : Slot → Bool
  | free => false
  | capture _ => false
  | adjustment _ => true
  | audit _ => true

/-- The deck that a channel has in the live assignment: that of the stored configuration while it is valid (R3, R5). -/
def State.liveAssign (s : State) (i : Chan) : Option Deck :=
  if s.metro.valid then s.store.config.assign i else none

/-- The health assignment that the next sample event puts in force: the staged copy's while an adjustment session is
open, the stored one while the configuration is valid, otherwise none (R26, R137, R138, R145). -/
def State.assignmentDue (s : State) (i : Chan) : Option Deck :=
  match s.cap.slot with
  | .adjustment sess => sess.staged.assign i
  | .free => s.liveAssign i
  | .capture _ => s.liveAssign i
  | .audit _ => s.liveAssign i

/-- The health assignment in force: the one that the latest sample event put in force (R26, log 25). -/
def State.healthAssign (s : State) (i : Chan) : Option Deck := s.acq.assign.get i

/-- The channel is one of some deck's channels, by the health assignment in force (R33, log 25) or by the live assignment
(R5, log 49). -/
def State.onDeck (s : State) (i : Chan) : Bool := (s.healthAssign i).isSome || (s.liveAssign i).isSome

/-- A line is decoded when the configuration is valid and its number is at most N (R59). -/
def State.decoded (s : State) (line : LineNo) : Bool :=
  s.metro.valid && decide (line.val ≤ s.store.config.deckCount)

/-- The map is empty: every deck list is empty (R64). -/
def AxleMap.isEmpty (m : AxleMap) : Bool := allDecks.all fun d => (m.decks.get d).isEmpty

/-- Both vehicle loops are clear. -/
def AxleMap.loopsClear (m : AxleMap) : Bool := !m.loopEntry && !m.loopExit

/-- Occupancy, by the map's certainty, the loops and the latest sample result (R73). -/
def occupancyOf (m : AxleMap) (latest : Option LatestResult) (eHg : Nat) : Occupancy :=
  if m.certain then
    if m.isEmpty && m.loopsClear then .empty
    else if !m.isEmpty && m.loopsClear && m.entryComplete then .whole
    else .part
  else if !m.loopsClear then .part
  else match latest with
    | some { result := .value _ t _ _, .. } => if 20 * eHg < t.natAbs then .whole else .empty
    | some { result := .deckDown _, .. } => .part
    | some { result := .uncalibrated, .. } => .part
    | some { result := .scaleNotRunning, .. } => .part
    | none => .part

/-- The inputs of the entry lamp (R108): occupancy, scale state, zero state, validity, session, REWORK hold. -/
def State.lampInputs (s : State) : Occupancy × ScaleState × ZeroState × Bool × Bool × Bool :=
  (s.axle.occupancy, s.acq.scale, s.zm.zeroState, s.metro.valid, s.cap.slot.isSession, s.cap.reworkHold)

/-- The entry lamp that its inputs give (R108). -/
def State.entryLampOf (s : State) : Lamp :=
  if s.axle.occupancy = .empty ∧ s.acq.scale = .run ∧ s.zm.zeroState = .set ∧ s.metro.valid = true ∧
      s.cap.slot.isSession = false ∧ s.cap.reworkHold = false then .green
  else .red

end Sys2Proof.Machine
end

