-- ==== Sys2Proof/Machine/Ops.lean ====
section
/-! DEFINITION. The named operations every command is built from: an event in progress with the notices it raises, the
link port's hand-over and transmission (R168, R170, R171), the restart of the window (R43), the store write (R112), the
lamps (R108, R109), the recomputed status (R147), and the frames around an event and a request. -/

namespace Sys2Proof.Machine

/-- What a sample event found on its way: the counts that reached their limits. The rows of the table that name such a
count are the sample events that find it (log 4). -/
inductive Mark where
  | stuck (ch : Chan)
  | cleanHalfSecond (ch : Chan)
  | recoveryComplete (ch : Chan)
  | trackingStep
  | hiddenLoad
  | mapRecovery
  | unstableTimeout
  | calUnstable
  | stepFailed
  | adjustIdle
  | auditIdle
  | warmupEnd
deriving DecidableEq, Repr

/-- An event in progress: the state so far, the notices raised so far in their order, the marks found so far. -/
structure Ev where
  st : State
  notes : List Notice
  marks : List Mark

namespace Ev

/-- An event that begins in a state. -/
def start (s : State) : Ev := { st := s, notes := [], marks := [] }

/-- The event with its state changed. -/
def upd (f : State → State) (e : Ev) : Ev := { e with st := f e.st }

/-- The event with one more notice raised. -/
def note (n : Notice) (e : Ev) : Ev := { e with notes := e.notes ++ [n] }

/-- The event with more notices raised, in their order. -/
def noteAll (ns : List Notice) (e : Ev) : Ev := { e with notes := e.notes ++ ns }

/-- The event with a mark added. -/
def mark (m : Mark) (e : Ev) : Ev := { e with marks := m :: e.marks }

/-- The event changed by `f` when `b` holds. -/
def when (b : Bool) (f : Ev → Ev) (e : Ev) : Ev := if b then f e else e

end Ev

/-! ## The link port -/

/-- A notice handed to the link port: discarded when its kind is disabled, queued when fewer than 16 are queued,
otherwise dropped with NOTICE_LOSS set (R171). -/
def Link.hand (l : Link) (n : Notice) : Link :=
  if l.mask.getLsbD n.code = false then l
  else if l.queue.length < 16 then { l with queue := l.queue ++ [n] }
  else { l with noticeLoss := true }

/-- Notices handed one after the other (R171). -/
def Link.handAll (l : Link) (ns : List Notice) : Link := ns.foldl Link.hand l

/-- The idle transmitter starts the answer that has waited longest, otherwise the oldest notice, which leaves the queue
(R170). -/
def Link.transmit (l : Link) : Link :=
  match l.tx with
  | some _ => l
  | none =>
    match l.slots, l.queue with
    | _ :: _, _ => { l with tx := some .answer }
    | [], n :: r => { l with tx := some (.notice n), queue := r }
    | [], [] => l

/-- An answer placed in an answer slot (R168). -/
def Link.place (l : Link) (a : Answer) : Link := { l with slots := l.slots ++ [a] }

/-! ## The restart (R43) -/

/-- The slot with its calibration window emptied (R139). -/
def Slot.clearCalWindow : Slot → Slot
  | adjustment sess =>
    adjustment { sess with calibration := sess.calibration.map fun c => { c with window := [] } }
  | free => free
  | capture op => capture op
  | audit sess => audit sess

/-- A restart: the stability window and the calibration window are emptied, the settling clock becomes 0 and no
decision stands (R43, R45, R139). -/
def restart (s : State) : State :=
  (s.setZm { s.zm with window := [], clock := 0, decisions := notStable }).setCap
    { s.cap with slot := s.cap.slot.clearCalWindow }

/-! ## The store write (R112, R114) -/

/-- A failed store write latches STORE_FAULT, with one notice (R114). -/
def latchStoreFault (w : StoreWrite) (e : Ev) : Ev :=
  if e.st.tm.storeFault then e
  else (e.upd fun s => s.setTm { s.tm with storeFault := true }).note (.storeFault w)

/-- One store write: whole when it verifies, otherwise nothing of it, with STORE_FAULT latched (R112). -/
def storeWrite (ok : Bool) (w : StoreWrite) (f : State → State) (e : Ev) : Ev :=
  if ok then e.upd f else latchStoreFault w e

/-- A new trail entry: it takes the next sequence number, and the entry with the lowest one is overwritten when 48 are
held (R146). -/
def Store.addTrail (st : Store) (k : TrailKind) : Store :=
  { st with
    trail := (if 48 ≤ st.trail.length then st.trail.drop (st.trail.length - 47) else st.trail) ++
      [{ seq := st.nextSeq, kind := k }]
    nextSeq := if st.nextSeq < 4294967295 then st.nextSeq + 1 else st.nextSeq }

/-! ## Shared effects -/

/-- The metrology status recomputed, with METROLOGY_STATUS when the reason set changed (R147). -/
def recomputeStatus (e : Ev) : Ev :=
  let old := e.st.metro.status
  let new := statusReasons e.st.metro.valid e.st.cap.slot.isAdjustment e.st.store e.st.cal.value
  (e.upd fun s => s.setMetro { s.metro with status := new }).when (new != old) (·.note (.metrologyStatus new old))

/-- The exit lamp turned GREEN, which clears the REWORK hold (R109). -/
def exitGreen (s : State) : State := s.setCap { s.cap with exitLamp := .green, reworkHold := false }

/-- The scale enters WARMUP: excitation on, count 0, length fixed (R22), with SCALE_STATE. -/
def enterWarmup (e : Ev) : Ev :=
  let old := e.st.acq.scale
  (e.upd fun s => s.setAcq
    { s.acq with
      scale := .warmup, excitation := true, warmCount := 0
      warmLength := warmupLength s.metro.valid s.store.config }).note (.scaleState .warmup old)

/-- A wake event: in STANDBY the scale enters WARMUP (R24). -/
def wake (e : Ev) : Ev := if e.st.acq.scale = .standby then enterWarmup e else e

/-- A request that may not be taken because the slot is held (R93, R137, R149). -/
def slotHeld : Slot → Option Status
  | .free => none
  | .capture _ => some .busy
  | .adjustment _ => some .sessionOpen
  | .audit _ => some .sessionOpen

/-! ## Around a command -/

/-- The entry lamp formed anew when one of its inputs changed in the event (R108). -/
def formEntryLamp (s0 s : State) : State :=
  if s.lampInputs = s0.lampInputs then s else s.setCap { s.cap with entryLamp := s.entryLampOf }

/-- LAMP_STATE, when a lamp changed in the event (R108). -/
def lampNotes (s0 s : State) : List Notice :=
  if s.cap.entryLamp = s0.cap.entryLamp ∧ s.cap.exitLamp = s0.cap.exitLamp then []
  else [.lampState s.cap.entryLamp s.cap.exitLamp]

/-- The end of an event that began in `s0`: the lamps are settled and the notices of the event are handed over in their
order (R108, R171). -/
def settle (s0 : State) (e : Ev) : State :=
  let s := formEntryLamp s0 e.st
  s.setLink (s.link.handAll (e.notes ++ lampNotes s0 s))

/-- The transmitter served at the end of an event (R170). -/
def serveLink (s : State) : State := s.setLink s.link.transmit

/-- A whole event: nothing happens while the main supply is absent (log 10). -/
def event (f : Ev → Ev) (s : State) : Host.Outcome State Fault Refusal :=
  .next (if s.mainSupply then serveLink (settle s (f (Ev.start s))) else s)

/-- The state with an answer in a slot. -/
def answer (kind : Byte) (r : Reply) (s : State) : State := s.setLink (s.link.place { kind := kind, reply := r })

/-- The state with the receive buffer emptied, as at the end of every frame (R167). -/
def endFrame (s : State) : State := s.setLink { s.link with rxBuffer := [] }

/-- A reply without further fields. -/
def Reply.bare (st : Status) : Reply := { status := st, body := .none }

/-- A reply of OK with fields. -/
def Reply.okWith (b : Body) : Reply := { status := .ok, body := b }

/-- A request that completes (R168): executed and answered when both answer slots are empty; answered LINK_BUSY when
one is held; dropped when both are. `reqKind` is the answer's kind byte. -/
def request (answerKind : Byte) (f : Ev → Ev × Reply) (s : State) : Host.Outcome State Fault Refusal :=
  .next (
    if s.mainSupply then
      let s1 := endFrame s
      match s1.link.slots with
      | [] =>
        let r := f (Ev.start s1)
        serveLink (answer answerKind r.2 (settle s1 r.1))
      | [_] => serveLink (answer answerKind (Reply.bare .linkBusy) s1)
      | _ :: _ :: _ => s1
    else s)

/-- A request whose payload is read first: a payload that does not match is answered BAD_REQUEST (R168). -/
def requestWith {α : Type} (answerKind : Byte) (parsed : Option α) (f : α → Ev → Ev × Reply) (s : State) :
    Host.Outcome State Fault Refusal :=
  request answerKind (fun e =>
    match parsed with
    | none => (e, Reply.bare .badRequest)
    | some x => f x e) s

end Sys2Proof.Machine
end

