-- ==== Sys2Proof/Machine/Channels.lean ====
section
/-! DEFINITION. The acquisition unit (02_load_cell_channels.md): the evaluation of the channels at a sample event, the
fault capture record, the scale state, and the requests of the chapter. -/

namespace Sys2Proof.Machine

/-! ## One channel's evaluation -/

/-- The previous raw sample: that of the evaluated sample event before, absent when the comparison history begins afresh
(R26). -/
def Channel.previous (c : Channel) : Option Int := if c.evaluated then c.raw else none

/-- The change of a channel: the magnitude of the raw sample less the previous one (R29). -/
def Channel.change (c : Channel) (raw : Int) : Option Nat := c.previous.map fun p => (raw - p).natAbs

/-- The stuck run at an evaluated sample event (R28). -/
def Channel.nextStuck (c : Channel) (raw : Int) : Nat := if c.previous = some raw then c.stuckRun + 1 else 1

/-- The stuck run reaches 100 (R28). -/
def Channel.isStuck (c : Channel) (raw : Int) : Bool := decide (100 ≤ c.nextStuck raw)

/-- The SPIKE test: the channel's own change is above the limit, and the mean change of its included deck-mates that
have one is below a quarter of the limit, tested exactly (R29). -/
def spikeTest (limit : Nat) (own : Option Nat) (mates : List Nat) : Bool :=
  match own with
  | none => false
  | some d => decide (limit < d) && mates != [] && decide (4 * mates.sum < limit * mates.length)

/-- The fault of a sample: the first kind, in the order of the table, that it meets (R27). -/
def faultOf (senseLost overrange spike stuck : Bool) : Option FaultKind :=
  if senseLost then some .senseLost
  else if overrange then some .overrange
  else if spike then some .spike
  else if stuck then some .stuck
  else none

/-- GOOD below 80, WATCH from 80 to 159 (R32). -/
def healthOfCounter (n : Nat) : Health := if n < 80 then .good else .watch

/-- A faulted sample's account (R32, R35). -/
def Channel.faulted (c : Channel) : Channel :=
  match c.health with
  | .good | .watch =>
    if 160 ≤ c.counter + 16 then
      { c with counter := 160, cleanRun := 0, health := .excluded, cause := some .automatic }
    else { c with counter := c.counter + 16, cleanRun := 0, health := healthOfCounter (c.counter + 16) }
  | .excluded => c
  | .recovering => { c with recovery := 0, cleanRun := 0 }

/-- A clean half-second passes at this clean sample (R32, R35). -/
def Channel.halfSecond (c : Channel) : Bool := c.health != .excluded && decide (25 ≤ c.cleanRun + 1)

/-- The recovery completes at this clean sample (R35). -/
def Channel.recovers (c : Channel) : Bool :=
  decide (c.health = .recovering) && c.halfSecond && decide (64 ≤ c.recovery + 1)

/-- A clean sample's account (R32, R35). -/
def Channel.clean (c : Channel) : Channel :=
  match c.health with
  | .good | .watch =>
    if c.halfSecond then
      { c with counter := c.counter - 1, cleanRun := 0, health := healthOfCounter (c.counter - 1) }
    else { c with cleanRun := c.cleanRun + 1 }
  | .excluded => c
  | .recovering =>
    if c.recovers then { c with health := .good, counter := 0, recovery := 0, cause := none, cleanRun := 0 }
    else if c.halfSecond then { c with recovery := c.recovery + 1, cleanRun := 0 }
    else { c with cleanRun := c.cleanRun + 1 }

/-- The channel's records of the sample itself: raw sample, previous raw sample, stuck run (R25, R26, R28). -/
def Channel.sampled (c : Channel) (raw : Int) : Channel :=
  { c with
    raw := some raw, prev := c.previous, evaluated := true
    stuckRun := if c.isStuck raw then 0 else c.nextStuck raw }

/-- The channel after an evaluated sample with its fault (R27 to R35). -/
def Channel.evaluate (c : Channel) (raw : Int) (fault : Option FaultKind) : Channel :=
  match fault with
  | none => { (c.sampled raw).clean with lastGood := some raw }
  | some k => { (c.sampled raw).faulted with lastCode := .kind k }

/-- The channel value handed on (R31). -/
def handedValue (c : Channel) (raw : Int) (fault : Option FaultKind) : Int :=
  match fault with
  | none => raw
  | some _ => c.lastGood.getD raw

/-- A channel whose raw sample is taken and which is not evaluated (R25, R26). -/
def Channel.takeRaw (c : Channel) (raw : Int) : Channel := { c with raw := some raw, prev := none, evaluated := false }

/-! ## All channels at a sample event in RUN -/

/-- The changes of a channel's included deck-mates, as they stood before this evaluation (R29). -/
def mateChanges (assign : Chan → Option Deck) (chans : Bank Channel 16) (raw : Chan → Int) (i : Chan) (d : Deck) :
    List Nat :=
  (allChans.filter fun j => j != i && assign j == some d && (chans.get j).health.included).filterMap fun j =>
    (chans.get j).change (raw j)

/-- The fault of each channel at a sample event, none for a channel that is not evaluated (R26, R27). -/
def channelFault (assign : Chan → Option Deck) (limit : Nat) (chans : Bank Channel 16) (inp : SampleInput) (i : Chan) :
    Option FaultKind :=
  match assign i with
  | none => none
  | some d =>
    let raw := fun j => (inp.raw.get j).toInt
    faultOf (inp.senseLow.get d) (decide (8300000 ≤ (raw i).natAbs))
      (spikeTest limit ((chans.get i).change (raw i)) (mateChanges assign chans raw i d)) ((chans.get i).isStuck (raw i))

/-- A channel after a sample event in RUN (R25, R26). -/
def channelAfter (assign : Chan → Option Deck) (limit : Nat) (chans : Bank Channel 16) (inp : SampleInput) (i : Chan) :
    Channel :=
  match assign i with
  | none => (chans.get i).takeRaw (inp.raw.get i).toInt
  | some _ => (chans.get i).evaluate (inp.raw.get i).toInt (channelFault assign limit chans inp i)

/-- The value handed on for a channel at a sample event in RUN (R31). -/
def channelValue (assign : Chan → Option Deck) (limit : Nat) (chans : Bank Channel 16) (inp : SampleInput) (i : Chan) :
    Int :=
  handedValue (chans.get i) (inp.raw.get i).toInt (channelFault assign limit chans inp i)

/-- A fault offered to the fault capture record (R37). -/
def offerFault (number : BitVec 32) (stamp : Option DateTime) (raw : Int) (i : Chan) (k : FaultKind) :
    Option FaultCapture → Option FaultCapture
  | none => some { channel := i, kind := k, raw := raw, sampleNumber := number, stamp := stamp, more := false }
  | some f => some { f with more := true }

/-- The faults of a sample event offered in ascending channel number (R37). -/
def offerFaults (fault : Chan → Option FaultKind) (inp : SampleInput) (number : BitVec 32) (stamp : Option DateTime)
    (rec : Option FaultCapture) : Option FaultCapture :=
  allChans.foldl (fun r i =>
    match fault i with
    | none => r
    | some k => offerFault number stamp (inp.raw.get i).toInt i k r) rec

/-- The CHANNEL_STATE notice of a change (R33). -/
def channelNote (number : BitVec 32) (i : Chan) (old new : Channel) : Notice :=
  .channelState i new.health old.health
    (match new.health with
      | .excluded | .recovering => new.cause
      | .good | .watch => none)
    number

/-- The CHANNEL_STATE notices of a sample event, in ascending channel number (R33). -/
def channelNotes (number : BitVec 32) (old new : Bank Channel 16) : List Notice :=
  (allChans.filter fun i => (old.get i).health != (new.get i).health).map fun i =>
    channelNote number i (old.get i) (new.get i)

/-- Some deck's included set changed (R33). -/
def includedChanged (assign : Chan → Option Deck) (old new : Bank Channel 16) : Bool :=
  allChans.any fun i => (assign i).isSome && ((old.get i).health.included != (new.get i).health.included)

/-- The marks of the channels: stuck runs, clean half-seconds and recoveries that reached their counts. -/
def channelMarks (assign : Chan → Option Deck) (limit : Nat) (chans : Bank Channel 16) (inp : SampleInput) :
    List Mark :=
  allChans.flatMap fun i =>
    match assign i with
    | none => []
    | some _ =>
      let c := chans.get i
      let clean := (channelFault assign limit chans inp i).isNone
      (if c.isStuck (inp.raw.get i).toInt then [.stuck i] else []) ++
        (if clean && c.halfSecond then [.cleanHalfSecond i] else []) ++
        (if clean && c.recovers then [.recoveryComplete i] else [])

/-- What the acquisition unit hands on at a sample event: the event, and the channel values (R25, R31). -/
structure Acquired where
  ev : Ev
  value : Bank Int 16

/-- The acquisition unit at a sample event in RUN: evaluation, notices, fault capture record, restart on a change of an
included set (R25 to R37). -/
def acquireRun (inp : SampleInput) (e : Ev) : Acquired :=
  let s := e.st
  let assign := s.healthAssign
  let chans := s.acq.channels
  let limit := s.acq.spikeLimit
  let number := s.acq.sampleNumber
  let new := Bank.ofFn (channelAfter assign limit chans inp)
  let record := offerFaults (channelFault assign limit chans inp) inp number s.cal.value s.acq.faultCapture
  let s1 := s.setAcq { s.acq with channels := new, faultCapture := record }
  let s2 := if includedChanged assign chans new then restart s1 else s1
  { ev := { st := s2, notes := e.notes ++ channelNotes number chans new
            marks := channelMarks assign limit chans inp ++ e.marks }
    value := Bank.ofFn (channelValue assign limit chans inp) }

/-- What every sample event begins with, in every scale state: the sample number rises (R25), and the health assignment
that is due is put in force (R26). -/
def beginSample (s : State) : State :=
  s.setAcq { s.acq with sampleNumber := s.acq.sampleNumber + 1, assign := Bank.ofFn s.assignmentDue }

/-- The acquisition unit at a sample event (R22, R25, R26): the sample number and the health assignment in every state,
the raw samples in WARMUP and RUN, the evaluation in RUN. -/
def acquire (inp : SampleInput) (e0 : Ev) : Acquired :=
  let e := e0.upd beginSample
  let raws := Bank.ofFn fun i => (inp.raw.get i).toInt
  match e.st.acq.scale with
  | .run => acquireRun inp e
  | .warmup =>
    { ev := e.upd fun s => s.setAcq
        { s.acq with
          channels := Bank.ofFn fun i => (s.acq.channels.get i).takeRaw (inp.raw.get i).toInt
          warmCount := s.acq.warmCount + 1 }
      value := raws }
  | .standby =>
    { ev := e.upd fun s => s.setAcq
        { s.acq with channels := s.acq.channels.map fun c => { c with evaluated := false } }
      value := raws }

/-- The end of a sample event of the warm-up: at the count that equals its length the scale enters RUN, which restarts
the window (R22, R43). -/
def warmupEnd (e : Ev) : Ev :=
  if e.st.acq.scale = .warmup ∧ e.st.acq.warmLength ≤ e.st.acq.warmCount then
    ((e.upd fun s => restart (s.setAcq { s.acq with scale := .run, excitation := true })).note
      (.scaleState .run .warmup)).mark .warmupEnd
  else e

/-! ## The requests -/

/-- Enter Standby (R23). -/
def enterStandby (e : Ev) : Ev × Reply :=
  let s := e.st
  if s.acq.scale = .standby then (e, Reply.bare .ok)
  else if s.acq.scale = .warmup then (e, Reply.bare .notReady)
  else if s.cap.slot ≠ .free then (e, Reply.bare .busy)
  else if s.axle.occupancy ≠ .empty then (e, Reply.bare .bridgeOccupied)
  else
    ((e.upd fun s => s.setAcq
        { s.acq with
          scale := .standby, excitation := false
          channels := s.acq.channels.map fun c => { c with raw := none, prev := none } }).note
      (.scaleState .standby .run), Reply.bare .ok)

/-- Leave Standby (R24). -/
def leaveStandby (e : Ev) : Ev × Reply := (wake e, Reply.bare .ok)

/-- Write Channel Settings (R30). -/
def writeChannelSettings (limit : Nat) (e : Ev) : Ev × Reply :=
  if 1000 ≤ limit ∧ limit ≤ 1000000 then
    (e.upd fun s => s.setAcq { s.acq with spikeLimit := limit }, Reply.bare .ok)
  else (e, Reply.bare .badRequest)

/-- A channel changed by a request: its notice, and the restart when a deck's included set changed, be it the channel's
deck in the health assignment in force (R33, log 25) or in the live assignment that forms the masses (R5, log 49). The
notice gives the latest sample event's number (R33); before the first sample event since a reset there is none, and the
model gives the 0 that the sample number then has (log 50). -/
def changeChannel (i : Chan) (new : Channel) (e : Ev) : Ev :=
  let old := e.st.acq.channels.get i
  let e1 := (e.upd fun s => s.setAcq { s.acq with channels := s.acq.channels.set i new }).note
    (channelNote e.st.acq.sampleNumber i old new)
  e1.when (e.st.onDeck i && (old.health.included != new.health.included)) (·.upd restart)

/-- A channel taken out by hand (R34). -/
def Channel.exclude (c : Channel) : Channel :=
  { c with health := .excluded, cause := some .manual, counter := 160, cleanRun := 0, recovery := 0 }

/-- Exclude Channel (R34). -/
def excludeChannel (n : Nat) (e : Ev) : Ev × Reply :=
  match chanOf n with
  | none => (e, Reply.bare .badRequest)
  | some i =>
    let c := e.st.acq.channels.get i
    if c.health = .excluded ∧ c.cause = some .manual then (e, Reply.bare .ok)
    else (changeChannel i c.exclude e, Reply.bare .ok)

/-- A channel whose recovery begins (R35). -/
def Channel.reinstate (c : Channel) : Channel := { c with health := .recovering, recovery := 0, cleanRun := 0 }

/-- Reinstate Channel (R35). -/
def reinstateChannel (n : Nat) (e : Ev) : Ev × Reply :=
  match chanOf n with
  | none => (e, Reply.bare .badRequest)
  | some i =>
    let c := e.st.acq.channels.get i
    if c.health = .excluded then (changeChannel i c.reinstate e, Reply.bare .ok)
    else (e, Reply.bare .notExcluded)

/-- The fields of Read Channel (R36). -/
def channelFields (s : State) (i : Chan) : ChannelFields :=
  let c := s.acq.channels.get i
  { channel := i
    deck := s.healthAssign i
    evaluated := c.evaluated
    raw := c.raw
    lastGood := c.lastGood
    health := c.health
    cause := match c.health with
      | .excluded | .recovering => c.cause
      | .good | .watch => none
    counter := c.counter
    recovery := match c.health with
      | .recovering => some c.recovery
      | .good | .watch | .excluded => none
    lastCode := c.lastCode }

/-- Read Channel: the fields as they stood, and the last fault code becomes NO_NEW (R36). -/
def readChannel (n : Nat) (e : Ev) : Ev × Reply :=
  match chanOf n with
  | none => (e, Reply.bare .badRequest)
  | some i =>
    (e.upd fun s => s.setAcq
      { s.acq with channels := s.acq.channels.set i { s.acq.channels.get i with lastCode := .noNew } },
     Reply.okWith (.channel (channelFields e.st i)))

/-- Read Fault Capture: the record, which becomes free, or EMPTY (R38). -/
def readFaultCapture (e : Ev) : Ev × Reply :=
  match e.st.acq.faultCapture with
  | none => (e, Reply.bare .empty)
  | some f => (e.upd fun s => s.setAcq { s.acq with faultCapture := none }, Reply.okWith (.faultCapture f))

/-! ## The meanings -/

/-- ENTER_STANDBY (R23). -/
def execEnterStandby (p : List Byte) (s : State) : Host.Outcome State Fault Refusal :=
  requestWith 0x90 (parseEmpty p) (fun _ => enterStandby) s

/-- LEAVE_STANDBY (R24). -/
def execLeaveStandby (p : List Byte) (s : State) : Host.Outcome State Fault Refusal :=
  requestWith 0x91 (parseEmpty p) (fun _ => leaveStandby) s

/-- WRITE_CHANNEL_SETTINGS (R30). -/
def execWriteChannelSettings (p : List Byte) (s : State) : Host.Outcome State Fault Refusal :=
  requestWith 0x92 (parseNat 4 p) writeChannelSettings s

/-- EXCLUDE_CHANNEL (R34). -/
def execExcludeChannel (p : List Byte) (s : State) : Host.Outcome State Fault Refusal :=
  requestWith 0x93 (parseNat 1 p) excludeChannel s

/-- REINSTATE_CHANNEL (R35). -/
def execReinstateChannel (p : List Byte) (s : State) : Host.Outcome State Fault Refusal :=
  requestWith 0x94 (parseNat 1 p) reinstateChannel s

/-- READ_CHANNEL (R36). -/
def execReadChannel (p : List Byte) (s : State) : Host.Outcome State Fault Refusal :=
  requestWith 0x95 (parseNat 1 p) readChannel s

/-- READ_FAULT_CAPTURE (R38). -/
def execReadFaultCapture (p : List Byte) (s : State) : Host.Outcome State Fault Refusal :=
  requestWith 0x96 (parseEmpty p) (fun _ => readFaultCapture) s

end Sys2Proof.Machine
end

