-- ==== Sys2Proof/Machine/Verdicts.lean ====
section
/-! DEFINITION. The group evaluator (05_axle_groups_and_verdicts.md): groups, components, comparisons, verdicts, what a
composite position may credit, and the requests that keep the site tables. -/

namespace Sys2Proof.Machine

/-! ## Groups (R80 to R82) -/

/-- An axle of the sequence with its place: a deck, or none for EXITED (R80). -/
structure PlacedAxle where
  axle : Axle
  place : Option Deck
deriving DecidableEq, Repr

/-- The axle sequence of a CERTAIN map, in ascending axle number (R80). -/
def axleSequence (m : AxleMap) : List PlacedAxle :=
  sortBy (fun a b => decide (a.axle.number ≤ b.axle.number))
    (m.exited.map (fun a => { axle := a, place := none }) ++
      allDecks.flatMap fun d => (m.decks.get d).map fun a => { axle := a, place := some d })

/-- A group as the walk forms it: its axles and whether its boundaries are uncertain (R81). -/
structure WalkGroup where
  axles : List PlacedAxle
  front : Bool
  rear : Bool
deriving DecidableEq, Repr

/-- The walk from an open group rearward (R81). -/
def walkFrom (gap : Nat) : WalkGroup → List PlacedAxle → List WalkGroup
  | g, [] => [g]
  | g, a :: r =>
    match a.axle.spacing with
    | some sp =>
      if gap < sp then g :: walkFrom gap { axles := [a], front := false, rear := false } r
      else walkFrom gap { g with axles := g.axles ++ [a] } r
    | none => { g with rear := true } :: walkFrom gap { axles := [a], front := true, rear := false } r

/-- The walk over the axle sequence (R81). -/
def walk (gap : Nat) : List PlacedAxle → List WalkGroup
  | [] => []
  | a :: r => walkFrom gap { axles := [a], front := false, rear := false } r

/-- A group's type, by its position and its axle count (R82). -/
def groupType (number count : Nat) : GroupType :=
  if count ≤ 1 then (if number = 1 then .steerSingle else .single)
  else if count = 2 then (if number = 1 then .steerTwin else .tandem)
  else if count = 3 then .tridem
  else .quad

/-- The limit of a type (R82). -/
def GroupLimits.limitOf (l : GroupLimits) : GroupType → Nat
  | .steerSingle => l.steerSingle
  | .steerTwin => l.steerTwin
  | .single => l.single
  | .tandem => l.tandem
  | .tridem => l.tridem
  | .quad => l.quad

/-- A group as recorded (R81): its axles, type and limit, whether it is bounded uncertainly, the decks that it touches
(R83), and whether one of its axles is EXITED. -/
structure Group where
  number : Nat
  firstAxle : Nat
  lastAxle : Nat
  axleCount : Nat
  type : GroupType
  limit : Nat
  uncertain : Bool
  decks : List Deck
  exited : Bool
deriving DecidableEq, Repr

/-- The record of the group with a number. -/
def groupOf (limits : GroupLimits) (number : Nat) (w : WalkGroup) : Group :=
  let type := groupType number w.axles.length
  { number := number
    firstAxle := (w.axles.head?.map fun a => a.axle.number).getD 0
    lastAxle := (w.axles.getLast?.map fun a => a.axle.number).getD 0
    axleCount := w.axles.length
    type := type
    limit := limits.limitOf type
    uncertain := w.front || w.rear
    decks := allDecks.filter fun d => w.axles.any fun a => a.place == some d
    exited := w.axles.any fun a => a.place.isNone }

/-- Groups numbered from `n` on. -/
def numberGroups (limits : GroupLimits) : Nat → List WalkGroup → List Group
  | _, [] => []
  | n, w :: r => groupOf limits n w :: numberGroups limits (n + 1) r

/-- The groups of a CERTAIN map (R80 to R82). -/
def formGroups (m : AxleMap) (gap : Nat) (limits : GroupLimits) : List Group :=
  numberGroups limits 1 (walk gap (axleSequence m))

/-! ## Components (R83 to R86) -/

/-- Groups and decks that are connected (R83). -/
structure DeckChain where
  decks : List Deck
  groups : List Group
deriving DecidableEq, Repr

/-- Two deck sets have a deck in common. -/
def meet (a b : List Deck) : Bool := a.any fun d => b.contains d

/-- A group joined to the components formed so far: those that share a deck with it become one with it (R83). -/
def joinGroup (cs : List DeckChain) (g : Group) : List DeckChain :=
  if g.decks = [] then cs
  else
    let hit := cs.filter fun c => meet c.decks g.decks
    let rest := cs.filter fun c => !meet c.decks g.decks
    { decks := allDecks.filter fun d => g.decks.contains d || hit.any fun c => c.decks.contains d
      groups := sortBy (fun a b => decide (a.number ≤ b.number)) (g :: hit.flatMap DeckChain.groups) } :: rest

/-- The number of a component's frontmost group. -/
def DeckChain.front (c : DeckChain) : Nat := (c.groups.head?.map Group.number).getD 0

/-- The components, in the order of their frontmost group (R83). -/
def formComponents (gs : List Group) : List DeckChain :=
  sortBy (fun a b => decide (a.front ≤ b.front)) (gs.foldl joinGroup [])

/-- A component as judged (R83, R85, R86). -/
structure Component where
  number : Nat
  decks : List Deck
  groups : List Group
  status : ComponentStatus
  mass : Int
  roundedKg : Int
  limit : Nat
  comparison : Comparison
  substituted : Bool
deriving DecidableEq, Repr

/-- A rounded mass against a limit: exactly equal is WITHIN (R86, R88). -/
def compareKg (kg : Int) (limit : Nat) : Comparison := if kg ≤ limit then .within else .overBy (kg - limit)

/-- A component's status (R85). -/
def componentStatus (deckLoad : Bool) (gs : List Group) : ComponentStatus :=
  if deckLoad || gs.any Group.exited then .unresolved
  else if 2 ≤ gs.length then .combined
  else .single

/-- A component judged (R83, R85, R86). -/
def judgeComponent (eHg : Nat) (mean : Deck → Int) (subst : List Deck) (deckLoad : Bool) (number : Nat) (c : DeckChain) :
    Component :=
  let mass := sumInt (c.decks.map mean)
  let status := componentStatus deckLoad c.groups
  let limit := (c.groups.map Group.limit).sum
  let kg := roundToKg eHg mass
  { number := number, decks := c.decks, groups := c.groups, status := status, mass := mass, roundedKg := kg
    limit := limit
    comparison := match status with
      | .unresolved => .unresolved
      | .combined | .single => compareKg kg limit
    substituted := c.decks.any subst.contains }

/-- Components judged and numbered from `n` on. -/
def judgeComponents (eHg : Nat) (mean : Deck → Int) (subst : List Deck) (deckLoad : Bool) :
    Nat → List DeckChain → List Component
  | _, [] => []
  | n, c :: r => judgeComponent eHg mean subst deckLoad n c :: judgeComponents eHg mean subst deckLoad (n + 1) r

/-- A component of one group that touches two or more decks is STRADDLED (R85). -/
def Component.straddled (c : Component) : Bool := decide (c.status = .single) && decide (2 ≤ c.decks.length)

/-- What is formed of the map and the capture means at one capture or position (R80 to R86). -/
structure Judged where
  groups : List Group
  components : List Component
  tooMany : Bool
  deckLoads : List Deck
deriving DecidableEq, Repr

/-- The groups that a capture lists: none on an UNCERTAIN map (R80), none when the walk forms 13 or more (R81). -/
def listedGroups (m : AxleMap) (gap : Nat) (limits : GroupLimits) : List Group :=
  let gs := formGroups m gap limits
  if m.certain = true ∧ gs.length < 13 then gs else []

/-- The decks with a load without axle: active, in no component, with a capture mean above 2e (R84). Where no component
is formed every active deck belongs to none. -/
def deckLoadsOf (c : MetroConfig) (mean : Deck → Int) (links : List DeckChain) : List Deck :=
  c.activeDecks.filter fun d =>
    !(links.any fun l => l.decks.contains d) && decide ((2 * c.eHg : Nat) < mean d)

/-- Groups and components of a capture (R80 to R86). -/
def judge (m : AxleMap) (c : MetroConfig) (limits : GroupLimits) (gap : Nat) (mean : Deck → Int) (subst : List Deck) :
    Judged :=
  let gs := listedGroups m gap limits
  let links := formComponents gs
  let loads := deckLoadsOf c mean links
  { groups := gs
    components := judgeComponents c.eHg mean subst (loads != []) 1 links
    tooMany := m.certain && decide (13 ≤ (formGroups m gap limits).length)
    deckLoads := loads }

/-! ## Verdicts (R87 to R90) -/

/-- A group's verdict from its component's comparison and its own boundaries (R87). -/
def groupVerdict (comparison : Comparison) (uncertain : Bool) : GroupVerdict :=
  match comparison with
  | .unresolved => .unresolved
  | .overBy x => if uncertain then .uncertain else .overBy x
  | .within => if uncertain then .uncertain else .within

/-- The component that a group belongs to. -/
def Judged.componentOf (j : Judged) (g : Group) : Option Component :=
  j.components.find? fun c => c.groups.any fun h => h.number == g.number

/-- A group's entry (R90). -/
def Judged.groupEntry (j : Judged) (g : Group) : GroupEntry :=
  let comp := j.componentOf g
  { number := g.number, firstAxle := g.firstAxle, lastAxle := g.lastAxle, axleCount := g.axleCount
    type := g.type, limit := g.limit
    component := comp.map Component.number
    mass := comp.bind fun c => if c.status = .single then some c.roundedKg else none
    verdict := groupVerdict ((comp.map Component.comparison).getD .unresolved) g.uncertain
    straddled := (comp.map Component.straddled).getD false
    uncertainBoundary := g.uncertain
    substituted := (comp.map Component.substituted).getD false }

/-- A component's entry (R90); `position` is 0 outside a composite verdict. -/
def Component.entry (c : Component) : ComponentEntry :=
  { number := c.number, decks := c.decks
    firstGroup := (c.groups.head?.map Group.number).getD 0
    lastGroup := (c.groups.getLast?.map Group.number).getD 0
    status := c.status, mass := c.roundedKg
    limit := if c.status = .unresolved then none else some c.limit
    comparison := c.comparison, substituted := c.substituted, position := 0 }

/-- A comparison that is OVER. -/
def Comparison.isOver : Comparison → Bool
  | overBy _ => true
  | within => false
  | unresolved => false

/-- The vehicle verdict (R89). -/
def vehicleVerdict (r : IncompleteReasons) (comps : List ComponentEntry) (gross : Comparison) : VehicleVerdict :=
  if r.list.any id then .incomplete
  else if comps.any (fun c => c.comparison.isOver) || gross.isOver then .overloaded
  else .compliant

/-- A verdict record put together from its lists (R88 to R90). -/
def makeVerdict (reasons : IncompleteReasons) (cls : Nat) (entry : ClassEntry) (entered : Nat) (grossKg : Int)
    (loads : List Deck) (groups : List GroupEntry) (comps : List ComponentEntry) : Verdict :=
  let gross := compareKg grossKg entry.grossLimit
  { vehicle := vehicleVerdict reasons comps gross
    reasons := reasons, cls := cls, grossLimit := entry.grossLimit, maxAxles := entry.maxAxles, entered := entered
    gross := grossKg, grossComparison := gross, deckLoads := loads, groups := groups, components := comps }

/-- The verdict of a capture in WHOLE mode (R79 to R90). -/
def wholeVerdict (m : AxleMap) (j : Judged) (cls : Nat) (entry : ClassEntry) (grossKg : Int) : Verdict :=
  let groups := j.groups.map j.groupEntry
  let reasons : IncompleteReasons :=
    { mapUncertain := !m.certain
      tooManyGroups := j.tooMany
      deckLoadWithoutAxle := j.deckLoads != []
      groupUnresolved := groups.any fun g => g.verdict == .unresolved
      groupUncertain := groups.any fun g => g.verdict == .uncertain
      classMismatch := decide (entry.maxAxles < m.entered) }
  makeVerdict reasons cls entry m.entered grossKg j.deckLoads groups (j.components.map Component.entry)

/-! ## Composite positions (R91, R92) -/

/-- None of a group's axles lies within a credited range (R91). -/
def Group.isNew (g : Group) (credited : List CreditedGroup) : Bool :=
  credited.all fun c => decide (g.lastAxle < c.firstAxle) || decide (c.lastAxle < g.firstAxle)

/-- A group is creditable at this position (R91). -/
def Group.creditable (g : Group) (m : AxleMap) (credited : List CreditedGroup) : Bool :=
  g.isNew credited && !g.exited && (decide (g.lastAxle < m.entered) || m.entryComplete)

/-- The creditable components of a position (R91). -/
def creditableComponents (m : AxleMap) (j : Judged) (credited : List CreditedGroup) : List Component :=
  if !m.certain || j.tooMany || j.deckLoads != [] then []
  else j.components.filter fun c =>
    decide (c.status ≠ .unresolved) && c.groups.all fun g => g.creditable m credited

/-- The entries that a credited component adds to the credited-group list (R91, R100). -/
def creditEntries (position : Nat) (c : Component) : List CreditedGroup :=
  c.groups.map fun g =>
    { firstAxle := g.firstAxle, lastAxle := g.lastAxle, axleCount := g.axleCount, type := g.type, limit := g.limit
      uncertainBoundary := g.uncertain
      straddled := c.straddled
      component :=
        { position := position, index := c.number, decks := c.decks, status := c.status, mass := c.mass
          roundedKg := c.roundedKg, limit := c.limit, comparison := c.comparison, substituted := c.substituted } }

/-- The credited groups in ascending first axle number (R92). -/
def creditedInOrder (credited : List CreditedGroup) : List CreditedGroup :=
  sortBy (fun a b => decide (a.firstAxle ≤ b.firstAxle)) credited

/-- The credited components, each once, in the order of their frontmost group (R92). -/
def creditedComponents : List CreditedGroup → List CreditedComponent
  | [] => []
  | g :: r => g.component :: (creditedComponents r).filter fun c => c != g.component

/-- The unrounded composite mass: every credited component's mass once (R20). -/
def compositeMass (credited : List CreditedGroup) : Int :=
  sumInt ((creditedComponents (creditedInOrder credited)).map CreditedComponent.mass)

/-- The 1-based place of a component in a list. -/
def componentPlace (cs : List CreditedComponent) (c : CreditedComponent) : Nat := cs.findIdx (· == c) + 1

/-- The group entries of a composite verdict, numbered from `n` on (R92). -/
def compositeGroups (cs : List CreditedComponent) : Nat → List CreditedGroup → List GroupEntry
  | _, [] => []
  | n, g :: r =>
    { number := n, firstAxle := g.firstAxle, lastAxle := g.lastAxle, axleCount := g.axleCount
      type := g.type, limit := g.limit
      component := some (componentPlace cs g.component)
      mass := if g.component.status = .single then some g.component.roundedKg else none
      verdict := groupVerdict g.component.comparison g.uncertainBoundary
      straddled := g.straddled, uncertainBoundary := g.uncertainBoundary
      substituted := g.component.substituted } :: compositeGroups cs (n + 1) r

/-- The first and last of the group numbers that belong to a component. -/
def groupSpan (groups : List GroupEntry) (number : Nat) : Nat × Nat :=
  let mine := groups.filter fun g => g.component == some number
  ((mine.head?.map GroupEntry.number).getD 0, (mine.getLast?.map GroupEntry.number).getD 0)

/-- The component entries of a composite verdict, numbered from `n` on (R92). -/
def compositeComponents (groups : List GroupEntry) : Nat → List CreditedComponent → List ComponentEntry
  | _, [] => []
  | n, c :: r =>
    { number := n, decks := c.decks, firstGroup := (groupSpan groups n).1, lastGroup := (groupSpan groups n).2
      status := c.status, mass := c.roundedKg, limit := some c.limit, comparison := c.comparison
      substituted := c.substituted, position := c.position } :: compositeComponents groups (n + 1) r

/-- The composite verdict, from the credited-group list (R92). -/
def compositeVerdict (credited : List CreditedGroup) (entered cls : Nat) (entry : ClassEntry) (grossKg : Int) :
    Verdict :=
  let inOrder := creditedInOrder credited
  let cs := creditedComponents inOrder
  let tooMany := decide (13 ≤ inOrder.length)
  let groups := if tooMany then [] else compositeGroups cs 1 inOrder
  let comps := if tooMany then [] else compositeComponents groups 1 cs
  let reasons : IncompleteReasons :=
    { mapUncertain := false, tooManyGroups := tooMany, deckLoadWithoutAxle := false, groupUnresolved := false
      groupUncertain := inOrder.any CreditedGroup.uncertainBoundary
      classMismatch := decide (entry.maxAxles < entered) }
  makeVerdict reasons cls entry entered grossKg [] groups comps

/-! ## The site tables (R76 to R78) -/

/-- One settings-area write: whole when it verifies, otherwise answered STORE_FAULT with nothing changed and no latch
(R113). -/
def settingsWrite (ok : Bool) (f : State → State) (e : Ev) : Ev × Reply :=
  if ok then (e.upd f, Reply.bare .ok) else (e, Reply.bare .storeFault)

/-- Every limit lies in 1,000 to 60,000 (R76). -/
def GroupLimits.inRange (l : GroupLimits) : Bool :=
  [l.steerSingle, l.steerTwin, l.single, l.tandem, l.tridem, l.quad].all fun x => decide (1000 ≤ x ∧ x ≤ 60000)

/-- Write Group Limits (R76). -/
def writeGroupLimits (ok : Bool) (l : GroupLimits) (e : Ev) : Ev × Reply :=
  if l.inRange then settingsWrite ok (fun s => s.setSite { s.site with limits := l }) e
  else (e, Reply.bare .badRequest)

/-- The class of the active capture operation (R77). -/
def activeClass : Slot → Option Nat
  | .capture op => some op.request.cls
  | .free => none
  | .adjustment _ => none
  | .audit _ => none

/-- The entry that a Write Class writes, when every field lies in its range (R77). -/
def ClassWrite.entry (w : ClassWrite) : Option (Fin 32 × ClassEntry) :=
  match classOf w.cls, profileOf w.profile with
  | some i, some p =>
    if 1000 ≤ w.grossLimit ∧ w.grossLimit ≤ 250000 ∧ 2 ≤ w.maxAxles ∧ w.maxAxles ≤ 24 then
      some (i, { inUse := w.inUse, grossLimit := w.grossLimit, maxAxles := w.maxAxles, profile := p })
    else none
  | _, _ => none

/-- Write Class (R77). -/
def writeClass (ok : Bool) (w : ClassWrite) (e : Ev) : Ev × Reply :=
  match w.entry with
  | none => (e, Reply.bare .badRequest)
  | some (i, entry) =>
    if entry.inUse = false ∧ activeClass e.st.cap.slot = some w.cls then (e, Reply.bare .busy)
    else settingsWrite ok (fun s => s.setSite { s.site with classes := s.site.classes.set i entry }) e

/-- Read Site Tables (R78). -/
def readSiteTables (e : Ev) : Ev × Reply :=
  (e, Reply.okWith (.siteTables e.st.site.classes e.st.site.limits e.st.site.treadle))

/-! ## The meanings -/

/-- WRITE_GROUP_LIMITS (R76). -/
def execWriteGroupLimits (p : List Byte) (ok : Bool) (s : State) : Host.Outcome State Fault Refusal :=
  requestWith 0xA3 (parseLimits p) (writeGroupLimits ok) s

/-- WRITE_CLASS (R77). -/
def execWriteClass (p : List Byte) (ok : Bool) (s : State) : Host.Outcome State Fault Refusal :=
  requestWith 0xA4 (parseClass p) (writeClass ok) s

/-- READ_SITE_TABLES (R78). -/
def execReadSiteTables (p : List Byte) (s : State) : Host.Outcome State Fault Refusal :=
  requestWith 0xA5 (parseEmpty p) (fun _ => readSiteTables) s

end Sys2Proof.Machine
end

