-- ==== Sys2Proof/Machine/Transactions.lean ====
section
/-! DEFINITION. The transaction manager (07_transactions_tare_and_tickets.md): the checks at acceptance, the completion
of each kind, staleness, stored tares, tickets, and the requests of the chapter. -/

namespace Sys2Proof.Machine

/-- The last number of a transaction or ticket counter (R115). -/
def lastNumber : Nat := 4294967295

/-! ## Looking things up -/

/-- The entry with a transaction number. -/
def Store.entry (st : Store) (n : Nat) : Option OpenEntry := st.entries.find? fun e => e.number == n

/-- The vehicle has an entry (R117). -/
def Store.hasVehicle (st : Store) (v : Text) : Bool := st.entries.any fun e => e.vehicle == v

/-- The free ticket slots (R130). -/
def State.freeSlots (s : State) : Nat := 32 - s.store.tickets.length - s.tm.reserved

/-- The 128 places of the stored tare table, in ascending slot number. -/
def allTares : List (Fin 128) := List.finRange 128

/-- The slot that holds a vehicle's tare (R123). -/
def Store.tareSlot (st : Store) (v : Text) : Option (Fin 128) :=
  allTares.find? fun i =>
    match st.tares.get i with
    | some t => t.vehicle == v
    | none => false

/-- A vehicle's stored tare. -/
def Store.tareOf (st : Store) (v : Text) : Option StoredTare := (st.tareSlot v).bind st.tares.get

/-! ## Acceptance (R117, R130) -/

/-- The transaction manager's checks for a Start Capture; none when all pass (R115, R117). -/
def tmChecks (s : State) (r : CaptureRequest) : Option Status :=
  let st := s.store
  match r.kind with
  | .axleCheck => none
  | .first =>
    if s.tm.storeFault then some .storeFault
    else if st.hasVehicle r.vehicle then some .vehicleOpen
    else if 64 ≤ st.entries.length then some .tableFull
    else if lastNumber ≤ st.txCounter then some .counterExhausted
    else none
  | .second =>
    if s.tm.storeFault then some .storeFault
    else match st.entry r.txNumber with
      | none => some .noSuchTransaction
      | some e =>
        if e.vehicle ≠ r.vehicle then some .badRequest
        else if lastNumber ≤ st.ticketCounter then some .counterExhausted
        else if s.freeSlots = 0 then some .storeFull
        else none
  | .singlePass =>
    if s.tm.storeFault then some .storeFault
    else if st.hasVehicle r.vehicle then some .vehicleOpen
    else if 64 ≤ st.entries.length then some .tableFull
    else if lastNumber ≤ st.txCounter ∨ lastNumber ≤ st.ticketCounter then some .counterExhausted
    else if s.freeSlots = 0 then some .storeFull
    else none
  | .tare =>
    if s.tm.storeFault then some .storeFault
    else if s.metro.status.tradeReady then none
    else some .notTradeReady

/-- The kind holds a reservation from its acceptance on (R117, R130). -/
def CaptureKind.reserves : CaptureKind → Bool
  | second => true
  | singlePass => true
  | first => false
  | tare => false
  | axleCheck => false

/-- The reservation count set (R130). -/
def setReserved (n : Nat) (s : State) : State := s.setTm { s.tm with reserved := n }

/-! ## Weighings and reasons (R123, R128) -/

/-- What a weighing contributes to a ticket. -/
structure WeighingFacts where
  counter : Nat
  flags : CaptureFlags
  stamped : Bool

/-- The flags of a stored tare: none (R128). -/
def noFlags : CaptureFlags :=
  { overMax := false, belowMin := false, substituted := false, composite := false, positions := 0, degraded := false }

/-- The not-for-trade reason set of two weighings, the first of them the closing capture's (R128). -/
def tradeReasons (status : StatusReasons) (closing other : WeighingFacts) (net : Int) : TradeReasons :=
  { status := { status with timeUnset := status.timeUnset || !closing.stamped || !other.stamped }
    mixedCalibration := closing.counter != other.counter
    composite := closing.flags.composite || other.flags.composite
    substituted := closing.flags.substituted || other.flags.substituted
    overMax := closing.flags.overMax || other.flags.overMax
    belowMin := closing.flags.belowMin || other.flags.belowMin
    reversed := decide (net < 0) }

/-- What a capture contributes. -/
def CaptureResult.facts (r : CaptureResult) : WeighingFacts :=
  { counter := r.counter, flags := r.flags, stamped := r.stamp.isSome }

/-- What a first weighing contributes. -/
def FirstWeighing.facts (w : FirstWeighing) : WeighingFacts :=
  { counter := w.counter, flags := w.flags, stamped := w.stamp.isSome }

/-- What a stored tare contributes (R125, R128): its date is its stamp. -/
def StoredTare.facts (t : StoredTare) : WeighingFacts := { counter := t.counter, flags := noFlags, stamped := true }

/-- The stamp of a capture as a ticket carries it. -/
def stampOf : Option DateTime → WeighingStamp
  | none => .absent
  | some t => .stamp t

/-! ## Completion of a FIRST (R118) -/

/-- The entry that a capture opens (R116, R118). -/
def openedEntry (n : Nat) (kind : TxKind) (r : CaptureResult) : OpenEntry :=
  { number := n, kind := kind, vehicle := r.request.vehicle, cls := r.request.cls, commodity := r.request.commodity
    grade := r.request.grade, state := .standing, stale := false
    first :=
      { gross := r.gross, stamp := r.stamp, counter := r.counter, checksum := r.checksum, flags := r.flags
        verdict := r.verdict.vehicle, groups := r.verdict.groups } }

/-- The Open write (R112, R118). -/
def openWrite (ok : Bool) (kind : TxKind) (r : CaptureResult) (e : Ev) : Ev :=
  storeWrite ok .openEntry (fun s => s.setStore
    { s.store with
      entries := s.store.entries ++ [openedEntry (s.store.txCounter + 1) kind r]
      txCounter := s.store.txCounter + 1 }) e

/-- The completion of a FIRST; none is STORE_FAULT (R118). -/
def completeFirst (ok : Bool) (r : CaptureResult) (e : Ev) : Ev × Option Completion :=
  (openWrite ok (r.request.txKind.getD .receival) r e, if ok then some (.opened (e.st.store.txCounter + 1)) else none)

/-! ## Tickets (R127, R129) -/

/-- The notices of an issued ticket (R129). -/
def ticketNotes (number stored watermark : Nat) : List Notice :=
  [.ticketReady number stored] ++ (if stored = watermark then [.storeWatermark] else []) ++
    (if stored = 32 then [.storeFull] else [])

/-- The Issue write: the ticket at the rear, its counter, the reservation turned into the stored ticket, and `also` on
the store (R112, R129). -/
def issueWrite (ok : Bool) (t : Ticket) (also : Store → Store) (e : Ev) : Ev :=
  let e1 := storeWrite ok .issue (fun s => setReserved 0 (s.setStore (also
    { s.store with tickets := s.store.tickets ++ [t], ticketCounter := t.number }))) e
  e1.when ok (·.noteAll (ticketNotes t.number e1.st.store.tickets.length e1.st.site.ticket.watermark))

/-- The ticket of a SECOND (R127, R128). -/
def secondTicket (number : Nat) (entry : OpenEntry) (r : CaptureResult) (net : Int) : Ticket :=
  { number := number, tx := entry.number, kind := entry.kind, vehicle := entry.vehicle, cls := r.request.cls
    commodity := entry.commodity, grade := entry.grade
    first := { gross := entry.first.gross, stamp := stampOf entry.first.stamp, counter := entry.first.counter }
    second := { gross := r.gross, stamp := stampOf r.stamp, counter := r.counter }
    tareSource := .weighed, net := net
    reasons := tradeReasons r.status r.facts entry.first.facts net
    stale := entry.stale, degraded := entry.first.flags.degraded || r.flags.degraded
    verdict := r.verdict.vehicle, incomplete := r.verdict.reasons, groups := r.verdict.groups
    counter := r.counter, checksum := r.checksum }

/-- The ticket of a SINGLE_PASS with a usable stored tare (R125, R127). -/
def singlePassTicket (number tx : Nat) (tare : StoredTare) (r : CaptureResult) : Ticket :=
  let net := r.gross - tare.mass
  { number := number, tx := tx, kind := .receival, vehicle := r.request.vehicle, cls := r.request.cls
    commodity := r.request.commodity, grade := r.request.grade
    first := { gross := r.gross, stamp := stampOf r.stamp, counter := r.counter }
    second := { gross := tare.mass, stamp := .tareDate tare.date, counter := tare.counter }
    tareSource := .stored, net := net
    reasons := tradeReasons r.status r.facts tare.facts net
    stale := false, degraded := r.flags.degraded
    verdict := r.verdict.vehicle, incomplete := r.verdict.reasons, groups := r.verdict.groups
    counter := r.counter, checksum := r.checksum }

/-! ## Completion of a SECOND (R120) -/

/-- The net of the two weighings (R120). -/
def netOf (kind : TxKind) (first second : Int) : Int :=
  match kind with
  | .receival => first - second
  | .outturn => second - first

/-- The rework reason, when an OUTTURN is not ticketed (R120). -/
def reworkReason (kind : TxKind) (v : Verdict) (acceptIncomplete : Bool) : Option ReworkReason :=
  match kind, v.vehicle with
  | .receival, _ => none
  | .outturn, .compliant => none
  | .outturn, .overloaded => some .overloaded
  | .outturn, .incomplete => if acceptIncomplete then none else some (.incomplete v.reasons)

/-- The entries without the one with a number. -/
def removeEntry (n : Nat) (st : Store) : Store := { st with entries := st.entries.filter fun e => e.number != n }

/-- The entry with a number put into REWORK (R120). -/
def reworkEntry (n : Nat) (reason : ReworkReason) (st : Store) : Store :=
  { st with entries := st.entries.map fun e => if e.number = n then { e with state := .rework reason } else e }

/-- The completion of a SECOND; none is STORE_FAULT (R120). The entry is there: it can be removed only while no SECOND
names it (R121); were it missing, no write could name it and the model answers STORE_FAULT (log 29). -/
def completeSecond (ok : Bool) (r : CaptureResult) (e : Ev) : Ev × Option Completion :=
  match e.st.store.entry r.request.txNumber with
  | none => (e, none)
  | some entry =>
    match reworkReason entry.kind r.verdict r.request.acceptIncomplete with
    | some reason =>
      (storeWrite ok .rework (fun s => s.setStore (reworkEntry entry.number reason s.store)) e,
       if ok then some (.rework entry.number reason) else none)
    | none =>
      let t := secondTicket (e.st.store.ticketCounter + 1) entry r (netOf entry.kind entry.first.gross r.gross)
      (issueWrite ok t (removeEntry entry.number) e, if ok then some (.ticketIssued t.number entry.number) else none)

/-! ## Stored tares (R123, R124) and the completion of a TARE and a SINGLE_PASS -/

/-- Why a stored tare is not usable at a calendar value and event counter; none when it is usable (R124). -/
def tareUnusable (t : StoredTare) (now : Option DateTime) (validity counter : Nat) : Option FallbackReason :=
  match now with
  | none => some .tareUndated
  | some n =>
    let age := tareAge t.date n.date
    if age < 0 ∨ (validity : Int) < age then some .tareAged
    else if t.counter ≠ counter then some .tareCounter
    else none

/-- The fallback reason of a vehicle, or its usable tare (R124, R125). -/
def judgeTare (s : State) (v : Text) : StoredTare ⊕ FallbackReason :=
  match s.store.tareOf v with
  | none => .inr .noTare
  | some t =>
    match tareUnusable t s.cal.value s.site.ticket.tareValidity s.store.eventCounter with
    | none => .inl t
    | some r => .inr r

/-- The day number of the tare in a slot. -/
def tareDay (tares : Bank (Option StoredTare) 128) (i : Fin 128) : Nat :=
  match tares.get i with
  | none => 0
  | some t => t.date.dayNumber

/-- The slot whose tare date is oldest, ties going to the lowest slot number (R123). -/
def oldestTare (tares : Bank (Option StoredTare) 128) : Fin 128 :=
  allTares.foldl (fun best i => if tareDay tares i < tareDay tares best then i else best) 0

/-- The slot that a stored tare takes (R123). -/
def chooseSlot (st : Store) (v : Text) : Fin 128 :=
  match st.tareSlot v with
  | some i => i
  | none =>
    match allTares.find? fun i => (st.tares.get i).isNone with
    | some i => i
    | none => oldestTare st.tares

/-- The vehicle that a stored tare displaces (R123). -/
def displaced (st : Store) (v : Text) (i : Fin 128) : Option Text :=
  match st.tares.get i with
  | none => none
  | some t => if t.vehicle = v then none else some t.vehicle

/-- The reason set of a TARE's single weighing (R123, R128). -/
def tareReasons (r : CaptureResult) : TradeReasons := tradeReasons r.status r.facts r.facts 0

/-- The completion of a TARE; none is STORE_FAULT (R123). -/
def completeTare (ok : Bool) (r : CaptureResult) (e : Ev) : Ev × Option Completion :=
  let reasons := tareReasons r
  match reasons.list.any id || r.verdict.vehicle != .compliant, r.stamp with
  | false, some stamp =>
    let i := chooseSlot e.st.store r.request.vehicle
    let t : StoredTare :=
      { vehicle := r.request.vehicle, mass := r.gross, date := stamp.date, counter := r.counter }
    (storeWrite ok .tare (fun s => s.setStore { s.store with tares := s.store.tares.set i (some t) }) e,
     if ok then some (.tareStored (i.val + 1) (displaced e.st.store r.request.vehicle i)) else none)
  | _, _ => (e, some (.tareNotStored reasons))

/-- The completion of a SINGLE_PASS; none is STORE_FAULT (R125). -/
def completeSinglePass (ok : Bool) (r : CaptureResult) (e : Ev) : Ev × Option Completion :=
  let tx := e.st.store.txCounter + 1
  match judgeTare e.st r.request.vehicle with
  | .inl tare =>
    let t := singlePassTicket (e.st.store.ticketCounter + 1) tx tare r
    (issueWrite ok t (fun st => { st with txCounter := tx }) e, if ok then some (.ticketIssued t.number tx) else none)
  | .inr reason => (openWrite ok .receival r e, if ok then some (.fallbackTwoPass tx reason) else none)

/-- The completion of a kind by the transaction manager, or of an AXLE_CHECK by the capture controller; none is
STORE_FAULT (R107, R114). -/
def completeKind (ok : Bool) (r : CaptureResult) (e : Ev) : Ev × Option Completion :=
  match r.request.kind with
  | .axleCheck => (e, some .checked)
  | .first => if e.st.tm.storeFault then (e, none) else completeFirst ok r e
  | .second => if e.st.tm.storeFault then (e, none) else completeSecond ok r e
  | .singlePass => if e.st.tm.storeFault then (e, none) else completeSinglePass ok r e
  | .tare => if e.st.tm.storeFault then (e, none) else completeTare ok r e

/-! ## Hour and day events (R119, R124) -/

/-- An entry becomes STALE at an hour event (R119). -/
def goesStale (now : DateTime) (limit : Nat) (e : OpenEntry) : Bool :=
  match e.first.stamp with
  | none => false
  | some t => !e.stale && agedHours t now limit

/-- The entry with a number marked STALE. -/
def markStale (n : Nat) (st : Store) : Store :=
  { st with entries := st.entries.map fun e => if e.number = n then { e with stale := true } else e }

/-- One Stale write after the other; the first that fails ends the judging (R119). A missing outcome stands for a write
that verifies (log 7). -/
def staleWrites : List OpenEntry → List Bool → Ev → Ev
  | [], _, e => e
  | x :: r, oks, e =>
    if oks.headD true then
      staleWrites r oks.tail
        ((storeWrite true .stale (fun s => s.setStore (markStale x.number s.store)) e).note
          (.transactionStale x.number x.vehicle))
    else storeWrite false .stale id e

/-- The hour event (R119). -/
def hourEvent (oks : List Bool) (now : DateTime) (e : Ev) : Ev :=
  if e.st.tm.storeFault then e
  else
    staleWrites
      (sortBy (fun a b => decide (a.number ≤ b.number))
        (e.st.store.entries.filter (goesStale now e.st.site.ticket.staleness))) oks e

/-- The TARE_EXPIRED notices of a day event, in ascending slot number (R124). -/
def expiredTares (s : State) (now : DateTime) : List Notice :=
  allTares.filterMap fun i =>
    match s.store.tares.get i with
    | none => none
    | some t =>
      if tareAge t.date now.date = s.site.ticket.tareValidity + 1 then some (.tareExpired t.vehicle t.date) else none

/-! ## The requests -/

/-- Read Transaction (R122). -/
def readTransaction (n : Nat) (e : Ev) : Ev × Reply :=
  match e.st.store.entry n with
  | none => (e, Reply.bare .noSuchTransaction)
  | some x => (e, Reply.okWith (.transaction x))

/-- The state of an entry as listed (R122). -/
def EntryState.listed : EntryState → ListedState
  | standing => .standing
  | rework _ => .rework

/-- A listed entry (R122). -/
def OpenEntry.listing (x : OpenEntry) : TxListing :=
  { number := x.number, kind := x.kind, vehicle := x.vehicle, state := x.state.listed, stale := x.stale
    gross := x.first.gross }

/-- List Transactions (R122). -/
def listTransactions (start : Nat) (e : Ev) : Ev × Reply :=
  let found := sortBy (fun a b : OpenEntry => decide (a.number ≤ b.number))
    (e.st.store.entries.filter fun x => decide (start ≤ x.number))
  (e, Reply.okWith (.transactions e.st.store.entries.length ((found.take 16).map OpenEntry.listing)
    (decide (16 < found.length))))

/-- The slot holds a SECOND operation that names a transaction (R121). -/
def secondNames (slot : Slot) (n : Nat) : Bool :=
  match slot with
  | .capture op => decide (op.request.kind = .second) && op.request.txNumber == n
  | .free => false
  | .adjustment _ => false
  | .audit _ => false

/-- One Removal write, answered OK or STORE_FAULT (R112). -/
def removalWrite (ok : Bool) (f : Store → Store) (e : Ev) : Ev × Reply :=
  (storeWrite ok .removal (fun s => s.setStore (f s.store)) e, Reply.bare (if ok then .ok else .storeFault))

/-- Cancel Transaction (R121). -/
def cancelTransaction (ok : Bool) (n : Nat) (e : Ev) : Ev × Reply :=
  if e.st.tm.storeFault then (e, Reply.bare .storeFault)
  else if (e.st.store.entry n).isNone then (e, Reply.bare .noSuchTransaction)
  else if secondNames e.st.cap.slot n then (e, Reply.bare .busy)
  else removalWrite ok (removeEntry n) e

/-- Read Stored Tare (R126). The age is absent while the calendar is UNSET (log 28). -/
def readStoredTare (v : Text) (e : Ev) : Ev × Reply :=
  let s := e.st
  match s.store.tareSlot v, s.store.tareOf v with
  | some i, some t =>
    (e, Reply.okWith (.storedTare (i.val + 1) t (s.cal.value.map fun n => tareAge t.date n.date)
      (tareUnusable t s.cal.value s.site.ticket.tareValidity s.store.eventCounter)))
  | _, _ => (e, Reply.bare .noSuchEntry)

/-- The order of identifiers: character by character, a proper prefix before (R126). Characters compare by their ASCII
codes, which is the order hyphen, digits, letters; a starting identifier with other characters is compared in the same
way (log 46). -/
def textBefore : Text → Text → Bool
  | [], [] => false
  | [], _ :: _ => true
  | _ :: _, [] => false
  | a :: r, b :: r' => decide (a.toNat < b.toNat) || (a == b && textBefore r r')

/-- List Stored Tares (R126). -/
def listStoredTares (start : Text) (e : Ev) : Ev × Reply :=
  let all := e.st.store.tares.cells.filterMap id
  let found := sortBy (fun a b : StoredTare => !textBefore b.vehicle a.vehicle)
    (all.filter fun t => textBefore start t.vehicle)
  (e, Reply.okWith (.storedTares all.length (found.take 16) (decide (16 < found.length))))

/-- Delete Stored Tare (R126). -/
def deleteStoredTare (ok : Bool) (v : Text) (e : Ev) : Ev × Reply :=
  if e.st.tm.storeFault then (e, Reply.bare .storeFault)
  else match e.st.store.tareSlot v with
    | none => (e, Reply.bare .noSuchEntry)
    | some i => removalWrite ok (fun st => { st with tares := st.tares.set i none }) e

/-- Fetch Ticket (R131). -/
def fetchTicket (e : Ev) : Ev × Reply :=
  match e.st.store.tickets with
  | [] => (e, Reply.bare .empty)
  | t :: _ => (e, Reply.okWith (.ticket t))

/-- Release Ticket (R131). -/
def releaseTicket (ok : Bool) (n : Nat) (e : Ev) : Ev × Reply :=
  if e.st.tm.storeFault then (e, Reply.bare .storeFault)
  else match e.st.store.tickets with
    | [] => (e, Reply.bare .empty)
    | t :: _ =>
      if t.number ≠ n then (e, Reply.bare .badRequest)
      else removalWrite ok (fun st => { st with tickets := st.tickets.tail }) e

/-- The ticket settings lie in their ranges (R132). -/
def TicketSettings.inRange (t : TicketSettings) : Bool :=
  decide (1 ≤ t.watermark ∧ t.watermark ≤ 32 ∧ 1 ≤ t.tareValidity ∧ t.tareValidity ≤ 365 ∧ 1 ≤ t.staleness ∧
    t.staleness ≤ 720)

/-- Write Ticket Settings (R132). -/
def writeTicketSettings (ok : Bool) (t : TicketSettings) (e : Ev) : Ev × Reply :=
  if t.inRange then settingsWrite ok (fun s => s.setSite { s.site with ticket := t }) e
  else (e, Reply.bare .badRequest)

/-! ## The meanings -/

/-- READ_TRANSACTION (R122). -/
def execReadTransaction (p : List Byte) (s : State) : Host.Outcome State Fault Refusal :=
  requestWith 0xC0 (parseNat 4 p) readTransaction s

/-- LIST_TRANSACTIONS (R122). -/
def execListTransactions (p : List Byte) (s : State) : Host.Outcome State Fault Refusal :=
  requestWith 0xC1 (parseNat 4 p) listTransactions s

/-- CANCEL_TRANSACTION (R121). -/
def execCancelTransaction (p : List Byte) (ok : Bool) (s : State) : Host.Outcome State Fault Refusal :=
  requestWith 0xC2 (parseNat 4 p) (cancelTransaction ok) s

/-- READ_STORED_TARE (R126). -/
def execReadStoredTare (p : List Byte) (s : State) : Host.Outcome State Fault Refusal :=
  requestWith 0xC3 (parseText p) readStoredTare s

/-- LIST_STORED_TARES (R126). -/
def execListStoredTares (p : List Byte) (s : State) : Host.Outcome State Fault Refusal :=
  requestWith 0xC4 (parseText p) listStoredTares s

/-- DELETE_STORED_TARE (R126). -/
def execDeleteStoredTare (p : List Byte) (ok : Bool) (s : State) : Host.Outcome State Fault Refusal :=
  requestWith 0xC5 (parseText p) (deleteStoredTare ok) s

/-- FETCH_TICKET (R131). -/
def execFetchTicket (p : List Byte) (s : State) : Host.Outcome State Fault Refusal :=
  requestWith 0xC6 (parseEmpty p) (fun _ => fetchTicket) s

/-- RELEASE_TICKET (R131). -/
def execReleaseTicket (p : List Byte) (ok : Bool) (s : State) : Host.Outcome State Fault Refusal :=
  requestWith 0xC7 (parseNat 4 p) (releaseTicket ok) s

/-- WRITE_TICKET_SETTINGS (R132). -/
def execWriteTicketSettings (p : List Byte) (ok : Bool) (s : State) : Host.Outcome State Fault Refusal :=
  requestWith 0xC8 (parseTicketSettings p) (writeTicketSettings ok) s

end Sys2Proof.Machine
end

