-- ==== Sys2Proof/Machine/ZeroTracking.lean ====
section
/-! DEFINITION. The zero and motion unit (03_zero_and_motion.md): the window and its decisions, initial zero, zero
tracking, Set Zero and live indication. -/

namespace Sys2Proof.Machine

/-! ## The window and the decisions -/

/-- The window with a VALUE result at its rear, holding no more than `w` entries (R41). -/
def pushWindow {α : Type} (w : Nat) (window : List α) (x : α) : List α :=
  (window ++ [x]).drop ((window ++ [x]).length - w)

/-- The three decisions at settling clock `t` (R45). -/
def decide3 (c : MetroConfig) (window : List WindowEntry) (t : Nat) : Decisions :=
  let totals := window.map WindowEntry.total
  { profile1 := stableUnder c.window (band c.profile1 c.q t) totals
    profile2 := stableUnder c.window (band c.profile2 c.q t) totals
    zeroBand := stableUnder c.window (2 * c.q) totals }

/-- The settling clock after a VALUE sample event; at 60,000 it holds (R42). -/
def nextClock (t : Nat) : Nat := if t < 60000 then t + 1 else t

/-- The sample result taken by the unit: appended and decided at t, or a restart (R41, R42, R45, R54). -/
def takeResult (r : SampleResult) (s : State) : State :=
  let latest := some { result := r, sampleNumber := s.acq.sampleNumber, eHg := s.store.config.eHg }
  match r with
  | .value decks t _ _ =>
    let w := pushWindow s.store.config.window s.zm.window
      { total := t, decks := decks, sampleNumber := s.acq.sampleNumber }
    s.setZm
      { s.zm with
        window := w, decisions := decide3 s.store.config w s.zm.clock
        clock := nextClock s.zm.clock, latest := latest }
  | .scaleNotRunning | .uncalibrated | .deckDown _ =>
    let s1 := restart s
    s1.setZm { s1.zm with latest := latest, trackCount := 0 }

/-- The decision for a profile (R45, R48). -/
def Decisions.forProfile (d : Decisions) : ProfileNo → Bool
  | .one => d.profile1
  | .two => d.profile2

/-! ## Zero means and the rebase -/

/-- The zero mean of a deck: its window mean plus its offset (R46). -/
def zeroMean (s : State) (d : Deck) : Int := windowMean s.zm.window d + s.zm.offset.get d

/-- A value of every active deck. -/
def perActive {α : Type} (s : State) (f : Deck → α) : List (Deck × α) := s.store.config.activeDecks.map fun d => (d, f d)

/-- A window entry rebased by the rises of the offsets (R53). -/
def WindowEntry.rebase (rise : Deck → Int) (w : WindowEntry) : WindowEntry :=
  { w with
    decks := w.decks.map fun m => { m with mass := m.mass - rise m.deck }
    total := w.total - sumInt (w.decks.map fun m => rise m.deck) }

/-- New offsets, with the window rebased by what each rose (R53). -/
def setOffsets (new : Bank Int 4) (s : State) : State :=
  s.setZm
    { s.zm with
      offset := new
      window := s.zm.window.map (WindowEntry.rebase fun d => new.get d - s.zm.offset.get d) }

/-- Every active deck's zero mean lies within `range` of its centre. -/
def zeroWithin (s : State) (range : Nat) (centre : Deck → Int) : Bool :=
  s.store.config.activeDecks.all fun d => decide ((zeroMean s d - centre d).natAbs ≤ range)

/-- The zero means taken as offsets on the active decks; the other decks take `other`. -/
def zeroOffsets (s : State) (other : Deck → Int) : Bank Int 4 :=
  Bank.ofFn fun d => if s.store.config.active d then zeroMean s d else other d

/-- The zero set from ZERO_PENDING: offsets and initial zeros become the zero means, halts are clear, and ZERO_STATE
gives the offsets (R50, R51, R52). -/
def takeInitialZero (e : Ev) : Ev :=
  let z := zeroOffsets e.st fun _ => 0
  let e1 := e.upd fun s =>
    let s1 := setOffsets z s
    s1.setZm { s1.zm with initial := z, halt := Bank.fill 4 false, zeroState := .set }
  e1.note (.zeroState .set (perActive e1.st fun d => e1.st.zm.offset.get d))

/-- Initial zero at a VALUE sample event (R51). -/
def initialZero (e : Ev) : Ev :=
  let s := e.st
  if s.zm.zeroState = .pending ∧ s.axle.loopsClear = true ∧ s.zm.decisions.zeroBand = true then
    if zeroWithin s s.store.config.initialRange fun _ => 0 then takeInitialZero e
    else if s.zm.rangeReported then e
    else
      (e.upd fun s => s.setZm { s.zm with rangeReported := true }).note
        (.zeroRange (perActive s (zeroMean s)) s.store.config.initialRange)
  else e

/-! ## Zero tracking -/

/-- Every active deck's mass of the latest sample result lies within 2q (R54). -/
def massesWithin (s : State) : Bool :=
  match s.zm.latest with
  | some { result := .value decks _ _ _, .. } => decks.all fun m => decide (m.mass.natAbs ≤ 2 * s.store.config.q)
  | some { result := .deckDown _, .. } => false
  | some { result := .uncalibrated, .. } => false
  | some { result := .scaleNotRunning, .. } => false
  | none => false

/-- The tracking conditions (R54). -/
def trackingHolds (s : State) : Bool :=
  s.store.config.zeroTracking && decide (s.zm.zeroState = .set) && decide (s.axle.occupancy = .empty) &&
    s.axle.certain && decide (s.cap.slot = .free) && s.zm.decisions.zeroBand && massesWithin s

/-- A deck takes part in a tracking step: it is active and its halt is clear (R54). -/
def tracks (s : State) (d : Deck) : Bool := s.store.config.active d && !s.zm.halt.get d

/-- The offset that a deck's step would give: the offset plus the window mean clamped to q (R54). -/
def trackedOffset (s : State) (d : Deck) : Int :=
  s.zm.offset.get d + clamp s.store.config.q (windowMean s.zm.window d)

/-- A deck's step would pass the tracking range (R54). -/
def passesRange (s : State) (d : Deck) : Bool :=
  decide (s.store.config.trackingRange < (trackedOffset s d - s.zm.initial.get d).natAbs)

/-- The offset after a tracking step: the new offset, or the nearer edge of the range (R54). -/
def offsetAfterStep (s : State) (d : Deck) : Int :=
  if tracks s d then
    s.zm.initial.get d + clamp s.store.config.trackingRange (trackedOffset s d - s.zm.initial.get d)
  else s.zm.offset.get d

/-- A tracking step (R54), with ZERO_LIMIT for each deck that reaches its limit, in ascending deck number. -/
def trackingStep (e : Ev) : Ev :=
  let s := e.st
  let z := Bank.ofFn (offsetAfterStep s)
  let limited := allDecks.filter fun d => tracks s d && passesRange s d
  let e1 := e.upd fun s1 =>
    let s2 := setOffsets z s1
    s2.setZm { s2.zm with halt := Bank.ofFn fun d => s.zm.halt.get d || limited.contains d, trackCount := 0 }
  (e1.noteAll (limited.map fun d => .zeroLimit d (z.get d) (s.zm.initial.get d))).mark .trackingStep

/-- The tracking test at a VALUE sample event: the count rises, falls to 0, or at 50 takes a step (R54). -/
def tracking (e : Ev) : Ev :=
  if trackingHolds e.st then
    if 50 ≤ e.st.zm.trackCount + 1 then trackingStep e
    else e.upd fun s => s.setZm { s.zm with trackCount := s.zm.trackCount + 1 }
  else e.upd fun s => s.setZm { s.zm with trackCount := 0 }

/-- The result is a VALUE result. -/
def SampleResult.isValue : SampleResult → Bool
  | value .. => true
  | scaleNotRunning => false
  | uncalibrated => false
  | deckDown _ => false

/-- The zero and motion unit at a sample event: the result, then initial zero, then the tracking test (R41, R51, R54;
log 12). -/
def serveZero (r : SampleResult) (e : Ev) : Ev :=
  let e1 := e.upd (takeResult r)
  if r.isValue then tracking (initialZero e1) else e1

/-- ZERO_PENDING entered at a successful commit (R50): offsets, initial zeros, halts and the tracking count cleared, and
ZERO_STATE when the state changed. -/
def enterZeroPending (e : Ev) : Ev :=
  let was := e.st.zm.zeroState
  (e.upd fun s => s.setZm
    { s.zm with
      zeroState := .pending, offset := Bank.fill 4 0, initial := Bank.fill 4 0, halt := Bank.fill 4 false
      rangeReported := false, trackCount := 0 }).when (was != .pending) (·.note (.zeroState .pending []))

/-! ## The requests -/

/-- The latest sample result is VALUE. -/
def latestIsValue (s : State) : Bool :=
  match s.zm.latest with
  | some l => l.result.isValue
  | none => false

/-- Set Zero in ZERO_SET, its checks passed (R52). -/
def setZeroAgain (e : Ev) : Ev × Reply :=
  let s := e.st
  if zeroWithin s s.store.config.trackingRange s.zm.initial.get then
    let e1 := e.upd fun s =>
      let s1 := setOffsets (zeroOffsets s s.zm.offset.get) s
      s1.setZm { s1.zm with halt := Bank.fill 4 false, trackCount := 0 }
    (e1, Reply.okWith (.zeroSet (perActive e1.st e1.st.zm.offset.get)))
  else
    (e, { status := .range
          body := .zeroRange (perActive s (zeroMean s)) (perActive s s.zm.initial.get) s.store.config.trackingRange })

/-- Set Zero in ZERO_PENDING, its checks passed (R52). -/
def setZeroFirst (e : Ev) : Ev × Reply :=
  let s := e.st
  if zeroWithin s s.store.config.initialRange fun _ => 0 then
    let e1 := takeInitialZero e
    (e1, Reply.okWith (.zeroSet (perActive e1.st e1.st.zm.offset.get)))
  else
    (e, { status := .range
          body := .zeroRange (perActive s (zeroMean s)) (perActive s fun _ => 0) s.store.config.initialRange })

/-- Set Zero (R52). -/
def setZero (e : Ev) : Ev × Reply :=
  let s := e.st
  if s.acq.scale ≠ .run ∨ latestIsValue s = false then (e, Reply.bare .notReady)
  else if s.axle.occupancy ≠ .empty then (e, Reply.bare .bridgeOccupied)
  else if s.cap.slot ≠ .free then (e, Reply.bare .busy)
  else if s.zm.decisions.zeroBand = false then (e, Reply.bare .motion)
  else match s.zm.zeroState with
    | .set => setZeroAgain e
    | .pending => setZeroFirst e

/-- The outcome of a sample result, NO_SAMPLE when there is none (R55). -/
def weightOutcome : Option SampleResult → WeightOutcome
  | some (.value ..) => .value
  | some (.deckDown _) => .deckDown
  | some .scaleNotRunning => .scaleNotRunning
  | some .uncalibrated => .uncalibrated
  | none => .noSample

/-- The zone of a sample result in VALUE (R55). -/
def SampleResult.zone? : SampleResult → Option Zone
  | value _ _ _ zone => some zone
  | scaleNotRunning => none
  | uncalibrated => none
  | deckDown _ => none

/-- A deck in VALUE as Read Weight gives it: its mass rounded to e, in kg, on its own (R55). -/
def DeckMass.weight (eHg : Nat) (m : DeckMass) : Deck × DeckWeight :=
  (m.deck, .value (roundToKg eHg m.mass) m.substituted)

/-- A deck's entry as Read Weight gives it (R55). -/
def DeckResult.weight (eHg : Nat) : DeckResult → Deck × DeckWeight
  | value m => m.weight eHg
  | down d => (d, .down)

/-- The decks that Read Weight gives, with e as it stood when they were weighed (R55). -/
def LatestResult.decks (l : LatestResult) : List (Deck × DeckWeight) :=
  match l.result with
  | .value decks _ _ _ => decks.map (DeckMass.weight l.eHg)
  | .deckDown decks => decks.map (DeckResult.weight l.eHg)
  | .scaleNotRunning => []
  | .uncalibrated => []

/-- The fields of Read Weight (R55). The settling clock, the fill, the spread and the band are those that stand at the
request (log 27). -/
def weightFields (s : State) : WeightFields :=
  let c := s.store.config
  let r := s.zm.latest.map LatestResult.result
  { outcome := weightOutcome r
    indicated := r.bind indicatedMass
    zone := r.bind SampleResult.zone?
    stable := s.zm.decisions.profile1
    decks := (s.zm.latest.map LatestResult.decks).getD []
    halts := perActive s s.zm.halt.get
    zeroState := s.zm.zeroState
    clock := s.zm.clock
    fill := s.zm.window.length
    spread := if c.window ≤ s.zm.window.length then some (spread (s.zm.window.map WindowEntry.total)) else none
    band := band c.profile1 c.q s.zm.clock
    sampleNumber := s.zm.latest.map LatestResult.sampleNumber }

/-- Read Weight (R55). -/
def readWeight (e : Ev) : Ev × Reply := (e, Reply.okWith (.weight (weightFields e.st)))

/-! ## The meanings -/

/-- SET_ZERO (R52). -/
def execSetZero (p : List Byte) (s : State) : Host.Outcome State Fault Refusal :=
  requestWith 0x98 (parseEmpty p) (fun _ => setZero) s

/-- READ_WEIGHT (R55). -/
def execReadWeight (p : List Byte) (s : State) : Host.Outcome State Fault Refusal :=
  requestWith 0x99 (parseEmpty p) (fun _ => readWeight) s

end Sys2Proof.Machine
end

