-- ==== Sys2Proof/Machine/CaptureOps.lean ====
section
/-! DEFINITION. The capture controller (06_capture_operations.md): the operation slot, the course of whole and
composite captures, failures and completions, the lamps' events, and the requests of the chapter. -/

namespace Sys2Proof.Machine

/-! ## The slot -/

/-- What holds the slot replaced. -/
def setSlot (x : Slot) (s : State) : State := s.setCap { s.cap with slot := x }

/-- OPERATION_STATE for an operation as it stands (R97). -/
def opNote (op : Operation) : Notice := .operationState op.number op.state op.mode op.positions

/-- An operation fails (R104): discarded, its reservation released, the slot FREE, CAPTURE_FAILED. -/
def failOp (op : Operation) (reason : FailReason) (e : Ev) : Ev :=
  (e.upd fun s => setSlot .free (setReserved 0 s)).note
    (.captureFailed op.number op.request.kind reason op.positions)

/-- The exit lamp and the hold at a completion (R109). -/
def completionLamps (o : Completion) (s : State) : State :=
  match o with
  | .rework _ _ => s.setCap { s.cap with exitLamp := .red, reworkHold := true }
  | .tareNotStored _ => s
  | .checked => exitGreen s
  | .opened _ => exitGreen s
  | .ticketIssued _ _ => exitGreen s
  | .fallbackTwoPass _ _ => exitGreen s
  | .tareStored _ _ => exitGreen s

/-- An operation completes with its result formed (R107): the kind is completed, the reservation released, the slot
FREE, CAPTURE_RESULT sent, the lamps set; a failed write fails it with STORE_FAULT. -/
def completeOp (ok : Bool) (op : Operation) (r : CaptureResult) (e : Ev) : Ev :=
  let done := completeKind ok r e
  match done.2 with
  | none => failOp op .storeFault done.1
  | some o =>
    ((done.1.upd fun s => setSlot .free (setReserved 0 s)).note (.captureResult { r with outcome := o })).upd
      (completionLamps o)

/-! ## Results (R106) -/

/-- The class entry with a code. -/
def State.classEntry (s : State) (n : Nat) : ClassEntry :=
  match classOf n with
  | some i => s.site.classes.get i
  | none => defaultClass

/-- The capture result record, with everything that is read at the completion event (R106); the outcome is set by
`completeOp`. -/
def captureResult (s : State) (op : Operation) (grossKg : Int) (deckMeans : List Int) (flags : CaptureFlags)
    (v : Verdict) : CaptureResult :=
  { operation := op.number, request := op.request, gross := grossKg, deckMeans := deckMeans
    flags := { flags with degraded := s.cal.degraded }
    stamp := s.cal.value, status := s.metro.status, counter := s.store.eventCounter, checksum := s.store.checksum
    verdict := v, outcome := .checked }

/-- The capture mean of a deck (R16). -/
def State.mean (s : State) (d : Deck) : Int := windowMean s.zm.window d

/-- The captured bridge total (R17). -/
def State.capturedTotal (s : State) : Int := sumInt (s.store.config.activeDecks.map s.mean)

/-- The captured gross in hg (R17). -/
def State.capturedGross (s : State) : Int := roundTo s.store.config.eHg s.capturedTotal

/-- The active decks that carried SUBSTITUTED in the window (R17). -/
def State.substitutedDecks (s : State) : List Deck :=
  (windowSubstituted s.zm.window).filter s.store.config.active

/-- What the group evaluator forms of the map and the capture means as they stand (R79). -/
def State.judged (s : State) : Judged :=
  judge s.axle s.store.config s.site.limits s.site.treadle.groupGap s.mean s.substitutedDecks

/-! ## WHOLE mode (R98, R99) -/

/-- The state of a WHOLE-mode operation by occupancy and certainty (R98). -/
def wholeState (occ : Occupancy) (certain allowComposite : Bool) : OpState :=
  match occ with
  | .whole => .settling
  | .part => if certain && allowComposite then .settling else .awaitingVehicle
  | .empty => .awaitingVehicle

/-- The capture of a WHOLE-mode operation: judged by R18, given its verdict, completed (R99). -/
def takeWhole (ok : Bool) (op : Operation) (e : Ev) : Ev :=
  let s := e.st
  let c := s.store.config
  match rangeCheck c s.capturedGross with
  | .overload => failOp op .overload e
  | .underload => failOp op .underload e
  | .ok overMax belowMin =>
    let kg := s.capturedGross / 10
    let v := wholeVerdict s.axle s.judged op.request.cls (s.classEntry op.request.cls) kg
    let flags : CaptureFlags :=
      { noFlags with overMax := overMax, belowMin := belowMin, substituted := s.substitutedDecks != [] }
    completeOp ok op (captureResult s op kg (c.activeDecks.map fun d => roundToKg c.eHg (s.mean d)) flags v) e

/-! ## COMPOSITE mode (R100 to R102) -/

/-- Every axle from 1 to the entered count lies within a credited group's range, and entry-complete is set (R102). -/
def allCredited (m : AxleMap) (credited : List CreditedGroup) : Bool :=
  m.entryComplete && (List.range m.entered).all fun k =>
    credited.any fun g => decide (g.firstAxle ≤ k + 1 ∧ k + 1 ≤ g.lastAxle)

/-- The completion of a composite operation: the composite gross, its check, the composite verdict (R20, R92, R102). -/
def completeComposite (ok : Bool) (op : Operation) (e : Ev) : Ev :=
  let s := e.st
  let g := roundTo s.store.config.eHg (compositeMass op.credited)
  match rangeCheck s.store.config g with
  | .overload => failOp op .overload e
  | .underload => failOp op .underload e
  | .ok overMax belowMin =>
    let v := compositeVerdict op.credited s.axle.entered op.request.cls (s.classEntry op.request.cls) (g / 10)
    let flags : CaptureFlags :=
      { overMax := overMax, belowMin := belowMin, composite := true, positions := op.positions, degraded := false
        substituted := op.credited.any fun x => x.component.substituted }
    completeOp ok op (captureResult s op (g / 10) [] flags v) e

/-- The operation with a position's components credited (R100). -/
def Operation.credit (op : Operation) (comps : List Component) : Operation :=
  { op with
    positions := op.positions + 1, mode := .composite, timeoutCount := 0
    credited := op.credited ++ comps.flatMap (creditEntries (op.positions + 1)) }

/-- A position taken: POSITION_CAPTURED, then completion, POSITION_LIMIT or POSITION_WAIT (R100, R102). -/
def takePosition (ok : Bool) (op : Operation) (comps : List Component) (e : Ev) : Ev :=
  let op1 := op.credit comps
  let e1 := (e.upd (setSlot (.capture op1))).note
    (.positionCaptured op1.number op1.positions
      (comps.flatMap fun c => c.groups.map fun g => (g.firstAxle, g.lastAxle)))
  if allCredited e.st.axle op1.credited then completeComposite ok op1 e1
  else if 6 ≤ op1.positions then failOp op1 .positionLimit e1
  else
    let op2 := { op1 with state := OpState.positionWait }
    (e1.upd (setSlot (.capture op2))).note (opNote op2)

/-- A position sought: none when no component is creditable (R100). -/
def seekPosition (ok : Bool) (op : Operation) (e : Ev) : Option Ev :=
  let s := e.st
  match rangeCheck s.store.config s.capturedGross with
  | .overload => some (failOp op .overload e)
  | .underload => some (failOp op .underload e)
  | .ok _ _ =>
    match creditableComponents s.axle s.judged op.credited with
    | [] => none
    | c :: r => some (takePosition ok op (c :: r) e)

/-! ## At a sample event (R99, R100, R103) -/

/-- What a stable sample event takes of an operation in SETTLING; none when nothing is taken (R99, R100). -/
def tryCapture (ok : Bool) (op : Operation) (e : Ev) : Option Ev :=
  let m := e.st.axle
  if op.state ≠ .settling ∨ e.st.zm.decisions.forProfile op.profile = false then none
  else match op.mode with
    | .whole =>
      match m.occupancy with
      | .whole => some (takeWhole ok op e)
      | .part => if m.certain && op.request.allowComposite then seekPosition ok op e else none
      | .empty => none
    | .composite => if m.certain && decide (m.occupancy ≠ .empty) then seekPosition ok op e else none

/-- A sample result in DECK_DOWN. -/
def SampleResult.isDeckDown : SampleResult → Bool
  | deckDown _ => true
  | value .. => false
  | uncalibrated => false
  | scaleNotRunning => false

/-- The capture controller at a sample event: DECK_DOWN, then the capture or position, then the timeout (R103). -/
def serveOperation (ok : Bool) (r : SampleResult) (e : Ev) : Ev :=
  match e.st.cap.slot with
  | .capture op =>
    let op1 := { op with timeoutCount := op.timeoutCount + 1 }
    if r.isDeckDown then failOp op .deckDown e
    else match tryCapture ok op1 e with
      | some e1 => e1
      | none =>
        if op1.timeoutLimit ≤ op1.timeoutCount then (failOp op1 .unstableTimeout e).mark .unstableTimeout
        else e.upd (setSlot (.capture op1))
  | .free => e
  | .adjustment _ => e
  | .audit _ => e

/-! ## Reports of the axle map (R98, R101, R102) -/

/-- What the axle map unit reports to the capture controller at one event (R59, R68, R73): an axle crossing, a change to
UNCERTAIN with its cause, a change of occupancy or certainty, and whether occupancy became EMPTY. -/
structure MapReport where
  crossing : Bool
  loss : Option LossCause
  changed : Bool
  emptied : Bool
deriving DecidableEq, Repr

/-- An operation in POSITION_WAIT returns to SETTLING at an axle crossing (R101). -/
def resumeSettling (crossing : Bool) (op : Operation) (e : Ev) : Operation × Ev :=
  if crossing = true ∧ op.state = .positionWait then
    let op1 := { op with state := OpState.settling }
    (op1, (e.upd (setSlot (.capture op1))).note (opNote op1))
  else (op, e)

/-- A composite operation at a report (R102): the rows in their order. -/
def reportComposite (ok : Bool) (rep : MapReport) (op : Operation) (e : Ev) : Ev :=
  if (rep.crossing || rep.loss.isSome || rep.changed) = false then e
  else if allCredited e.st.axle op.credited then completeComposite ok op e
  else match rep.loss with
    | some .secondVehicle => failOp op .twoVehicles e
    | some _ => failOp op .mapUncertain e
    | none => if rep.emptied then failOp op .compositeIncomplete e else e

/-- A WHOLE-mode operation at a report (R98, R104). -/
def reportWhole (rep : MapReport) (op : Operation) (e : Ev) : Ev :=
  if rep.loss = some .secondVehicle then failOp op .twoVehicles e
  else if rep.changed then
    let m := e.st.axle
    let next := wholeState m.occupancy m.certain op.request.allowComposite
    if next = op.state then e
    else
      let op1 := { op with state := next }
      (e.upd (setSlot (.capture op1))).note (opNote op1)
  else e

/-- The capture controller takes a report (R98, R101, R102). -/
def reportToCapture (ok : Bool) (rep : MapReport) (e : Ev) : Ev :=
  match e.st.cap.slot with
  | .capture op =>
    let r := resumeSettling rep.crossing op e
    match r.1.mode with
    | .composite => reportComposite ok rep r.1 r.2
    | .whole => reportWhole rep r.1 r.2
  | .free => e
  | .adjustment _ => e
  | .audit _ => e

/-! ## The requests -/

/-- Timed work's limit, in sample events, from the capture timeout setting (R96). -/
def State.timeoutLimit (s : State) : Nat := s.cap.timeout * 50

/-- The operation counter advanced (R97). -/
def nextOpNumber (n : Nat) : Nat := if 65535 ≤ n then 1 else n + 1

/-- The operation record of an accepted request (R97). -/
def newOperation (s : State) (r : CaptureRequest) : Operation :=
  { number := nextOpNumber s.cap.opCounter, request := r, profile := (s.classEntry r.cls).profile
    timeoutLimit := s.timeoutLimit, timeoutCount := 0
    state := wholeState s.axle.occupancy s.axle.certain r.allowComposite
    mode := .whole, positions := 0, credited := [] }

/-- A Start Capture accepted (R97, R130). -/
def acceptCapture (r : CaptureRequest) (e : Ev) : Ev × Reply :=
  let op := newOperation e.st r
  let e1 := e.upd fun s =>
    let s1 := s.setCap { s.cap with slot := .capture op, opCounter := op.number }
    if r.kind.reserves then setReserved 1 s1 else s1
  (e1.note (opNote op), { status := .accepted, body := .operation op.number })

/-- The latest sample result is DECK_DOWN (R95). -/
def latestIsDeckDown (s : State) : Bool :=
  match s.zm.latest with
  | some l => l.result.isDeckDown
  | none => false

/-- The checks of R95, in order; none when all pass. -/
def captureChecks (s : State) (r : CaptureRequest) : Option Status :=
  match slotHeld s.cap.slot with
  | some st => some st
  | none =>
    if s.acq.scale ≠ .run ∨ s.zm.zeroState ≠ .set ∨ s.metro.valid = false then some .notReady
    else if latestIsDeckDown s then some .deckDown
    else tmChecks s r

/-- Start Capture (R94, R95, R97). -/
def startCapture (f : CaptureFields) (e : Ev) : Ev × Reply :=
  match f.request with
  | none => (e, Reply.bare .badRequest)
  | some r =>
    if (e.st.classEntry r.cls).inUse = false then (e, Reply.bare .badRequest)
    else match captureChecks e.st r with
      | some st => (e, Reply.bare st)
      | none => acceptCapture r e

/-- Cancel Operation (R105). -/
def cancelOperation (n : Nat) (e : Ev) : Ev × Reply :=
  match e.st.cap.slot with
  | .capture op => if op.number = n then (failOp op .cancelled e, Reply.bare .ok) else (e, Reply.bare .noSuchEntry)
  | .free => (e, Reply.bare .noSuchEntry)
  | .adjustment _ => (e, Reply.bare .noSuchEntry)
  | .audit _ => (e, Reply.bare .noSuchEntry)

/-- Release Vehicle (R110). -/
def releaseVehicle (e : Ev) : Ev × Reply := (e.upd exitGreen, Reply.bare .ok)

/-- Write Capture Settings (R96). -/
def writeCaptureSettings (t : Nat) (e : Ev) : Ev × Reply :=
  if 5 ≤ t ∧ t ≤ 120 then (e.upd fun s => s.setCap { s.cap with timeout := t }, Reply.bare .ok)
  else (e, Reply.bare .badRequest)

/-! ## The meanings -/

/-- START_CAPTURE (R94, R95, R97). -/
def execStartCapture (p : List Byte) (s : State) : Host.Outcome State Fault Refusal :=
  requestWith 0xB0 (parseCapture p) startCapture s

/-- CANCEL_OPERATION (R105). -/
def execCancelOperation (p : List Byte) (s : State) : Host.Outcome State Fault Refusal :=
  requestWith 0xB1 (parseNat 2 p) cancelOperation s

/-- RELEASE_VEHICLE (R110). -/
def execReleaseVehicle (p : List Byte) (s : State) : Host.Outcome State Fault Refusal :=
  requestWith 0xB2 (parseEmpty p) (fun _ => releaseVehicle) s

/-- WRITE_CAPTURE_SETTINGS (R96). -/
def execWriteCaptureSettings (p : List Byte) (s : State) : Host.Outcome State Fault Refusal :=
  requestWith 0xB3 (parseNat 1 p) writeCaptureSettings s

end Sys2Proof.Machine
end

