-- ==== Sys2Proof/Machine/AxleCrossings.lean ====
section
/-! DEFINITION. The axle map unit (04_the_axle_map.md): treadle lines and crossings, axle records, the deck lists, the
loops, certainty, occupancy, and the requests and events of the chapter. -/

namespace Sys2Proof.Machine

/-! ## Occupancy and reports (R73) -/

/-- Occupancy formed anew, with OCCUPANCY when it or the certainty changed against `m0`, the map before the event, the
exit lamp RED when it became EMPTY, and the report to the capture controller (R73, R98, R102, R109). A completion that
the report makes comes after the occupancy, so the exit lamp is then the completion's (log 51). -/
def formOccupancy (ok : Bool) (m0 : AxleMap) (crossing : Bool) (loss : Option LossCause) (e : Ev) : Ev :=
  let occ := occupancyOf e.st.axle e.st.zm.latest e.st.store.config.eHg
  let changed := occ != m0.occupancy || e.st.axle.certain != m0.certain
  let emptied := occ == .empty && m0.occupancy != .empty
  let e1 := e.upd fun s =>
    let s1 := s.setAxle { s.axle with occupancy := occ }
    if emptied then s1.setCap { s1.cap with exitLamp := .red } else s1
  let e2 := e1.when changed (·.note (.occupancy occ e.st.axle.certain m0.occupancy))
  reportToCapture ok { crossing := crossing, loss := loss, changed := changed, emptied := emptied } e2

/-! ## Certainty (R68, R70) -/

/-- The vehicle record cleared (R70). -/
def AxleMap.clearVehicle (m : AxleMap) : AxleMap :=
  { m with entered := 0, exitedCount := 0, entryComplete := false, reversal := false, exited := [] }

/-- The vehicle record cleared when the map is CERTAIN and empty and both loops are clear (R70). -/
def AxleMap.clearIfGone (m : AxleMap) : AxleMap :=
  if m.certain && m.isEmpty && m.loopsClear then m.clearVehicle else m

/-- A treadle line changed. -/
def AxleMap.setLine (i : LineNo) (l : TreadleLine) (m : AxleMap) : AxleMap := { m with lines := m.lines.set i l }

/-- Every pairing state IDLE (R68). -/
def AxleMap.idlePairings (m : AxleMap) : AxleMap :=
  { m with lines := m.lines.map fun l => { l with pairing := .idle } }

/-- The map become UNCERTAIN: every list empty, the vehicle record clear, the counts 0 (R68). -/
def AxleMap.lose (cause : LossCause) (m : AxleMap) : AxleMap :=
  { m.clearVehicle with
    decks := Bank.fill 4 [], certain := false, cause := cause, hiddenCount := 0, recoveryCount := 0 }

/-- A loss of certainty (R68): from CERTAIN the map becomes UNCERTAIN with AXLE_INCONSISTENT; while UNCERTAIN only the
recovery count becomes 0. -/
def loseCertainty (cause : LossCause) (line : Option LineNo) (e : Ev) : Ev :=
  if e.st.axle.certain then
    (e.upd fun s => s.setAxle (s.axle.lose cause)).note (.axleInconsistent cause line)
  else e.upd fun s => s.setAxle { s.axle with recoveryCount := 0 }

/-- The loss that an event found, for its report: none while the map was UNCERTAIN already (R68). -/
def lossOf (m0 : AxleMap) (cause : Option LossCause) : Option LossCause := if m0.certain then cause else none

/-! ## Axle records (R61, R63) -/

/-- A decoded crossing: its line and direction, the stamps of the element A and of its end, and its Δt (R59). -/
structure Crossing where
  line : LineNo
  dir : Direction
  opened : Nat
  dt : Nat
deriving DecidableEq, Repr

/-- The speed of a crossing, in 0.1 km/h (R61). -/
def crossingSpeed (separation dt : Nat) : Option Nat :=
  if dt = 0 then none else some (roundDiv (36 * separation : Nat) dt).toNat

/-- The record with an axle number, wherever it is on the map (R63). -/
def AxleMap.record (m : AxleMap) (n : Nat) : Option Axle :=
  (m.exited ++ allDecks.flatMap m.decks.get).find? fun a => a.number == n

/-- The spacing of a new record, in cm (R63). -/
def spacingOf (separation : Nat) (ahead : Option Axle) (reEntered : Bool) (entry dt : Nat) : Option Nat :=
  match ahead with
  | none => none
  | some a =>
    if reEntered || a.reEntered || dt == 0 then none
    else some (min 65535 (roundDiv (separation * ((entry : Int) - a.entryTime)) (10 * dt)).toNat)

/-- The record that a line-0 forward crossing creates as axle `n` (R63, R67). -/
def newAxle (m : AxleMap) (separation n : Nat) (c : Crossing) : Axle :=
  let speed := crossingSpeed separation c.dt
  let spacing := if n ≤ 1 then none else spacingOf separation (m.record (n - 1)) m.reversal c.opened c.dt
  { number := n, entryTime := c.opened, entrySpeed := speed, spacing := spacing
    speedHigh := decide (200 < speed.getD 0), reEntered := m.reversal
    uncertainBoundary := decide (1 < n) && spacing.isNone }

/-! ## The lists (R64 to R67) -/

/-- A list's last member taken off. -/
def takeRear {α : Type} (l : List α) : Option (α × List α) :=
  match l.getLast? with
  | none => none
  | some a => some (a, l.dropLast)

/-- What a crossing does to a CERTAIN map: the map after it and the axle it moved, or the loss that it finds. -/
inductive CrossingEffect where
  | moved (m : AxleMap) (axle : Nat)
  | lost (cause : LossCause)
deriving DecidableEq, Repr

/-- An axle added at line 0 (R65). -/
def addAxle (separation : Nat) (c : Crossing) (m : AxleMap) : CrossingEffect :=
  let a := newAxle m separation (m.entered + 1) c
  .moved
    { m with decks := m.decks.set 0 (m.decks.get 0 ++ [a]), entered := m.entered + 1, reversal := false } a.number

/-- A line-0 forward crossing, by the checks of R67 in their order. -/
def enterAxle (separation : Nat) (c : Crossing) (m : AxleMap) : CrossingEffect :=
  if m.entryComplete && !m.isEmpty then .lost .secondVehicle
  else if m.entryComplete then addAxle separation c m.clearVehicle
  else if 24 ≤ m.entered then .lost .overflow
  else addAxle separation c m

/-- The deck before a joint: line k lies between deck k and deck k + 1 (00_scope.md, Treadle lines). -/
def deckBefore (line : Nat) : Deck := Fin.ofNat 4 (line - 1)

/-- The deck after a joint. -/
def deckAfter (line : Nat) : Deck := Fin.ofNat 4 line

/-- A forward crossing at line k, 0 < k < N (R65). -/
def forwardJoint (k : Nat) (m : AxleMap) : CrossingEffect :=
  match m.decks.get (deckBefore k) with
  | [] => .lost .phantom
  | a :: r =>
    let d1 := m.decks.set (deckBefore k) r
    .moved { m with decks := d1.set (deckAfter k) (d1.get (deckAfter k) ++ [a]) } a.number

/-- A forward crossing at line N (R65). -/
def forwardExit (n : Nat) (m : AxleMap) : CrossingEffect :=
  match m.decks.get (deckBefore n) with
  | [] => .lost .phantom
  | a :: r =>
    .moved
      { m with decks := m.decks.set (deckBefore n) r, exited := m.exited ++ [a], exitedCount := m.exitedCount + 1 }
      a.number

/-- A backward crossing at line 0 (R66). -/
def backwardEntry (m : AxleMap) : CrossingEffect :=
  match takeRear (m.decks.get 0) with
  | none => .lost .phantom
  | some (a, r) =>
    .moved
      { m with decks := m.decks.set 0 r, entered := m.entered - 1, reversal := true, entryComplete := false } a.number

/-- A backward crossing at line k, 0 < k < N (R66). -/
def backwardJoint (k : Nat) (m : AxleMap) : CrossingEffect :=
  match takeRear (m.decks.get (deckAfter k)) with
  | none => .lost .phantom
  | some (a, r) =>
    let d1 := m.decks.set (deckAfter k) r
    .moved { m with decks := d1.set (deckBefore k) (a :: d1.get (deckBefore k)) } a.number

/-- A backward crossing at line N (R66). -/
def backwardExit (n : Nat) (m : AxleMap) : CrossingEffect :=
  match takeRear m.exited with
  | none => .lost .phantom
  | some (a, r) =>
    .moved
      { m with
        exited := r, exitedCount := m.exitedCount - 1
        decks := m.decks.set (deckBefore n) (a :: m.decks.get (deckBefore n)) } a.number

/-- A crossing applied to a CERTAIN map with N active decks (R65, R66, R67). -/
def crossingEffect (n separation : Nat) (c : Crossing) (m : AxleMap) : CrossingEffect :=
  match c.dir with
  | .forward =>
    if c.line.val = 0 then enterAxle separation c m
    else if c.line.val < n then forwardJoint c.line.val m
    else forwardExit n m
  | .backward =>
    if c.line.val = 0 then backwardEntry m
    else if c.line.val < n then backwardJoint c.line.val m
    else backwardExit n m

/-- The crossings after which the vehicle record may be cleared: line 0 backward and line N forward (R65, R66, R70). -/
def mayClear (n : Nat) (c : Crossing) : Bool :=
  match c.dir with
  | .forward => decide (c.line.val = n) && decide (0 < c.line.val)
  | .backward => decide (c.line.val = 0)

/-- A PHANTOM's fault code and TREADLE_FAULT (R68). -/
def phantomFault (line : LineNo) (e : Ev) : Ev :=
  (e.upd fun s => s.setAxle (s.axle.setLine line { s.axle.lines.get line with code := .phantom })).note
    (.treadleFault line .phantom)

/-- A crossing applied to the map, or only decoded while it is UNCERTAIN (R59, R65 to R68): the event, the axle number
for its notice, and the loss it found. -/
def applyCrossing (c : Crossing) (e : Ev) : Ev × Option Nat × Option LossCause :=
  let s := e.st
  let n := s.store.config.deckCount
  if !s.axle.certain then (e, none, none)
  else match crossingEffect n s.site.treadle.separation c s.axle with
    | .moved m a => (e.upd fun s => s.setAxle (if mayClear n c then m.clearIfGone else m), some a, none)
    | .lost cause =>
      let e1 := if cause = .phantom then phantomFault c.line e else e
      (loseCertainty cause (some c.line) e1, none, some cause)

/-- A decoded crossing (R59, R43): the map, AXLE_CROSSING, the restart of the window, occupancy and the report. -/
def decodeCrossing (ok : Bool) (c : Crossing) (e : Ev) : Ev :=
  let m0 := e.st.axle
  let r := applyCrossing c e
  let e1 := r.1.note
    (.axleCrossing c.line c.dir (crossingSpeed e.st.site.treadle.separation c.dt) r.2.1 r.1.st.axle.certain)
  formOccupancy ok m0 true r.2.2 (e1.upd restart)

/-! ## Pairing (R59) -/

/-- What an activation makes of a pairing state: the state after it, and the crossing it completes with the stamps of
the element A (forward) and Δt. -/
structure PairStep where
  next : Pairing
  crossing : Option (Direction × Nat × Nat)
deriving DecidableEq, Repr

/-- A partner stamped at t0 + 1,000 ms or earlier makes a crossing, with its stamp minus t0 as Δt; a later one is
absorbed (R59). A partner stamped before t0, which no line in time order has, gets a Δt of 0 (log 5). -/
def partner (dir : Direction) (t0 stamp : Nat) (guard : Pairing) : PairStep :=
  if stamp ≤ t0 + 1000 then { next := .idle, crossing := some (dir, t0, stamp - t0) }
  else { next := guard, crossing := none }

/-- The pairing table of R59. -/
def pairStep (p : Pairing) (el : Element) (stamp : Nat) : PairStep :=
  match p, el with
  | .idle, .a => { next := .openA stamp, crossing := none }
  | .idle, .b => { next := .openB stamp, crossing := none }
  | .openA t0, .a => { next := .openA t0, crossing := none }
  | .openA t0, .b => partner .forward t0 stamp (.guardA t0)
  | .openB t0, .a => partner .backward t0 stamp (.guardB t0)
  | .openB t0, .b => { next := .openB t0, crossing := none }
  | .guardA t0, .a => { next := .guardA t0, crossing := none }
  | .guardA t0, .b => partner .forward t0 stamp (.guardA t0)
  | .guardB t0, .a => partner .backward t0 stamp (.guardB t0)
  | .guardB t0, .b => { next := .guardB t0, crossing := none }

/-- The level of an element. -/
def TreadleLine.level (l : TreadleLine) : Element → Bool
  | .a => l.levelA
  | .b => l.levelB

/-- A line with an element's level set. -/
def TreadleLine.setLevel (el : Element) (x : Bool) (l : TreadleLine) : TreadleLine :=
  match el with
  | .a => { l with levelA := x }
  | .b => { l with levelB := x }

/-- An activation decoded on its line (R59). -/
def decodeActivation (ok : Bool) (line : LineNo) (el : Element) (stamp : Nat) (e : Ev) : Ev :=
  let l := e.st.axle.lines.get line
  let p := pairStep l.pairing el stamp
  let e1 := e.upd fun s => s.setAxle (s.axle.setLine line { l with pairing := p.next })
  match p.crossing with
  | none => e1
  | some (dir, t0, dt) => decodeCrossing ok { line := line, dir := dir, opened := t0, dt := dt } e1

/-- An activation (R58): the level, the wake at line 0 (R24), the decoding on a decoded line by the stamp that it
carries, also where the end of the window was taken before it (R59). The time base never runs back (log 5). An element
that is ACTIVE already has no activation (log 4). SCALE_STATE of a wake is sent before AXLE_CROSSING and OCCUPANCY,
which no rule orders (log 14). -/
def activation (ok : Bool) (line : LineNo) (el : Element) (stamp : Nat) (e : Ev) : Ev :=
  let l := e.st.axle.lines.get line
  if l.level el then e
  else
    let e1 := e.upd fun s => s.setAxle
      { s.axle.setLine line (l.setLevel el true) with timeBase := max stamp s.axle.timeBase }
    let e2 := e1.when (decide (line.val = 0)) wake
    e2.when (e2.st.decoded line) (decodeActivation ok line el stamp)

/-- An element's change to CLEAR: only the level (R58). -/
def elementClear (line : LineNo) (el : Element) (e : Ev) : Ev :=
  e.upd fun s => s.setAxle (s.axle.setLine line ((s.axle.lines.get line).setLevel el false))

/-- The pairing with GUARD reached at t0 + 1,000 ms (R59), and the time of it. -/
def guarded : Pairing → Option (Pairing × Nat)
  | .openA t0 => some (.guardA t0, t0 + 1000)
  | .openB t0 => some (.guardB t0, t0 + 1000)
  | .idle => none
  | .guardA _ => none
  | .guardB _ => none

/-- An open pairing reaches t0 + 1,000 ms (R59); a line without one has nothing to reach (log 4). -/
def pairingGuard (line : LineNo) (e : Ev) : Ev :=
  let l := e.st.axle.lines.get line
  match guarded l.pairing with
  | none => e
  | some (p, t) => e.upd fun s => s.setAxle
    { s.axle.setLine line { l with pairing := p } with timeBase := max t s.axle.timeBase }

/-- The element that opened a guarded pairing and its opening time (R60). -/
def guardOpener : Pairing → Option (Element × Nat)
  | .guardA t0 => some (.a, t0)
  | .guardB t0 => some (.b, t0)
  | .idle => none
  | .openA _ => none
  | .openB _ => none

/-- A pairing reaches t0 + 1,500 ms without a partner (R60): fault code, TREADLE_FAULT, loss of certainty. -/
def singleElementFault (line : LineNo) (e : Ev) : Ev :=
  let m0 := e.st.axle
  let l := m0.lines.get line
  match guardOpener l.pairing with
  | none => e
  | some (el, t0) =>
    let e1 := (e.upd fun s => s.setAxle
      { s.axle.setLine line { l with pairing := .idle, code := .singleElement } with
        timeBase := max (t0 + 1500) s.axle.timeBase }).note (.treadleFault line (.singleElement el))
    formOccupancy true m0 false (lossOf m0 (some .singleElement)) (loseCertainty .singleElement (some line) e1)

/-! ## The loops (R69) -/

/-- The level of a loop. -/
def AxleMap.loop (m : AxleMap) : Loop → Bool
  | .entry => m.loopEntry
  | .exit => m.loopExit

/-- The map with a loop's level set, entry-complete set when the entry loop goes clear behind a vehicle, and the vehicle
record cleared when a loop goes clear behind an empty map (R69, R70). -/
def AxleMap.loopChange (lp : Loop) (active : Bool) (m : AxleMap) : AxleMap :=
  let m1 := match lp with
    | .entry => { m with loopEntry := active }
    | .exit => { m with loopExit := active }
  let m2 := if lp = .entry ∧ active = false ∧ m1.certain = true ∧ 1 ≤ m1.entered then
      { m1 with entryComplete := true } else m1
  if active then m2 else m2.clearIfGone

/-- A loop change (R69): the map, the wake, the restart, occupancy. A level that the loop has already is no change
(log 4). SCALE_STATE of a wake is sent before OCCUPANCY, which no rule orders (log 14). -/
def loopChange (ok : Bool) (lp : Loop) (active : Bool) (e : Ev) : Ev :=
  let m0 := e.st.axle
  if m0.loop lp = active then e
  else
    let e1 := e.upd fun s => s.setAxle (s.axle.loopChange lp active)
    let e2 := e1.when (decide (lp = .entry) && active) wake
    formOccupancy ok m0 false none (e2.upd restart)

/-! ## At a sample event (R71 to R73) -/

/-- The bridge total of a VALUE result. -/
def SampleResult.total? : SampleResult → Option Int
  | value _ t _ _ => some t
  | scaleNotRunning => none
  | uncalibrated => none
  | deckDown _ => none

/-- The hidden-load test (R71). -/
def hiddenLoadHolds (m : AxleMap) (eHg : Nat) (t : Int) : Bool :=
  m.isEmpty && m.loopsClear && decide (20 * eHg < t.natAbs)

/-- The recovery test (R72). -/
def recoveryHolds (m : AxleMap) (eHg : Nat) (t : Int) : Bool := m.loopsClear && decide (t.natAbs ≤ 20 * eHg)

/-- The hidden-load count at a sample event on a CERTAIN map (R71). -/
def serveHiddenLoad (r : SampleResult) (e : Ev) : Ev × Option LossCause :=
  let m := e.st.axle
  let holds := match r.total? with
    | some t => hiddenLoadHolds m e.st.store.config.eHg t
    | none => false
  if !holds then (e.upd fun s => s.setAxle { s.axle with hiddenCount := 0 }, none)
  else if 50 ≤ m.hiddenCount + 1 then ((loseCertainty .hiddenLoad none e).mark .hiddenLoad, some .hiddenLoad)
  else (e.upd fun s => s.setAxle { s.axle with hiddenCount := s.axle.hiddenCount + 1 }, none)

/-- The recovery count at a sample event on an UNCERTAIN map (R72). -/
def serveRecovery (r : SampleResult) (e : Ev) : Ev :=
  let m := e.st.axle
  let holds := match r.total? with
    | some t => recoveryHolds m e.st.store.config.eHg t
    | none => false
  if !holds then e.upd fun s => s.setAxle { s.axle with recoveryCount := 0 }
  else if 50 ≤ m.recoveryCount + 1 then
    (e.upd fun s => s.setAxle { s.axle with certain := true, recoveryCount := 0 }).mark .mapRecovery
  else e.upd fun s => s.setAxle { s.axle with recoveryCount := s.axle.recoveryCount + 1 }

/-- The axle map unit at a sample event (R71, R72, R73). -/
def serveMap (ok : Bool) (r : SampleResult) (e : Ev) : Ev :=
  let m0 := e.st.axle
  if m0.certain then
    let h := serveHiddenLoad r e
    formOccupancy ok m0 false h.2 h.1
  else formOccupancy ok m0 false none (serveRecovery r e)

/-! ## The commit and the resets (R68, R75) -/

/-- The map at a successful commit: UNCERTAIN with cause CONFIGURATION, every pairing IDLE; no notice while UNCERTAIN
already, and the cause of the latest loss then stands (R68, log 40). Occupancy is formed anew at the commit in either
case, with the new e and the latest total (log 43). -/
def commitMap (e : Ev) : Ev :=
  let m0 := e.st.axle
  let e1 := if m0.certain then loseCertainty .configuration none e
    else e.upd fun s => s.setAxle { s.axle with hiddenCount := 0, recoveryCount := 0 }
  formOccupancy true m0 false (lossOf m0 (some .configuration))
    (e1.upd fun s => s.setAxle s.axle.idlePairings)

/-! ## The requests -/

/-- The treadle settings lie in their ranges (R57). -/
def TreadleSettings.inRange (t : TreadleSettings) : Bool :=
  decide (100 ≤ t.separation ∧ t.separation ≤ 500 ∧ 2 ≤ t.filterTime ∧ t.filterTime ≤ 30 ∧ 180 ≤ t.groupGap ∧
    t.groupGap ≤ 300)

/-- Write Treadle Settings (R57). -/
def writeTreadleSettings (ok : Bool) (t : TreadleSettings) (e : Ev) : Ev × Reply :=
  if t.inRange then settingsWrite ok (fun s => s.setSite { s.site with treadle := t }) e
  else (e, Reply.bare .badRequest)

/-- What Read Treadles reports of a line (R62). The pairing state is given with its opening time, and in GUARD with the
element that opened it (log 44). -/
def lineFields (s : State) (i : LineNo) : LineFields :=
  let l := s.axle.lines.get i
  { decoded := s.decoded i, levelA := l.levelA, levelB := l.levelB
    pairing := if s.decoded i then some l.pairing else none, code := l.code }

/-- Read Treadles: the fields as they stand, and every last fault code becomes NO_NEW (R62). -/
def readTreadles (e : Ev) : Ev × Reply :=
  let s := e.st
  (e.upd fun s => s.setAxle { s.axle with lines := s.axle.lines.map fun l => { l with code := .noNew } },
   Reply.okWith (.treadles
    { settings := s.site.treadle, loopEntry := s.axle.loopEntry, loopExit := s.axle.loopExit
      lines := Bank.ofFn (lineFields s) }))

/-- Read Axle Map (R74). -/
def readAxleMap (e : Ev) : Ev × Reply :=
  let s := e.st
  let m := s.axle
  (e, Reply.okWith (.axleMap
    { certain := m.certain, cause := m.cause, occupancy := m.occupancy, hiddenCount := m.hiddenCount
      recoveryCount := m.recoveryCount, entered := m.entered, exitedCount := m.exitedCount
      entryComplete := m.entryComplete, reversal := m.reversal
      activeDecks := if s.metro.valid then some s.store.config.deckCount else none
      decks := if s.metro.valid then some (s.store.config.activeDecks.map m.decks.get) else none
      exited := m.exited }))

/-! ## The meanings -/

/-- ACTIVATION (R58, R59). -/
def execActivation (line : LineNo) (el : Element) (stamp : Nat) (ok : Bool) (s : State) :
    Host.Outcome State Fault Refusal := event (activation ok line el stamp) s

/-- ELEMENT_CLEAR (R58). -/
def execElementClear (line : LineNo) (el : Element) (s : State) : Host.Outcome State Fault Refusal :=
  event (elementClear line el) s

/-- PAIRING_GUARD (R59). -/
def execPairingGuard (line : LineNo) (s : State) : Host.Outcome State Fault Refusal := event (pairingGuard line) s

/-- SINGLE_ELEMENT_FAULT (R60). -/
def execSingleElementFault (line : LineNo) (s : State) : Host.Outcome State Fault Refusal :=
  event (singleElementFault line) s

/-- LOOP_CHANGE (R69). -/
def execLoopChange (lp : Loop) (active ok : Bool) (s : State) : Host.Outcome State Fault Refusal :=
  event (loopChange ok lp active) s

/-- WRITE_TREADLE_SETTINGS (R57). -/
def execWriteTreadleSettings (p : List Byte) (ok : Bool) (s : State) : Host.Outcome State Fault Refusal :=
  requestWith 0xA0 (parseTreadle p) (writeTreadleSettings ok) s

/-- READ_TREADLES (R62). -/
def execReadTreadles (p : List Byte) (s : State) : Host.Outcome State Fault Refusal :=
  requestWith 0xA1 (parseEmpty p) (fun _ => readTreadles) s

/-- READ_AXLE_MAP (R74). -/
def execReadAxleMap (p : List Byte) (s : State) : Host.Outcome State Fault Refusal :=
  requestWith 0xA2 (parseEmpty p) (fun _ => readAxleMap) s

end Sys2Proof.Machine
end

