-- ==== Sys2Proof/Machine/Metrology.lean ====
section
/-! DEFINITION. The metrology unit (08_metrology_configuration_and_status.md): the calibration switch, the adjustment
session, calibration captures, the commit, the trail, and the requests of the chapter. -/

namespace Sys2Proof.Machine

/-! ## The session -/

/-- The session record replaced. -/
def setSession (x : AdjustSession) (s : State) : State := setSlot (.adjustment x) s

/-- A session ended: discarded with its staged copy and calibration capture, the slot FREE, the status recomputed
(R145). -/
def endAdjustment (e : Ev) : Ev := recomputeStatus (e.upd (setSlot .free))

/-- A session aborted (R145). -/
def abortAdjustment (cause : AbortCause) (e : Ev) : Ev := endAdjustment (e.note (.adjustAborted cause))

/-- A change of the calibration switch (R136); a position that it has already is no change (log 4). SWITCH_STATE is sent
before the ADJUST_ABORTED of the abort, which no rule orders (log 14). -/
def switchState (toCal : Bool) (e : Ev) : Ev :=
  if e.st.metro.switchCal = toCal then e
  else
    let e1 := (e.upd fun s => s.setMetro { s.metro with switchCal := toCal }).note (.switchState toCal)
    e1.when (!toCal && e.st.cap.slot.isAdjustment) (abortAdjustment .switch)

/-- Open Adjustment (R137). -/
def openAdjustment (e : Ev) : Ev × Reply :=
  let s := e.st
  if s.metro.switchCal = false then (e, Reply.bare .switchNotCal)
  else match slotHeld s.cap.slot with
    | some st => (e, Reply.bare st)
    | none =>
      let staged := if s.metro.valid then s.store.config else defaultConfig
      (recomputeStatus (e.upd (setSession { staged := staged, idle := 0, calibration := none })),
       Reply.okWith (.adjustmentOpened s.store.eventCounter s.metro.valid (!s.metro.valid)))

/-- Abandon Adjustment (R145). -/
def abandonAdjustment (e : Ev) : Ev × Reply :=
  if e.st.cap.slot.isAdjustment then (endAdjustment e, Reply.bare .ok) else (e, Reply.bare .notInSession)

/-! ## Staging (R134, R138) -/

/-- A linearity table meets the three conditions of R8: loads strictly increase, the first is above 0, every correction
is at most 2% of its load. -/
def validTable : Nat → List LinPoint → Bool
  | _, [] => true
  | below, p :: r => decide (below < p.load) && decide (50 * p.correction.natAbs ≤ p.load) && validTable p.load r

/-- MPE bounds lie in 1 to 10,000 and strictly increase, each MPE in 0 to 63 (R134). -/
def validBands : Nat → List (Nat × Nat) → Bool
  | _, [] => true
  | below, (b, m) :: r => decide (below < b) && decide (b ≤ 10000) && decide (m ≤ 63) && validBands b r

/-- The deck of a staged channel: 0 is UNUSED (R134, 11.6). -/
def stagedDeck (n : Nat) : Option (Option Deck) := if n = 0 then some none else (deckOf n).map some

/-- The staged copy with the fields replaced, when every field lies in its range (R134, R138). -/
def applyStage (c : MetroConfig) : StageFields → Option MetroConfig
  | .channel ch deck zero gain =>
    match chanOf ch, stagedDeck deck with
    | some i, some d =>
      if 1 ≤ gain ∧ gain ≤ 16777215 ∧ -8388608 ≤ zero ∧ zero ≤ 8388607 then
        some { c with channels := c.channels.set i { deck := d, zero := zero, gain := gain } }
      else none
    | _, _ => none
  | .linearity deck points count =>
    match deckOf deck with
    | some d => if count ≤ 4 ∧ validTable 0 points = true then some { c with linearity := c.linearity.set d points } else none
    | none => none
  | .scale maxKg eKg =>
    if 20000 ≤ maxKg ∧ maxKg ≤ 200000 ∧ (eKg = 5 ∨ eKg = 10 ∨ eKg = 20 ∨ eKg = 50) then
      some { c with maxKg := maxKg, eKg := eKg }
    else none
  | .profile number segments count offset =>
    if 1 ≤ count ∧ count ≤ 8 ∧ segments.all (fun x => decide (x.1 ≤ 15 ∧ x.2 ≤ 31)) = true ∧ -8 ≤ offset ∧ offset ≤ 7 then
      match profileOf number with
      | some .one => some { c with profile1 := { segments := segments, offset := offset } }
      | some .two => some { c with profile2 := { segments := segments, offset := offset } }
      | none => none
    else none
  | .window w zt code =>
    if 10 ≤ w ∧ w ≤ 50 ∧ zt ≤ 1 ∧ code ≤ 3 then
      some { c with window := w, zeroTracking := zt == 1, warmupCode := code }
    else none
  | .mpe bands count =>
    if 1 ≤ count ∧ count ≤ 4 ∧ validBands 0 bands = true then some { c with mpe := bands } else none
  | .audit interval minima =>
    if 1 ≤ interval ∧ interval ≤ 730 ∧ minima.all (fun m => decide (m ≤ 200000)) = true then
      some { c with auditInterval := interval, minTestLoad := Bank.ofFn fun d => minima.getD d.val 0 }
    else none

/-- Stage Parameter (R138). -/
def stageParameter (f : StageFields) (e : Ev) : Ev × Reply :=
  match e.st.cap.slot with
  | .adjustment sess =>
    let touched := e.upd (setSession { sess with idle := 0 })
    if sess.calibration.isSome then (touched, Reply.bare .busy)
    else match applyStage sess.staged f with
      | none => (touched, Reply.bare .badRequest)
      | some c =>
        (e.upd (setSession { sess with staged := c, idle := 0 }), Reply.okWith (.staged (configChecksum c)))
  | .free => (e, Reply.bare .notInSession)
  | .capture _ => (e, Reply.bare .notInSession)
  | .audit _ => (e, Reply.bare .notInSession)

/-! ## Calibration captures (R139 to R142) -/

/-- Every channel of a deck in a configuration is GOOD or WATCH. -/
def deckHealthy (s : State) (c : MetroConfig) (d : Deck) : Bool :=
  (c.deckChans d).all fun i => (s.acq.channels.get i).health.included

/-- The target deck of a calibration request, when the deck and R are in range and 2 to 8 channels name the deck in the
staged copy (R139). -/
def calTarget (c : MetroConfig) (deck load : Nat) : Option Deck :=
  match deckOf deck with
  | some d => if c.active d = true ∧ 1 ≤ load ∧ load ≤ 200000 then some d else none
  | none => none

/-- A calibration request; Calibrate Zero carries no load and passes 1 (R139). -/
def calibrate (kind : CalKind) (deck load : Nat) (e : Ev) : Ev × Reply :=
  match e.st.cap.slot with
  | .adjustment sess =>
    let touched := e.upd (setSession { sess with idle := 0 })
    if sess.calibration.isSome then (touched, Reply.bare .busy)
    else match calTarget sess.staged deck load with
      | none => (touched, Reply.bare .badRequest)
      | some d =>
        if e.st.acq.scale ≠ .run ∨ e.st.metro.valid = false then (touched, Reply.bare .notReady)
        else if deckHealthy e.st sess.staged d = false then (touched, Reply.bare .channelExcluded)
        else
          (e.upd (setSession
            { sess with
              idle := 0
              calibration := some
                { kind := kind, deck := d, load := load, limit := e.st.timeoutLimit, count := 0, window := [] } }),
           Reply.bare .accepted)
  | .free => (e, Reply.bare .notInSession)
  | .capture _ => (e, Reply.bare .notInSession)
  | .audit _ => (e, Reply.bare .notInSession)

/-- The mean value of a channel over the calibration window (R140). -/
def calMean (window : List CalEntry) (i : Chan) : Int :=
  roundDiv (sumInt (window.map fun w => sumInt ((w.values.filter fun v => v.1 == i).map Prod.snd))) window.length

/-- The staged copy with the zero counts of a deck set to their mean channel values (R140). -/
def calibratedZeros (c : MetroConfig) (d : Deck) (window : List CalEntry) : MetroConfig :=
  { c with channels := Bank.ofFn fun i =>
      if c.assign i = some d then { c.channels.get i with zero := calMean window i } else c.channels.get i }

/-- S, exact: 2^20 times the deck's raw sum at the mean counts (R141). -/
def spanSum (c : MetroConfig) (d : Deck) (window : List CalEntry) : Int :=
  sumInt ((c.deckChans d).map fun i => (calMean window i - (c.channels.get i).zero) * (c.channels.get i).gain)

/-- R_hg times 2^20 (R141). -/
def spanTarget (load : Nat) : Nat := 10 * load * 1048576

/-- The span factor in thousandths, rounded (R141). -/
def spanFactor (load : Nat) (s : Int) : Int := roundDiv (1000 * spanTarget load : Nat) s.toNat

/-- The factor lies in 0.8 to 1.25, tested exactly (R141). -/
def spanInRange (load : Nat) (s : Int) : Bool :=
  decide (0 < s ∧ 4 * s ≤ (5 * spanTarget load : Nat) ∧ (4 * spanTarget load : Nat) ≤ 5 * s)

/-- A channel's new gain (R141). -/
def newGain (load : Nat) (s : Int) (g : Nat) : Int := roundDiv (g * spanTarget load : Nat) s.toNat

/-- The outcome of Calibrate Span with the staged copy after it (R141). -/
def spanResult (c : MetroConfig) (cal : Calibration) : CalOutcome × MetroConfig :=
  let s := spanSum c cal.deck cal.window
  let gains := (c.deckChans cal.deck).map fun i => (i, newGain cal.load s (c.channels.get i).gain)
  let values := if 0 < s then some (s, spanFactor cal.load s) else none
  if spanInRange cal.load s = false then (.spanRange values, c)
  else if gains.any (fun g => decide (g.2 < 1) || decide (16777215 < g.2)) then (.spanRange values, c)
  else
    (.spanOk s (spanFactor cal.load s) (gains.map fun g => (g.1, g.2.toNat)),
     { c with
       channels := Bank.ofFn fun i =>
         if c.assign i = some cal.deck then
           { c.channels.get i with gain := (newGain cal.load s (c.channels.get i).gain).toNat }
         else c.channels.get i
       linearity := c.linearity.set cal.deck [] })

/-- The point that x replaces: within 1% of its load, the nearest, on a tie the one with the lower load (R142). -/
def replacedPoint (table : List LinPoint) (x : Int) : Option LinPoint :=
  (table.filter fun p => decide (100 * (x - p.load).natAbs ≤ p.load)).foldl (fun best p =>
    match best with
    | none => some p
    | some b => if (x - p.load).natAbs < (x - b.load).natAbs then some p else some b) none

/-- The outcome of Calibrate Linearity Point with the table after it (R142). -/
def linearityResult (table : List LinPoint) (cal : Calibration) : CalOutcome × List LinPoint :=
  let x := roundDiv (sumInt (cal.window.map CalEntry.rawSum)) cal.window.length
  let c : Int := 10 * cal.load - x
  let point : LinPoint := { load := x.toNat, correction := c }
  if x ≤ 0 ∨ x < 50 * c.natAbs then (.linearityRange x c table, table)
  else match replacedPoint table x with
    | some p =>
      let t := table.map fun y => if y = p then point else y
      (.linearityOk x c t, t)
    | none =>
      if 4 ≤ table.length then (.tableFull x c table, table)
      else
        let t := insertBy (fun a b : LinPoint => decide (a.load ≤ b.load)) point table
        (.linearityOk x c t, t)

/-- The outcome of a stable calibration capture with the staged copy after it (R140 to R142). -/
def calResult (c : MetroConfig) (cal : Calibration) : CalOutcome × MetroConfig :=
  match cal.kind with
  | .zero =>
    let c1 := calibratedZeros c cal.deck cal.window
    (.zeroOk ((c.deckChans cal.deck).map fun i => (i, (c1.channels.get i).zero)), c1)
  | .span => spanResult c cal
  | .linearity =>
    let r := linearityResult (c.linearity.get cal.deck) cal
    (r.1, { c with linearity := c.linearity.set cal.deck r.2 })

/-- The calibration capture with a VALUE sample event's entry appended (R139). -/
def Calibration.push (cal : Calibration) (s : State) (staged : MetroConfig) (value : Chan → Int) (isValue : Bool) :
    Calibration :=
  if !isValue then cal
  else match rawSum staged (fun i => (s.acq.channels.get i).health) value cal.deck with
    | none => cal
    | some (x, _) =>
      let entry : CalEntry := { values := (staged.deckChans cal.deck).map fun i => (i, value i), rawSum := x }
      { cal with window := pushWindow staged.window cal.window entry }

/-- The calibration window is stable under the band of the staged profile 1 at `t` (R139). -/
def Calibration.stable (cal : Calibration) (staged : MetroConfig) (t : Nat) : Bool :=
  stableUnder staged.window (band staged.profile1 staged.q t) (cal.window.map CalEntry.rawSum)

/-- A calibration capture at a sample event decided at `t`: stable, a channel lost, timed out, or going on (R139). -/
def serveCalibration (r : SampleResult) (value : Chan → Int) (t : Nat) (e : Ev) : Ev :=
  match e.st.cap.slot with
  | .adjustment sess =>
    match sess.calibration with
    | none => e
    | some cal0 =>
      let cal := cal0.push e.st sess.staged value r.isValue
      let ended := fun (c : MetroConfig) (o : CalOutcome) =>
        (e.upd (setSession { sess with staged := c, calibration := none })).note
          (.calibrationResult cal.kind cal.deck o)
      if cal.stable sess.staged t then
        let res := calResult sess.staged cal
        ended res.2 res.1
      else if deckHealthy e.st sess.staged cal.deck = false then ended sess.staged .channelExcluded
      else if cal.limit ≤ cal.count + 1 then (ended sess.staged .calUnstable).mark .calUnstable
      else e.upd (setSession { sess with calibration := some { cal with count := cal.count + 1 } })
  | .free => e
  | .capture _ => e
  | .audit _ => e

/-- The idle count of an adjustment session at a sample event (R145). -/
def serveAdjustIdle (e : Ev) : Ev :=
  match e.st.cap.slot with
  | .adjustment sess =>
    if 90000 ≤ sess.idle + 1 then (abortAdjustment .idle e).mark .adjustIdle
    else e.upd (setSession { sess with idle := sess.idle + 1 })
  | .free => e
  | .capture _ => e
  | .audit _ => e

/-! ## The commit (R143, R146) -/

/-- The groups in which two copies differ (R146). -/
def changedGroups (a b : MetroConfig) : List ParamGroup :=
  (if a.channels = b.channels then [] else [.channel]) ++ (if a.linearity = b.linearity then [] else [.linearity]) ++
    (if a.maxKg = b.maxKg ∧ a.eKg = b.eKg then [] else [.scale]) ++
    (if a.profile1 = b.profile1 ∧ a.profile2 = b.profile2 then [] else [.profile]) ++
    (if a.window = b.window ∧ a.zeroTracking = b.zeroTracking ∧ a.warmupCode = b.warmupCode then [] else [.window]) ++
    (if a.mpe = b.mpe then [] else [.mpe]) ++
    (if a.auditInterval = b.auditInterval ∧ a.minTestLoad = b.minTestLoad then [] else [.audit])

/-- The record store after the Commit write (R112, R143, R146). -/
def commitStore (staged : MetroConfig) (stamp : Option DateTime) (st : Store) : Store :=
  { st with config := staged, checksum := configChecksum staged, eventCounter := st.eventCounter + 1 }.addTrail
    (.adjustment (st.eventCounter + 1) st.checksum (configChecksum staged) (changedGroups st.config staged) stamp)

/-- What the blocks do at a successful commit, in the order of its notices (R143). -/
def afterCommit (e : Ev) : Ev :=
  commitMap ((enterZeroPending (recomputeStatus (e.upd fun s =>
    setSlot .free (s.setMetro { s.metro with valid := true })))).upd restart)

/-- Commit Adjustment (R143). -/
def commitAdjustment (ok : Bool) (e : Ev) : Ev × Reply :=
  match e.st.cap.slot with
  | .adjustment sess =>
    if sess.calibration.isSome then (e, Reply.bare .busy)
    else if e.st.tm.storeFault then (e, Reply.bare .storeFault)
    else match sess.staged.incomplete with
      | some c => (e, { status := .configIncomplete, body := .incomplete c })
      | none =>
        if 65535 ≤ e.st.store.eventCounter ∨ e.st.store.trailExhausted = true then (e, Reply.bare .counterExhausted)
        else
          let e1 := storeWrite ok .commit
            (fun s => s.setStore (commitStore sess.staged s.cal.value s.store)) e
          if ok then (afterCommit e1, Reply.okWith (.committed e1.st.store.eventCounter e1.st.store.checksum))
          else (e1, Reply.bare .storeFault)
  | .free => (e, Reply.bare .notInSession)
  | .capture _ => (e, Reply.bare .notInSession)
  | .audit _ => (e, Reply.bare .notInSession)

/-! ## The reading requests (R146, R148) -/

/-- Read Metrology Status (R148). -/
def readMetrologyStatus (e : Ev) : Ev × Reply :=
  let s := e.st
  let sess : Option AdjustSession := match s.cap.slot with
    | .adjustment x => some x
    | .free => none
    | .capture _ => none
    | .audit _ => none
  (e, Reply.okWith (.metrology
    { status := s.metro.status, valid := s.metro.valid, counter := s.store.eventCounter, checksum := s.store.checksum
      switchCal := s.metro.switchCal
      idle := sess.map AdjustSession.idle
      calibration := (sess.bind AdjustSession.calibration).map fun c => (c.kind, c.deck)
      newest := s.store.newestAudit.map fun r => (r.number, r.passed, r.counter, r.due)
      nextSeq := s.store.nextSeq }))

/-- Read Configuration (R148). -/
def readConfiguration (sel : ConfigSelector) (e : Ev) : Ev × Reply :=
  let s := e.st
  match sel with
  | .stored => (e, Reply.okWith (.storedConfiguration s.store.config s.store.checksum s.metro.valid))
  | .staged =>
    match s.cap.slot with
    | .adjustment x => (e, Reply.okWith (.stagedConfiguration x.staged (configChecksum x.staged)))
    | .free => (e, Reply.bare .notInSession)
    | .capture _ => (e, Reply.bare .notInSession)
    | .audit _ => (e, Reply.bare .notInSession)

/-- Read Audit Trail (R146). -/
def readAuditTrail (start : Nat) (e : Ev) : Ev × Reply :=
  let st := e.st.store
  let found := st.trail.filter fun x => decide (start ≤ x.seq)
  (e, Reply.okWith (.trail st.nextSeq (found.take 8) (decide (8 < found.length))
    (match st.trail with
      | [] => false
      | x :: _ => decide (start < x.seq))))

/-! ## The meanings -/

/-- SWITCH_STATE (R136). -/
def execSwitchState (toCal : Bool) (s : State) : Host.Outcome State Fault Refusal := event (switchState toCal) s

/-- OPEN_ADJUSTMENT (R137). -/
def execOpenAdjustment (p : List Byte) (s : State) : Host.Outcome State Fault Refusal :=
  requestWith 0xD0 (parseEmpty p) (fun _ => openAdjustment) s

/-- STAGE_PARAMETER (R138). -/
def execStageParameter (p : List Byte) (s : State) : Host.Outcome State Fault Refusal :=
  requestWith 0xD1 (parseStage p) stageParameter s

/-- CALIBRATE_ZERO (R139, R140). -/
def execCalibrateZero (p : List Byte) (s : State) : Host.Outcome State Fault Refusal :=
  requestWith 0xD2 (parseNat 1 p) (fun d => calibrate .zero d 1) s

/-- CALIBRATE_SPAN (R139, R141). -/
def execCalibrateSpan (p : List Byte) (s : State) : Host.Outcome State Fault Refusal :=
  requestWith 0xD3 (parseDeckLoad p) (fun x => calibrate .span x.1 x.2) s

/-- CALIBRATE_LINEARITY_POINT (R139, R142). -/
def execCalibrateLinearityPoint (p : List Byte) (s : State) : Host.Outcome State Fault Refusal :=
  requestWith 0xD4 (parseDeckLoad p) (fun x => calibrate .linearity x.1 x.2) s

/-- COMMIT_ADJUSTMENT (R143). -/
def execCommitAdjustment (p : List Byte) (ok : Bool) (s : State) : Host.Outcome State Fault Refusal :=
  requestWith 0xD5 (parseEmpty p) (fun _ => commitAdjustment ok) s

/-- ABANDON_ADJUSTMENT (R145). -/
def execAbandonAdjustment (p : List Byte) (s : State) : Host.Outcome State Fault Refusal :=
  requestWith 0xD6 (parseEmpty p) (fun _ => abandonAdjustment) s

/-- READ_METROLOGY_STATUS (R148). -/
def execReadMetrologyStatus (p : List Byte) (s : State) : Host.Outcome State Fault Refusal :=
  requestWith 0xD7 (parseEmpty p) (fun _ => readMetrologyStatus) s

/-- READ_CONFIGURATION (R148). -/
def execReadConfiguration (p : List Byte) (s : State) : Host.Outcome State Fault Refusal :=
  requestWith 0xD8 (parseConfigSelector p) readConfiguration s

/-- READ_AUDIT_TRAIL (R146). -/
def execReadAuditTrail (p : List Byte) (s : State) : Host.Outcome State Fault Refusal :=
  requestWith 0xD9 (parseNat 4 p) readAuditTrail s

end Sys2Proof.Machine
end

