-- ==== Sys2Proof/Machine/Audits.lean ====
section
/-! DEFINITION. The audit unit (09_verification_audits.md): the audit session, its steps and their judgement, the close
with its record, abandonment, and the requests of the chapter. -/

namespace Sys2Proof.Machine

/-! ## The session (R149, R157) -/

/-- The session record replaced. -/
def setAudit (x : AuditSession) (s : State) : State := setSlot (.audit x) s

/-- The audit session, when one is open. -/
def Slot.auditSession : Slot → Option AuditSession
  | .audit x => some x
  | .free => none
  | .capture _ => none
  | .adjustment _ => none

/-- The checks of R149, in order; none when all pass. -/
def openAuditChecks (s : State) : Option Status :=
  match slotHeld s.cap.slot with
  | some st => some st
  | none =>
    if s.metro.valid = false then some .notReady
    else if s.cal.value.isNone then some .calendarUnset
    else if s.acq.scale ≠ .run ∨ s.zm.zeroState ≠ .set then some .notReady
    else none

/-- Open Audit (R149). -/
def openAudit (e : Ev) : Ev × Reply :=
  let s := e.st
  match openAuditChecks s with
  | some st => (e, Reply.bare st)
  | none =>
    (e.upd (setAudit { number := s.store.auditCounter + 1, steps := [], idle := 0, flight := none }),
     Reply.okWith (.auditOpened (s.store.auditCounter + 1) s.store.eventCounter s.store.checksum
       (perActive s fun d => s.store.config.minTestLoad.get d)))

/-- An audit session abandoned: discarded with its steps, the slot FREE (R157). -/
def abandonSession (cause : AbandonCause) (e : Ev) : Ev := (e.upd (setSlot .free)).note (.auditAbandoned cause)

/-- Abandon Audit (R157). -/
def abandonAudit (e : Ev) : Ev × Reply :=
  match e.st.cap.slot.auditSession with
  | none => (e, Reply.bare .notInSession)
  | some _ => (abandonSession .request e, Reply.bare .ok)

/-- The idle count of an audit session at a sample event (R150). -/
def serveAuditIdle (e : Ev) : Ev :=
  match e.st.cap.slot.auditSession with
  | none => e
  | some x =>
    if 90000 ≤ x.idle + 1 then (abandonSession .idle e).mark .auditIdle
    else e.upd (setAudit { x with idle := x.idle + 1 })

/-! ## A step's request (R151) -/

/-- The target of a byte: 0 is BRIDGE, 1 to 4 a deck (R169). -/
def stepTargetOf (n : Nat) : Option StepTarget := if n = 0 then some .bridge else (deckOf n).map .deck

/-- The decks of a target. -/
def targetDecks (c : MetroConfig) : StepTarget → List Deck
  | .bridge => c.activeDecks
  | .deck d => [d]

/-- The target is the bridge or an active deck of the stored configuration (R151). -/
def targetActive (c : MetroConfig) : StepTarget → Bool
  | .bridge => true
  | .deck d => c.active d

/-- R suits the kind: at least 1 for LOAD and REPEAT, 0 for ZERO, and at most 200,000 (R151). -/
def loadSuits (k : StepKind) (load : Nat) : Bool :=
  match k with
  | .load => decide (1 ≤ load ∧ load ≤ 200000)
  | .again => decide (1 ≤ load ∧ load ≤ 200000)
  | .zero => decide (load = 0)

/-- The step of a list with an index. -/
def stepAt (steps : List StepRecord) (index : Nat) : Option StepRecord := steps.find? fun x => x.index == index

/-- The index of a REPEAT names a LOAD step with the same target and R (R151). -/
def refSuits (k : StepKind) (steps : List StepRecord) (target : StepTarget) (load index : Nat) : Bool :=
  match k with
  | .load => true
  | .zero => true
  | .again =>
    match stepAt steps index with
    | none => false
    | some x => decide (x.kind = .load) && decide (x.target = target) && decide (x.load = load)

/-- The kind and target of a well-formed step request (R151). A kind, a target or a load out of its range is turned down
here, in the session (log 16); the index of a LOAD or a ZERO is read over (log 17). -/
def StepFields.checked (f : StepFields) (c : MetroConfig) (steps : List StepRecord) :
    Option (StepKind × StepTarget) :=
  match stepKindOf f.kind, stepTargetOf f.target with
  | some k, some t =>
    if targetActive c t && loadSuits k f.load && refSuits k steps t f.load f.refIndex then some (k, t) else none
  | _, _ => none

/-- No channel of a target is EXCLUDED or RECOVERING (R151). -/
def targetHealthy (s : State) (t : StepTarget) : Bool :=
  (targetDecks s.store.config t).all (deckHealthy s s.store.config)

/-- Audit Step in an open session, whose idle count the request sets to 0 (R150, R151). -/
def stepInSession (x0 : AuditSession) (f : StepFields) (e : Ev) : Ev × Reply :=
  let x := { x0 with idle := 0 }
  let touched := e.upd (setAudit x)
  if x.flight.isSome then (touched, Reply.bare .busy)
  else match f.checked e.st.store.config x.steps with
    | none => (touched, Reply.bare .badRequest)
    | some (k, t) =>
      if 24 ≤ x.steps.length then (touched, Reply.bare .stepLimit)
      else if targetHealthy e.st t = false then (touched, Reply.bare .channelExcluded)
      else
        (e.upd (setAudit
          { x with
            flight := some
              { kind := k, target := t, load := f.load, refIndex := f.refIndex, count := 0
                limit := e.st.timeoutLimit } }),
         { status := .accepted, body := .stepIndex (x.steps.length + 1) })

/-- Audit Step (R151). -/
def auditStep (f : StepFields) (e : Ev) : Ev × Reply :=
  match e.st.cap.slot.auditSession with
  | none => (e, Reply.bare .notInSession)
  | some x => stepInSession x f e

/-! ## Judging a step (R153, R154) -/

/-- The first band whose upper bound reaches R; the last band when none does (R153). -/
def loadBand (eKg load : Nat) : List (Nat × Nat) → Nat × Nat
  | [] => (0, 0)
  | [b] => b
  | b :: r => if load ≤ b.1 * eKg then b else loadBand eKg load r

/-- The band's quarter-divisions of a step (R153). -/
def mpeQuarters (c : MetroConfig) (k : StepKind) (load : Nat) : Nat :=
  match k with
  | .load => (loadBand c.eKg load c.mpe).2
  | .again => (loadBand c.eKg load c.mpe).2
  | .zero => (c.mpe.head?.map Prod.snd).getD 0

/-- The indication I: the mean of the target deck, or the captured bridge total (R152). -/
def indication (s : State) : StepTarget → Int
  | .bridge => s.capturedTotal
  | .deck d => s.mean d

/-- The condition under which a step passes (R154). -/
def stepPasses (k : StepKind) (mpe : Nat) (err : Int) (difference : Option Int) (substituted : Bool) : Bool :=
  let within := decide (err.natAbs ≤ mpe)
  !substituted && match k with
    | .load => within
    | .zero => within
    | .again =>
      within && match difference with
        | none => false
        | some d => decide (d.natAbs ≤ mpe)

/-- The step record of a step captured in a state (R152, R154). -/
def stepRecord (s : State) (steps : List StepRecord) (f : StepFlight) : StepRecord :=
  let c := s.store.config
  let i := indication s f.target
  let err := i - (10 * f.load : Nat)
  let quarters := mpeQuarters c f.kind f.load
  let substituted := (targetDecks c f.target).any s.substitutedDecks.contains
  let difference := match f.kind with
    | .again => (stepAt steps f.refIndex).map fun x => i - x.indication
    | .load => none
    | .zero => none
  { index := steps.length + 1, kind := f.kind, target := f.target, load := f.load
    refIndex := if f.kind = .again then some f.refIndex else none
    indication := i
    reportedError := roundDiv (err * 10) c.eHg
    mpe := quarters * c.q, mpeQuarters := quarters
    difference := difference, substituted := substituted
    passed := stepPasses f.kind (quarters * c.q) err difference substituted
    stamp := s.cal.value }

/-- A step in flight at a sample event: stable, timed out, or going on (R152). -/
def serveStep (e : Ev) : Ev :=
  match e.st.cap.slot.auditSession with
  | none => e
  | some x =>
    match x.flight with
    | none => e
    | some f =>
      if e.st.zm.decisions.profile1 then
        let r := stepRecord e.st x.steps f
        (e.upd (setAudit { x with steps := x.steps ++ [r], flight := none })).note (.auditStepDone r)
      else if f.limit ≤ f.count + 1 then
        ((e.upd (setAudit { x with flight := none })).note (.stepFailedUnstable f.kind f.target f.load)).mark
          .stepFailed
      else e.upd (setAudit { x with flight := some { f with count := f.count + 1 } })

/-! ## The close (R155, R156) -/

/-- A LOAD step that covers a deck (R155). -/
def StepRecord.covers (x : StepRecord) (c : MetroConfig) (d : Deck) : Bool :=
  decide (x.kind = .load) && decide (x.target = .deck d) && x.passed && decide (c.minTestLoad.get d ≤ x.load)

/-- A passed ZERO step on the bridge (R155). -/
def StepRecord.isFinalZero (x : StepRecord) : Bool :=
  decide (x.kind = .zero) && decide (x.target = .bridge) && x.passed

/-- The reasons of a FAIL (R155). -/
def auditReasons (c : MetroConfig) (steps : List StepRecord) : AuditReasons :=
  { stepFailed := !steps.all StepRecord.passed
    coverage := c.activeDecks.filter fun d => !steps.any fun x => x.covers c d
    noFinalZero := !((steps.getLast?.map StepRecord.isFinalZero).getD false) }

/-- PASS: no reason applies (R155). -/
def AuditReasons.pass (r : AuditReasons) : Bool := !r.stepFailed && r.coverage == [] && !r.noFinalZero

/-- The record of a session closed on a date (R156). -/
def auditRecordOf (st : Store) (date : Date) (steps : List StepRecord) : AuditRecord :=
  let reasons := auditReasons st.config steps
  { number := st.auditCounter + 1, date := date, counter := st.eventCounter, checksum := st.checksum
    passed := reasons.pass, reasons := reasons
    due := if reasons.pass then some (dueDate date st.config.auditInterval) else none
    steps := steps }

/-- The record store after the Audit close write (R156). -/
def auditCloseStore (r : AuditRecord) (st : Store) : Store :=
  { st with
    audits := (if 8 ≤ st.audits.length then st.audits.drop (st.audits.length - 7) else st.audits) ++ [r]
    auditCounter := r.number }.addTrail (.auditClosed r.number r.passed)

/-- The checks of R155 after the session is found; none when all pass. -/
def closeChecks (s : State) (x : AuditSession) : Option Status :=
  if x.flight.isSome then some .busy
  else if s.tm.storeFault then some .storeFault
  else if s.cal.value.isNone then some .calendarUnset
  else if 4294967295 ≤ s.store.auditCounter then some .counterExhausted
  else if s.store.trailExhausted then some .counterExhausted
  else none

/-- A session judged and written (R155, R156). -/
def closeSession (ok : Bool) (x : AuditSession) (now : DateTime) (e : Ev) : Ev × Reply :=
  let r := auditRecordOf e.st.store now.date x.steps
  let e1 := storeWrite ok .auditClose (fun s => s.setStore (auditCloseStore r s.store)) e
  if ok then
    (recomputeStatus ((e1.upd (setSlot .free)).note (.auditClosed r.number r.passed r.reasons r.due)),
     Reply.okWith (.auditClosed r.number r.passed r.reasons r.due))
  else (e1, Reply.bare .storeFault)

/-- Close Audit (R155, R156). -/
def closeAudit (ok : Bool) (e : Ev) : Ev × Reply :=
  match e.st.cap.slot.auditSession with
  | none => (e, Reply.bare .notInSession)
  | some x =>
    match closeChecks e.st x, e.st.cal.value with
    | none, some now => closeSession ok x now e
    | some st, _ => (e, Reply.bare st)
    | none, none => (e, Reply.bare .calendarUnset)

/-! ## Reading (R158) -/

/-- A refusal of Read Audit Record, which gives the counter and the number of records too (R158). -/
def auditRefusal (s : State) (st : Status) : Reply :=
  { status := st, body := .auditCounts s.store.auditCounter s.store.audits.length }

/-- The answer with a record, when there is one (R158). -/
def auditAnswer (s : State) : Option AuditRecord → Reply
  | none => auditRefusal s .noSuchEntry
  | some r => Reply.okWith (.auditRecord r s.store.auditCounter s.store.audits.length)

/-- Read Audit Record (R158). -/
def readAuditRecord (sel : AuditSelector) (e : Ev) : Ev × Reply :=
  let s := e.st
  match sel with
  | .number n => (e, auditAnswer s (s.store.audits.find? fun r => r.number == n))
  | .newest => (e, auditAnswer s s.store.newestAudit)
  | .session =>
    match s.cap.slot.auditSession with
    | none => (e, auditRefusal s .notInSession)
    | some x =>
      (e, Reply.okWith (.auditSession x.number x.idle x.steps
        (x.flight.map fun f => (f.kind, f.target, f.load, f.count)) s.store.auditCounter s.store.audits.length))

/-! ## The meanings -/

/-- OPEN_AUDIT (R149). -/
def execOpenAudit (p : List Byte) (s : State) : Host.Outcome State Fault Refusal :=
  requestWith 0xE0 (parseEmpty p) (fun _ => openAudit) s

/-- AUDIT_STEP (R151). -/
def execAuditStep (p : List Byte) (s : State) : Host.Outcome State Fault Refusal :=
  requestWith 0xE1 (parseStep p) auditStep s

/-- CLOSE_AUDIT (R155, R156). -/
def execCloseAudit (p : List Byte) (ok : Bool) (s : State) : Host.Outcome State Fault Refusal :=
  requestWith 0xE2 (parseEmpty p) (fun _ => closeAudit ok) s

/-- ABANDON_AUDIT (R157). -/
def execAbandonAudit (p : List Byte) (s : State) : Host.Outcome State Fault Refusal :=
  requestWith 0xE3 (parseEmpty p) (fun _ => abandonAudit) s

/-- READ_AUDIT_RECORD (R158). -/
def execReadAuditRecord (p : List Byte) (s : State) : Host.Outcome State Fault Refusal :=
  requestWith 0xE4 (parseAuditSelector p) readAuditRecord s

end Sys2Proof.Machine
end

