-- ==== Sys2Proof/Machine/CalendarOps.lean ====
section
/-! DEFINITION. The calendar (10_the_calendar.md): the second carry with its events, the crystal monitor and the
supplies, Set Calendar and Read Calendar. -/

namespace Sys2Proof.Machine

/-! ## Counting (R160, R163) -/

/-- The calendar with another value and the sub-second count begun again. -/
def setCalValue (v : Option DateTime) (s : State) : State := s.setCal { s.cal with value := v, subSecond := 0 }

/-- The day event: the metrology status, then the expired tares (R124, R147, R163). -/
def dayEvent (now : DateTime) (e : Ev) : Ev :=
  let e1 := recomputeStatus e
  e1.noteAll (expiredTares e1.st now)

/-- A second carry on the main supply: the value, the events it hands, or the end of 2199 (R160, R163, R166). At the end
of 2199 CALENDAR_STATE is sent before METROLOGY_STATUS, which no rule orders there (log 14). -/
def secondCarry (oks : List Bool) (e : Ev) : Ev :=
  match e.st.cal.value with
  | none => e
  | some t =>
    let c := t.carry
    let e1 := e.upd (setCalValue c.value)
    match c.value with
    | none => recomputeStatus (e1.note (.calendarState false))
    | some now => (e1.when c.hourEvent (hourEvent oks now)).when c.dayEvent (dayEvent now)

/-- A second carry from the crystal while the main supply is absent: the value counts in the backup domain, unless the
backup stop record says that it was lost (R162, R166, log 10). -/
def backupCarry (s : State) : State :=
  match s.cal.value with
  | none => s
  | some t => if s.cal.stopRecord then s else setCalValue t.carry.value s

/-! ## The crystal monitor (R162) -/

/-- CALENDAR_SOURCE, with the source and TIME_DEGRADED as they stand (R162). -/
def sourceNote (e : Ev) : Ev := e.note (.calendarSource e.st.cal.source e.st.cal.degraded)

/-- The crystal stops on the main supply (R162); a monitor that is STOPPED has nothing to find (log 41). -/
def crystalStop (e : Ev) : Ev :=
  if e.st.cal.crystalRunning then
    sourceNote (e.upd fun s => s.setCal
      { s.cal with crystalRunning := false, runCount := 0, source := .main, degraded := true })
  else e

/-- The crystal stops with the main supply absent: the backup stop record is set (R162). -/
def backupStop (c : Calendar) : Calendar :=
  if c.crystalRunning then { c with crystalRunning := false, runCount := 0, stopRecord := true, degraded := true } else c

/-- The run count of one second of continuous edges (R162). -/
def crystalSecond : Nat := 32768

/-- The crystal has run for 1 s on the main supply (R162). -/
def crystalReturn (e : Ev) : Ev :=
  if e.st.cal.crystalRunning then e
  else sourceNote (e.upd fun s => s.setCal
    { s.cal with crystalRunning := true, runCount := crystalSecond, source := .crystal })

/-- The crystal has run for 1 s with the main supply absent: only the monitor sees it (R162). -/
def backupReturn (c : Calendar) : Calendar :=
  if c.crystalRunning then c else { c with crystalRunning := true, runCount := crystalSecond }

/-- A gap in STOPPED sets the run count to 0 (R162). -/
def runGap (c : Calendar) : Calendar := if c.crystalRunning then c else { c with runCount := 0 }

/-- The main supply fails: when the counting source is MAIN, the backup stop record is set (R162). -/
def supplyFails (s : State) : State :=
  if s.mainSupply then
    (s.setMainSupply false).setCal
      { s.cal with stopRecord := s.cal.stopRecord || decide (s.cal.source = .main) }
  else s

/-! ## Setting and reading (R164, R165) -/

/-- The checks of R164, in order; none when all pass. -/
def calendarChecks (s : State) (t : DateTime) : Option Status :=
  if t.inRange = false then some .badRequest
  else if (match s.store.newestAudit with
      | none => false
      | some r => t.date.before r.date) = true then some .timeBeforeAudit
  else if s.tm.storeFault then some .storeFault
  else if s.store.trailExhausted then some .counterExhausted
  else none

/-- The calendar just set (R164). -/
def Calendar.setTo (t : DateTime) (c : Calendar) : Calendar :=
  { c with value := some t, subSecond := 0, degraded := false, stopRecord := false }

/-- Set Calendar (R164). -/
def setCalendar (ok : Bool) (t : DateTime) (e : Ev) : Ev × Reply :=
  match calendarChecks e.st t with
  | some st => (e, Reply.bare st)
  | none =>
    let old := e.st.cal.value
    let e1 := storeWrite ok .calendarSet (fun s => s.setStore (s.store.addTrail (.calendarSet old t))) e
    if ok then
      let e2 := e1.upd fun s => s.setCal (s.cal.setTo t)
      (recomputeStatus (e2.when old.isNone (·.note (.calendarState true))),
       Reply.okWith (.calendarSet t (weekdayOf t.date.dayNumber)))
    else (e1, Reply.bare .storeFault)

/-- Read Calendar (R165). -/
def readCalendar (e : Ev) : Ev × Reply :=
  let c := e.st.cal
  (e, Reply.okWith (.calendar (c.value.map fun t => (t, weekdayOf t.date.dayNumber)) c.degraded c.source
    c.crystalRunning (e.st.store.newestAudit.map AuditRecord.date)))

/-! ## The meanings -/

/-- SECOND_CARRY (R160, R163). -/
def execSecondCarry (oks : List Bool) (s : State) : Host.Outcome State Fault Refusal :=
  if s.mainSupply then event (secondCarry oks) s else .next (backupCarry s)

/-- CRYSTAL_STOP (R162): the row of a stop with the main supply present; a stop in its absence has the same effect as
MAIN_SUPPLY_LOSS with that cause. -/
def execCrystalStop (s : State) : Host.Outcome State Fault Refusal :=
  if s.mainSupply then event crystalStop s else .next (s.setCal (backupStop s.cal))

/-- CRYSTAL_RETURN (R162). -/
def execCrystalReturn (s : State) : Host.Outcome State Fault Refusal :=
  if s.mainSupply then event crystalReturn s else .next (s.setCal (backupReturn s.cal))

/-- CRYSTAL_RUN_GAP (R162). -/
def execCrystalRunGap (s : State) : Host.Outcome State Fault Refusal := .next (s.setCal (runGap s.cal))

/-- MAIN_SUPPLY_LOSS (R162). The cause that names a crystal stop with the main supply absent is not due while the supply
is present (log 4). -/
def execMainSupplyLoss (cause : SupplyLoss) (s : State) : Host.Outcome State Fault Refusal :=
  match cause with
  | .supplyFails => .next (supplyFails s)
  | .crystalStops => if s.mainSupply then .next s else .next (s.setCal (backupStop s.cal))

/-- SET_CALENDAR (R164). -/
def execSetCalendar (p : List Byte) (ok : Bool) (s : State) : Host.Outcome State Fault Refusal :=
  requestWith 0xF0 (parseStamp p) (setCalendar ok) s

/-- READ_CALENDAR (R165). -/
def execReadCalendar (p : List Byte) (s : State) : Host.Outcome State Fault Refusal :=
  requestWith 0xF1 (parseEmpty p) (fun _ => readCalendar) s

end Sys2Proof.Machine
end

