-- ==== Sys2Proof/Machine/Resets.lean ====
section
/-! DEFINITION. The three resets, block by block (R21, R39, R56, R75, R111, R133, R135, R136, R148, R159, R166, R176),
and the rows that make them. -/

namespace Sys2Proof.Machine

/-! ## Block by block -/

/-- The start-up check of the stored configuration: its checksum agrees and it has an active deck (R135). -/
def startupValid (st : Store) : Bool := configChecksum st.config == st.checksum && st.config.activeDecks != []

/-- The baud rate that the strap selects (R167). -/
def strapBaud (fast : Bool) : Baud := if fast then .b115200 else .b19200

/-- The link port after a reset (R176). -/
def bootLink (inputs : ResetInputs) (mask : BitVec 32) : Link :=
  { rxBuffer := [], slots := [], tx := none, queue := [], mask := mask, noticeLoss := false
    baud := strapBaud inputs.fastBaud }

/-- The acquisition unit after a cold start or a power-on reset (R39). The health assignment in force returns to the
stored assignment at the next sample event only (R145, log 25). -/
def bootAcq (assign : Bank (Option Deck) 16) (length : Nat) : Acq :=
  { channels := Bank.fill 16 resetChannel, assign := assign, faultCapture := none, sampleNumber := 0
    spikeLimit := resetSpikeLimit, scale := .warmup, warmCount := 0, warmLength := length, excitation := true }

/-- The acquisition unit after a warm reset (R39): the scale state, a warm-up in progress and the excitation are kept. -/
def Acq.warm (a : Acq) : Acq :=
  { bootAcq a.assign a.warmLength with scale := a.scale, warmCount := a.warmCount, excitation := a.excitation }

/-- The zero and motion unit after a cold start or a power-on reset (R56). -/
def bootZm : ZeroMotion :=
  { zeroState := .pending, offset := Bank.fill 4 0, initial := Bank.fill 4 0, halt := Bank.fill 4 false
    rangeReported := false, trackCount := 0, clock := 0, window := [], latest := none, decisions := notStable }

/-- The zero and motion unit after a warm reset (R56). -/
def ZeroMotion.warm (z : ZeroMotion) : ZeroMotion :=
  { bootZm with
    zeroState := z.zeroState, offset := z.offset, initial := z.initial, halt := z.halt
    rangeReported := z.rangeReported }

/-- The axle map unit after any reset, with its time base (R75, log 5). -/
def bootAxle (inputs : ResetInputs) (timeBase : Nat) : AxleMap :=
  { timeBase := timeBase
    lines := Bank.ofFn fun i =>
      { levelA := inputs.levelA.get i, levelB := inputs.levelB.get i, pairing := .idle, code := .none }
    loopEntry := inputs.loopEntry, loopExit := inputs.loopExit
    decks := Bank.fill 4 [], exited := [], entered := 0, exitedCount := 0, entryComplete := false, reversal := false
    certain := false, cause := .reset, hiddenCount := 0, recoveryCount := 0, occupancy := .part }

/-- The capture controller after any reset (R93, R111). -/
def bootCap : Capture :=
  { slot := .free, opCounter := 0, timeout := resetTimeout, entryLamp := .red, exitLamp := .red, reworkHold := false }

/-- The calendar after a cold start (R166). -/
def coldCal : Calendar :=
  { value := none, subSecond := 0, source := .main, crystalRunning := false, runCount := 0, stopRecord := false
    degraded := false }

/-- The calendar after a power-on reset (R166): RUNNING when it was RUNNING and the backup stop record is clear. -/
def Calendar.powerOn (c : Calendar) : Calendar :=
  { c with
    value := if c.stopRecord then none else c.value
    source := .main, crystalRunning := false, runCount := 0, stopRecord := false }

/-! ## The resets -/

/-- The metrology status recomputed at a reset, whose notice is lost with the queue (R147). -/
def resetStatus (s : State) : State :=
  s.setMetro { s.metro with status := statusReasons s.metro.valid false s.store s.cal.value }

/-- What cold start and power-on reset do alike, with the calendar and the time base as they leave them. -/
def powerUp (inputs : ResetInputs) (cal : Calendar) (s : State) : State :=
  resetStatus
    { s with
      mainSupply := true
      link := bootLink inputs s.site.defaultMask
      acq := bootAcq s.acq.assign (warmupLength (startupValid s.store) s.store.config)
      zm := bootZm
      axle := bootAxle inputs 0
      cap := bootCap
      tm := { reserved := 0, storeFault := false }
      metro := { s.metro with valid := startupValid s.store, switchCal := inputs.switchCal }
      cal := cal }

/-- Cold start. -/
def coldStart (inputs : ResetInputs) (s : State) : State := powerUp inputs coldCal s

/-- Power-on reset. A supply that is still present fails at this very event (log 11). -/
def powerOnReset (inputs : ResetInputs) (s : State) : State :=
  powerUp inputs (supplyFails s).cal.powerOn s

/-- Warm reset. -/
def warmReset (inputs : ResetInputs) (s : State) : State :=
  resetStatus
    { s with
      link := bootLink inputs s.link.mask
      acq := s.acq.warm
      zm := s.zm.warm
      axle := bootAxle inputs s.axle.timeBase
      cap := bootCap
      tm := { s.tm with reserved := 0 }
      metro := { s.metro with switchCal := inputs.switchCal } }

/-! ## The meanings -/

/-- COLD_START (R39). -/
def execColdStart (inputs : ResetInputs) (s : State) : Host.Outcome State Fault Refusal := .next (coldStart inputs s)

/-- POWER_ON_RESET (R39). -/
def execPowerOnReset (inputs : ResetInputs) (s : State) : Host.Outcome State Fault Refusal :=
  .next (powerOnReset inputs s)

/-- RESET_LINE (R39): nothing acts while the main supply is absent (log 10). -/
def execResetLine (inputs : ResetInputs) (s : State) : Host.Outcome State Fault Refusal :=
  .next (if s.mainSupply then warmReset inputs s else s)

end Sys2Proof.Machine
end

