-- ==== Sys2Proof/Machine/LinkOps.lean ====
section
/-! DEFINITION. The link port (11_link_messages_and_notices.md): frames that end without a request, the end of a
transmission, and the requests of the chapter. -/

namespace Sys2Proof.Machine

/-! ## Frames that are no request (R167, R168) -/

/-- A LINK_ERROR answer: it fills an empty slot, and is dropped when both are full (R167, R168). -/
def linkError (cause : LinkCause) (kind : Byte) (s : State) : State :=
  let s1 := endFrame s
  if s1.link.slots.length < 2 then
    serveLink (answer 0xFF { status := .linkError, body := .linkError cause kind } s1)
  else s1

/-- The frame in reception discarded with no answer (R167). -/
def dropFrame (s : State) : State := if s.mainSupply then endFrame s else s

/-! ## The end of a transmission (R170, R175) -/

/-- The answer to an executed Warm Reset (R175). -/
def Answer.asksReset (a : Answer) : Bool := decide (a.kind = 0x83) && decide (a.reply.status = .ok)

/-- The last byte of a frame leaves the transmitter (R168, R170, R175). -/
def transmitted (inputs : ResetInputs) (s : State) : State :=
  match s.link.tx with
  | none => s
  | some (.notice _) => serveLink (s.setLink { s.link with tx := none })
  | some .answer =>
    if (s.link.slots.head?.map Answer.asksReset).getD false then warmReset inputs s
    else serveLink (s.setLink { s.link with tx := none, slots := s.link.slots.tail })

/-! ## The requests -/

/-- The vendor name "ASTOPEL" (R173). -/
def vendorName : Text := [0x41, 0x53, 0x54, 0x4F, 0x50, 0x45, 0x4C]

/-- The part name "WHELFORD 2420" (R173). -/
def partName : Text := [0x57, 0x48, 0x45, 0x4C, 0x46, 0x4F, 0x52, 0x44, 0x20, 0x32, 0x34, 0x32, 0x30]

/-- The baud rate as a number (R167). -/
def Baud.rate : Baud → Nat
  | b19200 => 19200
  | b115200 => 115200

/-- Identify (R173). -/
def identify (e : Ev) : Ev × Reply :=
  (e, Reply.okWith (.identify vendorName partName 1 maxPayload e.st.link.baud.rate 16 4 5))

/-- What Read Status says of the slot (R174). -/
def Slot.report : Slot → SlotReport
  | .free => .free
  | .capture op => .capture op.number op.state
  | .adjustment _ => .adjustment
  | .audit _ => .audit

/-- The fields of Read Status (R174). -/
def statusFields (s : State) : StatusFields :=
  { noticeLoss := s.link.noticeLoss, queued := s.link.queue.length, storeFault := s.tm.storeFault
    scale := s.acq.scale, zeroState := s.zm.zeroState, occupancy := s.axle.occupancy, certain := s.axle.certain
    slot := s.cap.slot.report
    entryLamp := s.cap.entryLamp, exitLamp := s.cap.exitLamp, reworkHold := s.cap.reworkHold
    status := s.metro.status
    calendarRunning := s.cal.value.isSome, degraded := s.cal.degraded
    tickets := s.store.tickets.length, reserved := s.tm.reserved, freeSlots := s.freeSlots
    ticket := s.site.ticket
    timeout := s.cap.timeout, spikeLimit := s.acq.spikeLimit
    mask := s.link.mask, defaultMask := s.site.defaultMask
    sampleNumber := s.acq.sampleNumber }

/-- Read Status: the fields as they stood, and NOTICE_LOSS is cleared (R174). -/
def readStatus (e : Ev) : Ev × Reply :=
  (e.upd fun s => s.setLink { s.link with noticeLoss := false }, Reply.okWith (.status (statusFields e.st)))

/-- Warm Reset: answered OK; the reset is made when the answer has left (R175). -/
def askWarmReset (e : Ev) : Ev × Reply := (e, Reply.bare .ok)

/-- The bits of a mask that no notice is assigned to are clear (R172). -/
def maskAllowed (m : BitVec 32) : Bool := !m.getLsbD 9 && !m.getLsbD 31

/-- Set Notice Mask (R172, R113). -/
def setNoticeMask (ok : Bool) (m : BitVec 32) (store : Bool) (e : Ev) : Ev × Reply :=
  if maskAllowed m = false then (e, Reply.bare .badRequest)
  else if store then
    settingsWrite ok (fun s =>
      (s.setLink { s.link with mask := m }).setSite { s.site with defaultMask := m }) e
  else (e.upd fun s => s.setLink { s.link with mask := m }, Reply.bare .ok)

/-! ## The meanings -/

/-- FRAME_GAP_TIMEOUT (R167). -/
def execFrameGapTimeout (s : State) : Host.Outcome State Fault Refusal := .next (dropFrame s)

/-- FRAMING_ERROR (R167). -/
def execFramingError (s : State) : Host.Outcome State Fault Refusal := .next (dropFrame s)

/-- LENGTH_ERROR (R167); a length of at most 1,024 is no error (log 4). -/
def execLengthError (kind : Byte) (length : BitVec 16) (s : State) : Host.Outcome State Fault Refusal :=
  .next (if s.mainSupply && decide (maxPayload < length.toNat) then linkError .length kind s else s)

/-- CRC_ERROR (R167); a frame whose CRC agrees is no error (log 4). -/
def execCrcError (kind : Byte) (payload : List Byte) (crc : BitVec 16) (s : State) :
    Host.Outcome State Fault Refusal :=
  .next (if s.mainSupply && crc != frameCrc kind payload then linkError .crc kind s else s)

/-- UNKNOWN_REQUEST (R168); a kind that names a request has a row of its own (log 4). -/
def execUnknownRequest (kind : Byte) (_payload : List Byte) (s : State) : Host.Outcome State Fault Refusal :=
  if namesRequest kind then .next s else request 0xFF (fun e => (e, Reply.bare .badRequest)) s

/-- TRANSMIT_COMPLETE (R170). -/
def execTransmitComplete (inputs : ResetInputs) (s : State) : Host.Outcome State Fault Refusal :=
  .next (if s.mainSupply then transmitted inputs s else s)

/-- IDENTIFY (R173). -/
def execIdentify (p : List Byte) (s : State) : Host.Outcome State Fault Refusal :=
  requestWith 0x81 (parseEmpty p) (fun _ => identify) s

/-- READ_STATUS (R174). -/
def execReadStatus (p : List Byte) (s : State) : Host.Outcome State Fault Refusal :=
  requestWith 0x82 (parseEmpty p) (fun _ => readStatus) s

/-- WARM_RESET (R175). -/
def execWarmReset (p : List Byte) (s : State) : Host.Outcome State Fault Refusal :=
  requestWith 0x83 (parseEmpty p) (fun _ => askWarmReset) s

/-- SET_NOTICE_MASK (R172). -/
def execSetNoticeMask (p : List Byte) (ok : Bool) (s : State) : Host.Outcome State Fault Refusal :=
  requestWith 0x84 (parseNoticeMask p) (fun x => setNoticeMask ok x.1 x.2) s

end Sys2Proof.Machine
end

