-- ==== Sys2Proof/Machine/SampleEvents.lean ====
section
/-! DEFINITION. The sample event (R25) through all blocks in their order, and the rows of the table that are the sample
event at which one count reaches its limit (log 4). -/

namespace Sys2Proof.Machine

/-- The sample result formed from what the acquisition unit hands on (R1). -/
def formedResult (s : State) (value : Bank Int 16) : SampleResult :=
  sampleResult s.acq.scale s.metro.valid s.store.config (fun i => (s.acq.channels.get i).health) value.get
    s.zm.offset

/-- What waits on the sample result, in its order: zero and window, map, capture, calibration at the settling clock at
which the event is decided, audit step, the sessions' idle counts (log 12). -/
def serveResult (ok : Bool) (r : SampleResult) (value : Bank Int 16) (e : Ev) : Ev :=
  let t := e.st.zm.clock
  let e1 := serveOperation ok r (serveMap ok r (serveZero r e))
  serveAuditIdle (serveAdjustIdle (serveStep (serveCalibration r value.get t e1)))

/-- The sample event (R25): acquisition, the sample result, what waits on it, the end of the warm-up (log 12). -/
def sampleEvent (inp : SampleInput) (e : Ev) : Ev :=
  let a := acquire inp e
  warmupEnd (serveResult inp.storeOk (formedResult a.ev.st a.value) a.value a.ev)

/-- The sample event of a state finds a mark. -/
def finds (m : Mark) (inp : SampleInput) (s : State) : Bool := (sampleEvent inp (Ev.start s)).marks.contains m

/-- A row that names a count: the sample event at which the count reaches its limit. A sample event at which it does not
is the row SAMPLE_EVENT, and this row is not due (log 4). -/
def sampleWhen (m : Mark) (inp : SampleInput) (s : State) : Host.Outcome State Fault Refusal :=
  if finds m inp s then event (sampleEvent inp) s else .next s

/-! ## The meanings -/

/-- SAMPLE_EVENT (R25). -/
def execSampleEvent (inp : SampleInput) (s : State) : Host.Outcome State Fault Refusal := event (sampleEvent inp) s

/-- WARMUP_END (R22). -/
def execWarmupEnd (inp : SampleInput) (s : State) : Host.Outcome State Fault Refusal := sampleWhen .warmupEnd inp s

/-- STUCK (R28). -/
def execStuck (ch : Chan) (inp : SampleInput) (s : State) : Host.Outcome State Fault Refusal :=
  sampleWhen (.stuck ch) inp s

/-- CLEAN_HALF_SECOND (R32). -/
def execCleanHalfSecond (ch : Chan) (inp : SampleInput) (s : State) : Host.Outcome State Fault Refusal :=
  sampleWhen (.cleanHalfSecond ch) inp s

/-- RECOVERY_COMPLETE (R35). -/
def execRecoveryComplete (ch : Chan) (inp : SampleInput) (s : State) : Host.Outcome State Fault Refusal :=
  sampleWhen (.recoveryComplete ch) inp s

/-- ZERO_TRACKING_STEP (R54). -/
def execZeroTrackingStep (inp : SampleInput) (s : State) : Host.Outcome State Fault Refusal :=
  sampleWhen .trackingStep inp s

/-- HIDDEN_LOAD (R71). -/
def execHiddenLoad (inp : SampleInput) (s : State) : Host.Outcome State Fault Refusal := sampleWhen .hiddenLoad inp s

/-- MAP_RECOVERY (R72). -/
def execMapRecovery (inp : SampleInput) (s : State) : Host.Outcome State Fault Refusal := sampleWhen .mapRecovery inp s

/-- UNSTABLE_TIMEOUT (R103). -/
def execUnstableTimeout (inp : SampleInput) (s : State) : Host.Outcome State Fault Refusal :=
  sampleWhen .unstableTimeout inp s

/-- CAL_UNSTABLE (R139). -/
def execCalUnstable (inp : SampleInput) (s : State) : Host.Outcome State Fault Refusal := sampleWhen .calUnstable inp s

/-- STEP_FAILED_UNSTABLE (R152). -/
def execStepFailedUnstable (inp : SampleInput) (s : State) : Host.Outcome State Fault Refusal :=
  sampleWhen .stepFailed inp s

/-- ADJUST_IDLE_ABORT (R145). -/
def execAdjustIdleAbort (inp : SampleInput) (s : State) : Host.Outcome State Fault Refusal :=
  sampleWhen .adjustIdle inp s

/-- AUDIT_IDLE_ABANDON (R150). -/
def execAuditIdleAbandon (inp : SampleInput) (s : State) : Host.Outcome State Fault Refusal :=
  sampleWhen .auditIdle inp s

end Sys2Proof.Machine
end

