-- ==== Sys2Proof/Machine/Dispatch.lean ====
section
/-! DEFINITION. The dispatcher: one arm per command, each one direct call of the command's meaning. -/

namespace Sys2Proof.Machine

def exec (i : Instr) (s : State) : Host.Outcome State Fault Refusal :=
  match i with
  | .sampleEvent inp => Sys2Proof.Machine.execSampleEvent inp s
  | .warmupEnd inp => Sys2Proof.Machine.execWarmupEnd inp s
  | .stuck ch inp => Sys2Proof.Machine.execStuck ch inp s
  | .cleanHalfSecond ch inp => Sys2Proof.Machine.execCleanHalfSecond ch inp s
  | .recoveryComplete ch inp => Sys2Proof.Machine.execRecoveryComplete ch inp s
  | .zeroTrackingStep inp => Sys2Proof.Machine.execZeroTrackingStep inp s
  | .hiddenLoad inp => Sys2Proof.Machine.execHiddenLoad inp s
  | .mapRecovery inp => Sys2Proof.Machine.execMapRecovery inp s
  | .unstableTimeout inp => Sys2Proof.Machine.execUnstableTimeout inp s
  | .calUnstable inp => Sys2Proof.Machine.execCalUnstable inp s
  | .stepFailedUnstable inp => Sys2Proof.Machine.execStepFailedUnstable inp s
  | .adjustIdleAbort inp => Sys2Proof.Machine.execAdjustIdleAbort inp s
  | .auditIdleAbandon inp => Sys2Proof.Machine.execAuditIdleAbandon inp s
  | .activation line element stamp storeOk => Sys2Proof.Machine.execActivation line element stamp storeOk s
  | .elementClear line element => Sys2Proof.Machine.execElementClear line element s
  | .pairingGuard line => Sys2Proof.Machine.execPairingGuard line s
  | .singleElementFault line => Sys2Proof.Machine.execSingleElementFault line s
  | .loopChange loop active storeOk => Sys2Proof.Machine.execLoopChange loop active storeOk s
  | .switchState toCal => Sys2Proof.Machine.execSwitchState toCal s
  | .secondCarry stales => Sys2Proof.Machine.execSecondCarry stales s
  | .crystalStop => Sys2Proof.Machine.execCrystalStop s
  | .crystalReturn => Sys2Proof.Machine.execCrystalReturn s
  | .mainSupplyLoss cause => Sys2Proof.Machine.execMainSupplyLoss cause s
  | .coldStart inputs => Sys2Proof.Machine.execColdStart inputs s
  | .powerOnReset inputs => Sys2Proof.Machine.execPowerOnReset inputs s
  | .resetLine inputs => Sys2Proof.Machine.execResetLine inputs s
  | .frameGapTimeout => Sys2Proof.Machine.execFrameGapTimeout s
  | .framingError => Sys2Proof.Machine.execFramingError s
  | .lengthError kind length => Sys2Proof.Machine.execLengthError kind length s
  | .crcError kind payload crc => Sys2Proof.Machine.execCrcError kind payload crc s
  | .unknownRequest kind payload => Sys2Proof.Machine.execUnknownRequest kind payload s
  | .transmitComplete inputs => Sys2Proof.Machine.execTransmitComplete inputs s
  | .identify payload => Sys2Proof.Machine.execIdentify payload s
  | .readStatus payload => Sys2Proof.Machine.execReadStatus payload s
  | .warmReset payload => Sys2Proof.Machine.execWarmReset payload s
  | .setNoticeMask payload storeOk => Sys2Proof.Machine.execSetNoticeMask payload storeOk s
  | .enterStandby payload => Sys2Proof.Machine.execEnterStandby payload s
  | .leaveStandby payload => Sys2Proof.Machine.execLeaveStandby payload s
  | .writeChannelSettings payload => Sys2Proof.Machine.execWriteChannelSettings payload s
  | .excludeChannel payload => Sys2Proof.Machine.execExcludeChannel payload s
  | .reinstateChannel payload => Sys2Proof.Machine.execReinstateChannel payload s
  | .readChannel payload => Sys2Proof.Machine.execReadChannel payload s
  | .readFaultCapture payload => Sys2Proof.Machine.execReadFaultCapture payload s
  | .setZero payload => Sys2Proof.Machine.execSetZero payload s
  | .readWeight payload => Sys2Proof.Machine.execReadWeight payload s
  | .writeTreadleSettings payload storeOk => Sys2Proof.Machine.execWriteTreadleSettings payload storeOk s
  | .readTreadles payload => Sys2Proof.Machine.execReadTreadles payload s
  | .readAxleMap payload => Sys2Proof.Machine.execReadAxleMap payload s
  | .writeGroupLimits payload storeOk => Sys2Proof.Machine.execWriteGroupLimits payload storeOk s
  | .writeClass payload storeOk => Sys2Proof.Machine.execWriteClass payload storeOk s
  | .readSiteTables payload => Sys2Proof.Machine.execReadSiteTables payload s
  | .startCapture payload => Sys2Proof.Machine.execStartCapture payload s
  | .cancelOperation payload => Sys2Proof.Machine.execCancelOperation payload s
  | .releaseVehicle payload => Sys2Proof.Machine.execReleaseVehicle payload s
  | .writeCaptureSettings payload => Sys2Proof.Machine.execWriteCaptureSettings payload s
  | .readTransaction payload => Sys2Proof.Machine.execReadTransaction payload s
  | .listTransactions payload => Sys2Proof.Machine.execListTransactions payload s
  | .cancelTransaction payload storeOk => Sys2Proof.Machine.execCancelTransaction payload storeOk s
  | .readStoredTare payload => Sys2Proof.Machine.execReadStoredTare payload s
  | .listStoredTares payload => Sys2Proof.Machine.execListStoredTares payload s
  | .deleteStoredTare payload storeOk => Sys2Proof.Machine.execDeleteStoredTare payload storeOk s
  | .fetchTicket payload => Sys2Proof.Machine.execFetchTicket payload s
  | .releaseTicket payload storeOk => Sys2Proof.Machine.execReleaseTicket payload storeOk s
  | .writeTicketSettings payload storeOk => Sys2Proof.Machine.execWriteTicketSettings payload storeOk s
  | .openAdjustment payload => Sys2Proof.Machine.execOpenAdjustment payload s
  | .stageParameter payload => Sys2Proof.Machine.execStageParameter payload s
  | .calibrateZero payload => Sys2Proof.Machine.execCalibrateZero payload s
  | .calibrateSpan payload => Sys2Proof.Machine.execCalibrateSpan payload s
  | .calibrateLinearityPoint payload => Sys2Proof.Machine.execCalibrateLinearityPoint payload s
  | .commitAdjustment payload storeOk => Sys2Proof.Machine.execCommitAdjustment payload storeOk s
  | .abandonAdjustment payload => Sys2Proof.Machine.execAbandonAdjustment payload s
  | .readMetrologyStatus payload => Sys2Proof.Machine.execReadMetrologyStatus payload s
  | .readConfiguration payload => Sys2Proof.Machine.execReadConfiguration payload s
  | .readAuditTrail payload => Sys2Proof.Machine.execReadAuditTrail payload s
  | .openAudit payload => Sys2Proof.Machine.execOpenAudit payload s
  | .auditStep payload => Sys2Proof.Machine.execAuditStep payload s
  | .closeAudit payload storeOk => Sys2Proof.Machine.execCloseAudit payload storeOk s
  | .abandonAudit payload => Sys2Proof.Machine.execAbandonAudit payload s
  | .readAuditRecord payload => Sys2Proof.Machine.execReadAuditRecord payload s
  | .setCalendar payload storeOk => Sys2Proof.Machine.execSetCalendar payload storeOk s
  | .readCalendar payload => Sys2Proof.Machine.execReadCalendar payload s
  | .crystalRunGap => Sys2Proof.Machine.execCrystalRunGap s

end Sys2Proof.Machine
end

