-- ==== Sys2Proof/Machine/Step.lean ====
section
/-! DEFINITION. One step of the block: the command at the front of the queue is taken and executed on the state with
the queue's rest; on an empty queue the block idles (logs 1 and 2). -/

namespace Sys2Proof.Machine

/-- One step (logs 1 and 2). -/
def step (s : State) : Host.Outcome State Fault Refusal :=
  match s.pending with
  | [] => .next s
  | c :: r => exec c (s.setPending r)

/-- The state with the command that a table word spells put at the front of its queue. No row of the table gives bits,
so no word spells a command and the state is unchanged. -/
def State.withFetchWord (s : State) (nbits w : Nat) : State :=
  match decodeTableWord nbits w with
  | none => s
  | some c => s.setPending (c :: s.pending)

end Sys2Proof.Machine
end

