-- ==== Sys2Proof/WellFormed.lean ====
section
/-! DEFINITION. Well-formed commands: the operands that the row's event or frame can bring (R167, R168). A command that
is not well formed names an event that cannot come about; the operands' other ranges are in their types. -/

namespace Sys2Proof

/-- A payload fits a frame (R167). -/
def payloadFits (p : List Byte) : Bool := decide (p.length ≤ Machine.maxPayload)

/-- The command is one that can come about. -/
def Instr.wellFormed (i : Instr) : Bool :=
  match i with
  | .lengthError _ length => decide (Machine.maxPayload < length.toNat)
  | .crcError kind payload crc => payloadFits payload && crc != Machine.frameCrc kind payload
  | .unknownRequest kind payload => payloadFits payload && !namesRequest kind
  | _ =>
    match i.frame? with
    | none => true
    | some (_, p) => payloadFits p

end Sys2Proof
end

