-- ==== Sys2Proof/Safety.lean ====
section
/-! DEFINITION. What the whole block promises: the laws that the manual states, each as a property of states that every
step keeps, with the capacities and ranges of its records; and the words in which statements speak of a request. -/

namespace Sys2Proof.Machine

/-! ## The words for a request -/

/-- A request that completes now is executed: the main supply is present and both answer slots are empty (R168). -/
def State.ready (s : State) : Prop := s.mainSupply = true ∧ s.link.slots = []

/-- The state after an executed request that changed it to `s` and raised `ns`: the receive buffer emptied, the notices
handed in their order, the answer in a slot, the idle transmitter started (R167, R168, R170, R171). -/
def answered (kind : Byte) (r : Reply) (ns : List Notice) (s : State) : State :=
  s.setLink ((({ s.link with rxBuffer := [] }.handAll ns).place { kind := kind, reply := r }).transmit)

/-- The state after an event that changed it to `s` and raised `ns` (R170, R171). -/
def notified (ns : List Notice) (s : State) : State := s.setLink ((s.link.handAll ns).transmit)

/-- The state after an executed request that began in `s0`, left `s` and raised `ns`: the entry lamp is formed anew when
one of its inputs changed, and a changed lamp is the last notice (R108). -/
def executed (kind : Byte) (r : Reply) (ns : List Notice) (s0 s : State) : State :=
  let s1 := formEntryLamp s0 s
  answered kind r (ns ++ lampNotes s0 s1) s1

/-- The state after an event that began in `s0`, left `s` and raised `ns` (R108). -/
def happened (ns : List Notice) (s0 s : State) : State :=
  let s1 := formEntryLamp s0 s
  notified (ns ++ lampNotes s0 s1) s1

/-- An event that led from `s` to `t` raised exactly the notices `ns`, before a last LAMP_STATE where a lamp changed: what
the event itself left had the link port of `s` (R108, R170, R171). -/
def State.raised (s : State) (ns : List Notice) (t : State) : Prop :=
  ∃ u : State, u.link = s.link ∧ t = happened ns s u

/-- An event that led from `s` to `t` raised the notices `ns` first, and behind them only notices with `p`. -/
def State.raisedFirst (s : State) (ns : List Notice) (p : Notice → Prop) (t : State) : Prop :=
  ∃ rest : List Notice, (∀ n ∈ rest, p n) ∧ s.raised (ns ++ rest) t

/-- OCCUPANCY where an event that led from `s` to `t` changed occupancy or certainty (R73). -/
def occupancyNotes (s t : State) : List Notice :=
  if t.axle.occupancy = s.axle.occupancy ∧ t.axle.certain = s.axle.certain then []
  else [.occupancy t.axle.occupancy t.axle.certain s.axle.occupancy]

/-- The exit lamp and the REWORK hold (R109). -/
def Capture.exit (c : Capture) : Lamp × Bool := (c.exitLamp, c.reworkHold)

/-- The exit lamp and the REWORK hold that an event which led from `s` to `t` leaves by its occupancy: the lamp RED when
occupancy became EMPTY, and otherwise both as they were (R109). -/
def exitByMap (s t : State) : Lamp × Bool :=
  if t.axle.occupancy = .empty ∧ s.axle.occupancy ≠ .empty then (.red, s.cap.reworkHold) else s.cap.exit

/-- The map of `t` completes no composite operation of `s`: of none has every axle of a complete vehicle been credited
(R102). -/
def State.completesNone (s t : State) : Prop :=
  ∀ op, s.cap.slot = .capture op → op.mode = .composite →
    ¬(t.axle.entryComplete = true ∧
      ∀ k, 1 ≤ k → k ≤ t.axle.entered → ∃ g ∈ op.credited, g.firstAxle ≤ k ∧ k ≤ g.lastAxle)

/-- The payload of a request matches it in length and in the fields that the link port reads (R168, R169, log 16). -/
def payloadReads : Instr → Bool
  | .identify p => (parseEmpty p).isSome
  | .readStatus p => (parseEmpty p).isSome
  | .warmReset p => (parseEmpty p).isSome
  | .setNoticeMask p _ => (parseNoticeMask p).isSome
  | .enterStandby p => (parseEmpty p).isSome
  | .leaveStandby p => (parseEmpty p).isSome
  | .writeChannelSettings p => (parseNat 4 p).isSome
  | .excludeChannel p => (parseNat 1 p).isSome
  | .reinstateChannel p => (parseNat 1 p).isSome
  | .readChannel p => (parseNat 1 p).isSome
  | .readFaultCapture p => (parseEmpty p).isSome
  | .setZero p => (parseEmpty p).isSome
  | .readWeight p => (parseEmpty p).isSome
  | .writeTreadleSettings p _ => (parseTreadle p).isSome
  | .readTreadles p => (parseEmpty p).isSome
  | .readAxleMap p => (parseEmpty p).isSome
  | .writeGroupLimits p _ => (parseLimits p).isSome
  | .writeClass p _ => (parseClass p).isSome
  | .readSiteTables p => (parseEmpty p).isSome
  | .startCapture p => (parseCapture p).isSome
  | .cancelOperation p => (parseNat 2 p).isSome
  | .releaseVehicle p => (parseEmpty p).isSome
  | .writeCaptureSettings p => (parseNat 1 p).isSome
  | .readTransaction p => (parseNat 4 p).isSome
  | .listTransactions p => (parseNat 4 p).isSome
  | .cancelTransaction p _ => (parseNat 4 p).isSome
  | .readStoredTare p => (parseText p).isSome
  | .listStoredTares p => (parseText p).isSome
  | .deleteStoredTare p _ => (parseText p).isSome
  | .fetchTicket p => (parseEmpty p).isSome
  | .releaseTicket p _ => (parseNat 4 p).isSome
  | .writeTicketSettings p _ => (parseTicketSettings p).isSome
  | .openAdjustment p => (parseEmpty p).isSome
  | .stageParameter p => (parseStage p).isSome
  | .calibrateZero p => (parseNat 1 p).isSome
  | .calibrateSpan p => (parseDeckLoad p).isSome
  | .calibrateLinearityPoint p => (parseDeckLoad p).isSome
  | .commitAdjustment p _ => (parseEmpty p).isSome
  | .abandonAdjustment p => (parseEmpty p).isSome
  | .readMetrologyStatus p => (parseEmpty p).isSome
  | .readConfiguration p => (parseConfigSelector p).isSome
  | .readAuditTrail p => (parseNat 4 p).isSome
  | .openAudit p => (parseEmpty p).isSome
  | .auditStep p => (parseStep p).isSome
  | .closeAudit p _ => (parseEmpty p).isSome
  | .abandonAudit p => (parseEmpty p).isSome
  | .readAuditRecord p => (parseAuditSelector p).isSome
  | .setCalendar p _ => (parseStamp p).isSome
  | .readCalendar p => (parseEmpty p).isSome
  | _ => true

/-! ## The laws -/

/-- The link port's capacities and masks: two answer slots, sixteen notices, an answer in transmission is in a slot, and
no mask has a bit that no notice is assigned to (R168, R170, R171, R172). -/
def LinkLaw (s : State) : Prop :=
  s.link.slots.length ≤ 2 ∧ s.link.queue.length ≤ 16 ∧ (s.link.tx = some .answer → s.link.slots ≠ []) ∧
    maskAllowed s.link.mask = true ∧ maskAllowed s.site.defaultMask = true

/-- The axle numbers of the vehicle from its front to its rear: the exited list, then the decks from the exit end. -/
def AxleMap.numbers (m : AxleMap) : List Nat :=
  (m.exited ++ (m.decks.get 3 ++ (m.decks.get 2 ++ (m.decks.get 1 ++ m.decks.get 0)))).map Axle.number

/-- The axle map law (04, 4.3) for a map over `n` active decks: while the map is CERTAIN, the axles 1 to the entered
count lie in their order, each once, on the exited list and the lists of the active decks, at most 24 of them; while it is
UNCERTAIN, nothing lies on it. -/
def AxleMap.lawful (n : Nat) (m : AxleMap) : Prop :=
  m.numbers = List.range' 1 m.entered ∧ m.entered ≤ 24 ∧ m.exitedCount = m.exited.length ∧
    (∀ d : Deck, n ≤ d.val → m.decks.get d = []) ∧ (m.certain = false → m.entered = 0)

/-- The axle map law of a state; a valid configuration has an active deck (R134, R135). -/
def AxleLaw (s : State) : Prop :=
  s.axle.lawful s.store.config.deckCount ∧ (s.metro.valid = true → 1 ≤ s.store.config.deckCount)

/-- The kind opens an entry when it completes, or may open one (R118, R125). -/
def CaptureKind.opens : CaptureKind → Bool
  | first => true
  | singlePass => true
  | second => false
  | tare => false
  | axleCheck => false

/-- The law of the two tables (07, 7.3): at most 64 entries, no two for one vehicle, and no two stored tares for one
vehicle. -/
def Store.tablesLawful (st : Store) : Prop :=
  st.entries.length ≤ 64 ∧ (st.entries.map OpenEntry.vehicle).Nodup ∧
    (∀ i j : Fin 128, ∀ a b : StoredTare, st.tares.get i = some a → st.tares.get j = some b →
      a.vehicle = b.vehicle → i = j)

/-- The law of the two tables in a state: an active FIRST or SINGLE_PASS has a place and no entry of its vehicle. -/
def TableLaw (s : State) : Prop :=
  s.store.tablesLawful ∧
    (∀ op, s.cap.slot = .capture op → op.request.kind.opens = true →
      s.store.entries.length < 64 ∧ s.store.hasVehicle op.request.vehicle = false)

/-- The ticket law (07, 7.8): the stored tickets have consecutive numbers, the newest the last number issued. -/
def Store.ticketsLawful (st : Store) : Prop :=
  st.tickets.length ≤ st.ticketCounter ∧
    st.tickets.map Ticket.number = List.range' (st.ticketCounter + 1 - st.tickets.length) st.tickets.length

/-- The ticket law of a state. -/
def TicketLaw (s : State) : Prop := s.store.ticketsLawful

/-- The reservation law (R130): stored tickets and reservations are at most 32, at most one slot is reserved, and an
active SECOND or SINGLE_PASS holds the reservation. -/
def ReservationLaw (s : State) : Prop :=
  s.tm.reserved ≤ 1 ∧ s.store.tickets.length + s.tm.reserved ≤ 32 ∧
    (∀ op, s.cap.slot = .capture op → op.request.kind.reserves = true → s.tm.reserved = 1)

/-- The metrology status is that of the state as it stands, while the main supply is present (R147). -/
def StatusLaw (s : State) : Prop :=
  s.mainSupply = true →
    s.metro.status = statusReasons s.metro.valid s.cap.slot.isAdjustment s.store s.cal.value

/-- The calendar law (R164): while the calendar is SET, its date is not earlier than the newest audit record's. -/
def CalendarLaw (s : State) : Prop :=
  ∀ t r, s.cal.value = some t → s.store.newestAudit = some r → t.date.before r.date = false

/-- The zero law: the window holds W entries at most, the settling clock 60,000 and the tracking count 49 (R41, R42,
R54); in ZERO_PENDING the zero is clear and no operation holds the slot (R50, R95); in ZERO_SET every initial zero lies
within Li of 0 and every offset within Lz of its initial zero (R50 to R52, R54). -/
def ZeroLaw (s : State) : Prop :=
  s.zm.window.length ≤ s.store.config.window ∧ s.zm.clock ≤ 60000 ∧ s.zm.trackCount ≤ 49 ∧
    (s.zm.zeroState = .pending →
      s.zm.trackCount = 0 ∧ (∀ op, s.cap.slot ≠ .capture op) ∧
        ∀ d, s.zm.offset.get d = 0 ∧ s.zm.initial.get d = 0 ∧ s.zm.halt.get d = false) ∧
    (s.zm.zeroState = .set →
      ∀ d, (s.zm.initial.get d).natAbs ≤ s.store.config.initialRange ∧
        (s.zm.offset.get d - s.zm.initial.get d).natAbs ≤ s.store.config.trackingRange)

/-- A class table entry lies in its ranges (R77). -/
def ClassEntry.inRange (c : ClassEntry) : Bool :=
  decide (1000 ≤ c.grossLimit ∧ c.grossLimit ≤ 250000 ∧ 2 ≤ c.maxAxles ∧ c.maxAxles ≤ 24)

/-- The settings lie in their ranges, the trail and the audit records within their capacities, and the excitation is off
exactly in STANDBY (R22, R23, R30, R57, R76, R77, R96, R132, R146, R156). -/
def SettingsLaw (s : State) : Prop :=
  s.site.treadle.inRange = true ∧ s.site.limits.inRange = true ∧ s.site.ticket.inRange = true ∧
    (∀ i, (s.site.classes.get i).inRange = true) ∧
    (5 ≤ s.cap.timeout ∧ s.cap.timeout ≤ 120) ∧ (1000 ≤ s.acq.spikeLimit ∧ s.acq.spikeLimit ≤ 1000000) ∧
    s.store.trail.length ≤ 48 ∧ s.store.audits.length ≤ 8 ∧ s.acq.excitation = decide (s.acq.scale ≠ .standby)

/-- The entry lamp is the one that its inputs give, while the main supply is present (R108). -/
def LampLaw (s : State) : Prop := s.mainSupply = true → s.cap.entryLamp = s.entryLampOf

end Sys2Proof.Machine
end

