-- ==== Sys2Proof/Certificates/Slice0/Obligations.lean ====
section
/-! DEFINITION. The statements for the provers, chapter by chapter. `State.ready`, `answered`, `executed`, `notified`,
`happened`, `State.raised`, `State.raisedFirst` and `occupancyNotes` (Sys2Proof/Safety.lean) are the words for a request
that is executed and for an event and its notices. -/

section Statements

open Sys2Proof Sys2Proof.Machine

/-! ## The step -/

/-- A step takes the command at the front of the queue and executes it on the state with the queue's rest (log 1); on an
empty queue the block idles (log 2). -/
def Obligations.StepTakesFront : Prop :=
  (∀ (s : State) (c : Instr) (r : List Instr), s.pending = c :: r → step s = exec c (s.setPending r)) ∧
    (∀ s : State, s.pending = [] → step s = .next s)

/-- No command stops the block, and none touches the queue of waiting commands: every command answers a next state in
every state (logs 1 and 32). -/
def Obligations.NoCommandStops : Prop :=
  ∀ (c : Instr) (s : State), ∃ t, exec c s = .next t ∧ t.pending = s.pending

/-! ## Reset -/

/-- The state after reset is the cold start of a part never written with every input at rest (logs 8 and 9), and it has
every law. A part never written holds the settings of R57, R76, R77 and R132, every assigned bit of the default mask
(R172), the default configuration with its checksum, which is INVALID for want of an active deck (R134, R135, R147), and
empty records with their counters (R115, R144, R146, R156). -/
def Obligations.ResetState : Prop :=
  let atRest : ResetInputs :=
    { levelA := Bank.fill 5 false, levelB := Bank.fill 5 false, loopEntry := false, loopExit := false
      switchCal := false, fastBaud := false }
  exec (.coldStart atRest) State.reset = .next State.reset ∧
  (LinkLaw .reset ∧ AxleLaw .reset ∧ TableLaw .reset ∧ TicketLaw .reset ∧ ReservationLaw .reset ∧ StatusLaw .reset ∧
    CalendarLaw .reset ∧ SettingsLaw .reset ∧ LampLaw .reset ∧ ZeroLaw .reset) ∧
  (let site := State.reset.site
   site.treadle = { separation := 300, filterTime := 8, groupGap := 250 } ∧
   site.limits =
     { steerSingle := 6500, steerTwin := 11000, single := 9000, tandem := 16500, tridem := 20000, quad := 23000 } ∧
   (∀ i, site.classes.get i = { inUse := false, grossLimit := 42500, maxAxles := 24, profile := .one }) ∧
   site.ticket = { watermark := 24, tareValidity := 90, staleness := 72 } ∧
   (∀ b, b < 32 → (site.defaultMask.getLsbD b = true ↔ b ≠ 9 ∧ b ≠ 31))) ∧
  (let c := State.reset.store.config
   (∀ i, c.channels.get i = { deck := none, zero := 0, gain := 1048576 }) ∧
   (∀ d, c.linearity.get d = [] ∧ c.minTestLoad.get d = 10000) ∧
   c.maxKg = 60000 ∧ c.eKg = 20 ∧ c.profile1 = { segments := [(0, 4)], offset := 0 } ∧
   c.profile2 = { segments := [(0, 4)], offset := 0 } ∧ c.window = 25 ∧ c.zeroTracking = true ∧ c.warmupCode = 1 ∧
   c.mpe = [(500, 2), (2000, 4), (10000, 6)] ∧ c.auditInterval = 365 ∧ c.activeDecks = []) ∧
  (let st := State.reset.store
   st.checksum = configChecksum st.config ∧ st.eventCounter = 0 ∧ st.trail = [] ∧ st.nextSeq = 1 ∧ st.audits = [] ∧
   st.auditCounter = 0 ∧ st.entries = [] ∧ (∀ i, st.tares.get i = none) ∧ st.tickets = [] ∧ st.txCounter = 0 ∧
   st.ticketCounter = 0 ∧ State.reset.metro.valid = false ∧
   State.reset.metro.status =
     { uncalibrated := true, adjusting := false, auditRequired := true, auditFailed := false, auditOverdue := false
       timeUnset := true })

/-! ## The laws that every step keeps -/

/-- Every step keeps the link port's capacities and masks (R168, R171, R172), and the settings in their ranges and the
records in their capacities (R57, R76, R77, R96, R132, R146, R156). -/
def Obligations.LinkAndSettingsLawsKept : Prop :=
  (∀ s t : State, LinkLaw s → step s = .next t → LinkLaw t) ∧
    (∀ s t : State, SettingsLaw s → step s = .next t → SettingsLaw t)

/-- Every step keeps the axle map law (R64 to R72). -/
def Obligations.AxleLawKept : Prop := ∀ s t : State, AxleLaw s → step s = .next t → AxleLaw t

/-- Every step keeps the law of the open transaction table and the stored tare table (R116, R117, R123). -/
def Obligations.TableLawKept : Prop := ∀ s t : State, TableLaw s → step s = .next t → TableLaw t

/-- Every step keeps the ticket numbers consecutive (R115, R129, R131). -/
def Obligations.TicketLawKept : Prop := ∀ s t : State, TicketLaw s → step s = .next t → TicketLaw t

/-- Every step keeps room for the ticket that a reservation promises (R130). -/
def Obligations.ReservationLawKept : Prop := ∀ s t : State, ReservationLaw s → step s = .next t → ReservationLaw t

/-- Every step leaves the metrology status that of the state as it then stands. A reason is in the set exactly when it
applies, and the status is TRADE_READY exactly when the configuration is valid, no adjustment session is open, the
calendar is SET, and the newest audit record is a PASS with the current counter whose due date is not before the current
date, by the numbers of their days (R147). -/
def Obligations.StatusLawKept : Prop :=
  (∀ s t : State, StatusLaw s → step s = .next t → StatusLaw t) ∧
  (∀ (valid adjusting : Bool) (st : Store) (now : Option DateTime),
    let r := statusReasons valid adjusting st now
    let current := fun (x : AuditRecord) => st.audits.getLast? = some x ∧ x.counter = st.eventCounter
    let late := fun (x : AuditRecord) =>
      ∃ due t, x.due = some due ∧ now = some t ∧ due.dayNumber < t.date.dayNumber
    (r.uncalibrated = true ↔ valid = false) ∧ (r.adjusting = true ↔ adjusting = true) ∧
    (r.auditRequired = true ↔ ¬∃ x, current x) ∧ (r.auditFailed = true ↔ ∃ x, current x ∧ x.passed = false) ∧
    (r.auditOverdue = true ↔ ∃ x, current x ∧ x.passed = true ∧ late x) ∧ (r.timeUnset = true ↔ now = none) ∧
    (r.tradeReady = true ↔
      valid = true ∧ adjusting = false ∧ now ≠ none ∧ ∃ x, current x ∧ x.passed = true ∧ ¬late x))

/-- Every step keeps the calendar from lying before the newest audit record (R164). -/
def Obligations.CalendarLawKept : Prop := ∀ s t : State, CalendarLaw s → step s = .next t → CalendarLaw t

/-- Every step leaves the entry lamp the one that its inputs give: GREEN exactly when occupancy is EMPTY, the scale
state RUN, the zero set, the configuration valid, no session open and the REWORK hold clear, otherwise RED (R108). -/
def Obligations.LampLawKept : Prop :=
  (∀ s t : State, LampLaw s → step s = .next t → LampLaw t) ∧
  (∀ s : State,
    let green := s.axle.occupancy = .empty ∧ s.acq.scale = .run ∧ s.zm.zeroState = .set ∧ s.metro.valid = true ∧
      (∀ x, s.cap.slot ≠ .adjustment x) ∧ (∀ x, s.cap.slot ≠ .audit x) ∧ s.cap.reworkHold = false
    (green → s.entryLampOf = .green) ∧ (¬green → s.entryLampOf = .red))

/-- Every step keeps the zero law: the window within W, the settling clock within 60,000, the tracking count within
49; a clear zero and no operation in ZERO_PENDING; in ZERO_SET every initial zero within Li and every offset within Lz
of its initial zero (R41, R42, R50 to R54, R95). -/
def Obligations.ZeroLawKept : Prop := ∀ s t : State, ZeroLaw s → step s = .next t → ZeroLaw t

/-- The metrological event counter is raised by one in a Commit Adjustment that stores a configuration, and by no other
command (R144). -/
def Obligations.EventCounterRaised : Prop :=
  ∀ (c : Instr) (s t : State), exec c s = .next t →
    t.store.eventCounter = s.store.eventCounter ∨
      (∃ sess, c = .commitAdjustment [] true ∧ s.cap.slot = .adjustment sess ∧
        t.store.eventCounter = s.store.eventCounter + 1 ∧ t.store.config = sess.staged)

/-! ## The link: frames, slots, notices -/

/-- The frame that carries a request is received as that request, whatever was hunted through before it; the outcome
of the request's nonvolatile write is the receiver's to add (R167, R169, log 7). -/
def Obligations.FrameRoundTrip : Prop :=
  ∀ (i : Instr) (kind : Byte) (p noise : List Byte), i.frame? = some (kind, p) → i.wellFormed = true →
    (0xA5 : Byte) ∉ noise →
      (∃ ok, receive ok (noise ++ i.encode) = [i]) ∧
        (∀ ok, ∃ j, receive ok (noise ++ i.encode) = [j] ∧ j.frame? = some (kind, p))

/-- A request that completes while one answer slot is held is answered LINK_BUSY and not executed; while both are held
it is dropped (R168); the answer's kind is 0xFF when the kind names no request (log 18). A request whose payload does
not match it is answered BAD_REQUEST, with the request kind plus 0x80 as the answer's kind, and a kind byte that names
no request with answer kind 0xFF; nothing else happens (R168; what counts as a match: log 16). Frames that end without
a request: a gap or a framing error discards the frame with no answer; a length above 1,024 or a wrong CRC is answered
LINK_ERROR with its cause and the received kind while a slot is empty, and is dropped when both are full (R167, R168).
-/
def Obligations.FramesTurnedDown : Prop :=
  (∀ (i : Instr) (kind : Byte) (p : List Byte) (s : State), i.frame? = some (kind, p) → i.wellFormed = true →
    s.mainSupply = true →
      (∀ a, s.link.slots = [a] →
        exec i s = .next (s.setLink ({ s.link with
          rxBuffer := []
          slots := [a, { kind := if namesRequest kind then kind + 0x80 else 0xFF
                         reply := { status := .linkBusy, body := .none } }] } : Link).transmit)) ∧
      (∀ a b, s.link.slots = [a, b] → exec i s = .next (s.setLink { s.link with rxBuffer := [] }))) ∧
  (∀ (i : Instr) (kind : Byte) (p : List Byte) (s : State), i.frame? = some (kind, p) → namesRequest kind = true →
    payloadReads i = false → s.ready →
      exec i s = .next (answered (kind + 0x80) { status := .badRequest, body := .none } [] s)) ∧
  (∀ (kind : Byte) (p : List Byte) (s : State), namesRequest kind = false → s.ready →
    exec (.unknownRequest kind p) s = .next (answered 0xFF { status := .badRequest, body := .none } [] s)) ∧
  (∀ s : State, s.mainSupply = true →
    exec .frameGapTimeout s = .next (s.setLink { s.link with rxBuffer := [] }) ∧
    exec .framingError s = .next (s.setLink { s.link with rxBuffer := [] }) ∧
    (∀ (kind : Byte) (n : BitVec 16), 1024 < n.toNat →
      exec (.lengthError kind n) s = .next (s.setLink
        (if s.link.slots.length < 2 then
          ({ s.link with
            rxBuffer := []
            slots := s.link.slots ++
              [{ kind := 0xFF, reply := { status := .linkError, body := .linkError .length kind } }] } : Link).transmit
        else { s.link with rxBuffer := [] }))) ∧
    (∀ (kind : Byte) (p : List Byte) (crc : BitVec 16), crc ≠ frameCrc kind p →
      exec (.crcError kind p crc) s = .next (s.setLink
        (if s.link.slots.length < 2 then
          ({ s.link with
            rxBuffer := []
            slots := s.link.slots ++
              [{ kind := 0xFF, reply := { status := .linkError, body := .linkError .crc kind } }] } : Link).transmit
        else { s.link with rxBuffer := [] }))))

/-- The notices of an event are handed over one after the other: a disabled kind is discarded, an enabled one joins
the rear of the queue, and is dropped with NOTICE_LOSS set when 16 are queued (R171). At the end of a frame the
transmitter starts the answer that has waited longest, otherwise the oldest notice, which leaves the queue; a
transmitted answer frees its slot (R168, R170). -/
def Obligations.NoticesAndTransmission : Prop :=
  (∀ (l : Link) (n : Notice) (ns : List Notice), l.handAll (n :: ns) = (l.hand n).handAll ns) ∧
  (∀ (l : Link) (n : Notice), l.mask.getLsbD n.code = false → l.hand n = l) ∧
  (∀ (l : Link) (n : Notice), l.mask.getLsbD n.code = true → l.queue.length < 16 →
    l.hand n = { l with queue := l.queue ++ [n] }) ∧
  (∀ (l : Link) (n : Notice), l.mask.getLsbD n.code = true → 16 ≤ l.queue.length →
    l.hand n = { l with noticeLoss := true }) ∧
  (∀ (inputs : ResetInputs) (s : State), s.mainSupply = true →
    (∀ n a r, s.link.tx = some (.notice n) → s.link.slots = a :: r →
      exec (.transmitComplete inputs) s = .next (s.setLink { s.link with tx := some .answer })) ∧
    (∀ n m q, s.link.tx = some (.notice n) → s.link.slots = [] → s.link.queue = m :: q →
      exec (.transmitComplete inputs) s = .next (s.setLink { s.link with tx := some (.notice m), queue := q })) ∧
    (∀ n, s.link.tx = some (.notice n) → s.link.slots = [] → s.link.queue = [] →
      exec (.transmitComplete inputs) s = .next (s.setLink { s.link with tx := none })) ∧
    (∀ a b r, s.link.tx = some .answer → s.link.slots = a :: b :: r → a.asksReset = false →
      exec (.transmitComplete inputs) s = .next (s.setLink { s.link with slots := b :: r })) ∧
    (∀ a m q, s.link.tx = some .answer → s.link.slots = [a] → a.asksReset = false → s.link.queue = m :: q →
      exec (.transmitComplete inputs) s =
        .next (s.setLink { s.link with slots := [], tx := some (.notice m), queue := q })) ∧
    (∀ a, s.link.tx = some .answer → s.link.slots = [a] → a.asksReset = false → s.link.queue = [] →
      exec (.transmitComplete inputs) s = .next (s.setLink { s.link with slots := [], tx := none })))

/-! ## The requests of the link port -/

/-- Identify is answered OK with the part's fixed fields and the baud rate, and changes nothing (R173). Read Status is
answered OK with its fields as they stand, NOTICE_LOSS as it stood before the request; it is then cleared, and a notice
dropped later sets it again (R174). -/
def Obligations.StatusAndIdentity : Prop :=
  (∀ s : State, s.ready →
    exec (.identify []) s = .next (answered 0x81
      { status := .ok
        body := .identify [0x41, 0x53, 0x54, 0x4F, 0x50, 0x45, 0x4C]
          [0x57, 0x48, 0x45, 0x4C, 0x46, 0x4F, 0x52, 0x44, 0x20, 0x32, 0x34, 0x32, 0x30] 1 1024
          (match s.link.baud with
            | .b19200 => 19200
            | .b115200 => 115200) 16 4 5 } [] s)) ∧
  ((∀ s : State, s.ready →
    exec (.readStatus []) s = .next (answered 0x82
      { status := .ok
        body := .status
          { noticeLoss := s.link.noticeLoss, queued := s.link.queue.length
            storeFault := s.tm.storeFault
            scale := s.acq.scale, zeroState := s.zm.zeroState, occupancy := s.axle.occupancy, certain := s.axle.certain
            slot := match s.cap.slot with
              | .free => .free
              | .capture op => .capture op.number op.state
              | .adjustment _ => .adjustment
              | .audit _ => .audit
            entryLamp := s.cap.entryLamp, exitLamp := s.cap.exitLamp, reworkHold := s.cap.reworkHold
            status := s.metro.status
            calendarRunning := s.cal.value.isSome, degraded := s.cal.degraded
            tickets := s.store.tickets.length, reserved := s.tm.reserved
            freeSlots := 32 - s.store.tickets.length - s.tm.reserved
            ticket := s.site.ticket, timeout := s.cap.timeout, spikeLimit := s.acq.spikeLimit
            mask := s.link.mask, defaultMask := s.site.defaultMask, sampleNumber := s.acq.sampleNumber } } []
      (s.setLink { s.link with noticeLoss := false }))) ∧
  (∀ (l : Link) (n : Notice), l.mask.getLsbD n.code = true → 16 ≤ l.queue.length → (l.hand n).noticeLoss = true))

/-- Warm Reset is answered OK and changes nothing else at the request event; the reset is made, as the RESET line
makes it, when that answer has left the transmitter, and whatever else is in the slots is discarded (R175). Set Notice
Mask: a mask with bit 9 or bit 31 set is refused with BAD_REQUEST and nothing changes; otherwise the mask replaces the
notice mask, and with the flag set also the stored default mask, unless that write fails (R113, R172). -/
def Obligations.WarmResetAndNoticeMask : Prop :=
  (∀ s : State, s.ready →
    exec (.warmReset []) s = .next (answered 0x83 { status := .ok, body := .none } [] s)) ∧
  (∀ (inputs : ResetInputs) (s : State) (r : List Answer), s.mainSupply = true → s.link.tx = some .answer →
    s.link.slots = { kind := 0x83, reply := { status := .ok, body := .none } } :: r →
      exec (.transmitComplete inputs) s = exec (.resetLine inputs) s ∧
        (∀ t, exec (.transmitComplete inputs) s = .next t → t.link.slots = [])) ∧
  (∀ (p : List Byte) (ok flag : Bool) (m : BitVec 32) (s : State), parseNoticeMask p = some (m, flag) → s.ready →
    exec (.setNoticeMask p ok) s = .next (
      if m.getLsbD 9 = true ∨ m.getLsbD 31 = true then answered 0x84 { status := .badRequest, body := .none } [] s
      else if flag = false then
        answered 0x84 { status := .ok, body := .none } [] (s.setLink { s.link with mask := m })
      else if ok = false then answered 0x84 { status := .storeFault, body := .none } [] s
      else answered 0x84 { status := .ok, body := .none } []
        ((s.setLink { s.link with mask := m }).setSite { s.site with defaultMask := m })))

/-- Every reset empties the link port and clears NOTICE_LOSS; cold start and power-on reset load the notice mask from
the stored default mask, a warm reset keeps it; the strap gives the baud rate; the stored default mask is kept (R176).
-/
def Obligations.ResetOfLinkPort : Prop :=
  ∀ (inputs : ResetInputs) (s : State),
    (∃ t, exec (.coldStart inputs) s = .next t ∧ t.site.defaultMask = s.site.defaultMask ∧
      t.link = { rxBuffer := [], slots := [], tx := none, queue := [], mask := s.site.defaultMask, noticeLoss := false
                 baud := if inputs.fastBaud then .b115200 else .b19200 }) ∧
    (∃ t, exec (.powerOnReset inputs) s = .next t ∧ t.site.defaultMask = s.site.defaultMask ∧
      t.link = { rxBuffer := [], slots := [], tx := none, queue := [], mask := s.site.defaultMask, noticeLoss := false
                 baud := if inputs.fastBaud then .b115200 else .b19200 }) ∧
    (s.mainSupply = true →
      ∃ t, exec (.resetLine inputs) s = .next t ∧ t.site.defaultMask = s.site.defaultMask ∧
        t.link = { rxBuffer := [], slots := [], tx := none, queue := [], mask := s.link.mask, noticeLoss := false
                   baud := if inputs.fastBaud then .b115200 else .b19200 })

/-- What the resets make of every block beside the link port. The acquisition unit, the zero and motion unit and the
capture controller (R39, R56, R111): cold start and power-on reset begin a warm-up of the length that the stored
configuration gives as the start-up check finds it, a warm reset keeps the scale state, its warm-up and the zero; an
operation or a session is discarded with its reservation. The axle map unit: levels from the inputs, an empty
UNCERTAIN map of cause RESET, PARTIAL (R75; its time base: log 5). Validity from the start-up check, kept by a warm
reset; the switch from its input; the status recomputed (R135, R136, R147, R148). STORE_FAULT cleared, kept by a warm
reset (R133). The calendar as the table of R166 has it (log 9; a power-on reset while the supply is present: log 11);
the sub-second count, which that table does not hold, is 0 after a cold start and kept by the others by the model's
choice (log 3). No record and no site setting changes. No channel counts as evaluated (log 42), and the health
assignment in force stands until the next sample event (R145, log 25). -/
def Obligations.ResetOfBlocks : Prop :=
  ∀ (inputs : ResetInputs) (s : State),
    let fresh : Bank Channel 16 := Bank.fill 16
      { raw := none, prev := none, lastGood := none, stuckRun := 0, counter := 0, cleanRun := 0, health := .good
        cause := none, recovery := 0, lastCode := .none, evaluated := false }
    let noZero : ZeroMotion :=
      { zeroState := .pending, offset := Bank.fill 4 0, initial := Bank.fill 4 0, halt := Bank.fill 4 false
        rangeReported := false, trackCount := 0, clock := 0, window := [], latest := none
        decisions := { profile1 := false, profile2 := false, zeroBand := false } }
    let freeCap : Capture :=
      { slot := .free, opCounter := 0, timeout := 45, entryLamp := .red, exitLamp := .red, reworkHold := false }
    let noMap := fun (timeBase : Nat) (m : AxleMap) =>
      (∀ i, m.lines.get i =
        { levelA := inputs.levelA.get i, levelB := inputs.levelB.get i, pairing := .idle, code := .none }) ∧
      m = { timeBase := timeBase, lines := m.lines, loopEntry := inputs.loopEntry, loopExit := inputs.loopExit
            decks := Bank.fill 4 [], exited := [], entered := 0, exitedCount := 0, entryComplete := false
            reversal := false, certain := false, cause := .reset, hiddenCount := 0, recoveryCount := 0
            occupancy := .part }
    let agrees := configChecksum s.store.config = s.store.checksum ∧ s.store.config.activeDecks ≠ []
    let length : Nat :=
      if agrees then
        match s.store.config.warmupCode with
        | 0 => 100
        | 1 => 250
        | 2 => 500
        | _ => 1000
      else 1000
    let stopped := fun (value : Option DateTime) (degraded : Bool) =>
      ({ value := value, subSecond := s.cal.subSecond, source := .main, crystalRunning := false, runCount := 0
         stopRecord := false, degraded := degraded } : Calendar)
    let kept := fun t : State => t.store = s.store ∧ t.site = s.site ∧ t.cap = freeCap ∧ t.tm.reserved = 0 ∧
      t.metro.switchCal = inputs.switchCal ∧
      t.metro.status = statusReasons t.metro.valid false s.store t.cal.value ∧ t.mainSupply = true
    (∀ t, exec (.coldStart inputs) s = .next t ∨ exec (.powerOnReset inputs) s = .next t →
      t.acq = { channels := fresh, assign := s.acq.assign, faultCapture := none, sampleNumber := 0, spikeLimit := 100000
                scale := .warmup, warmCount := 0, warmLength := length, excitation := true } ∧
      t.zm = noZero ∧ noMap 0 t.axle ∧ (t.metro.valid = true ↔ agrees) ∧ t.tm.storeFault = false ∧ kept t) ∧
    (∀ t, exec (.coldStart inputs) s = .next t → t.cal = { stopped none false with subSecond := 0 }) ∧
    (∀ t, exec (.powerOnReset inputs) s = .next t →
      t.cal = stopped
        (if s.cal.stopRecord = true ∨ s.mainSupply = true ∧ s.cal.source = .main then none else s.cal.value)
        s.cal.degraded) ∧
    (∀ t, s.mainSupply = true → exec (.resetLine inputs) s = .next t →
      t.acq = { channels := fresh, assign := s.acq.assign, faultCapture := none, sampleNumber := 0, spikeLimit := 100000
                scale := s.acq.scale, warmCount := s.acq.warmCount, warmLength := s.acq.warmLength
                excitation := s.acq.excitation } ∧
      t.zm = { noZero with zeroState := s.zm.zeroState, offset := s.zm.offset, initial := s.zm.initial
                           halt := s.zm.halt, rangeReported := s.zm.rangeReported } ∧
      noMap s.axle.timeBase t.axle ∧ t.metro.valid = s.metro.valid ∧ t.tm.storeFault = s.tm.storeFault ∧
      t.cal = s.cal ∧ kept t)

/-! ## The acquisition unit -/

/-- Every sample event adds one to the sample number and puts the health assignment in force that its causes give, and
no other command changes the one in force: a session opened, staged or ended acts from the next sample event (R25,
R26, R145; log 25). In WARMUP and RUN each channel takes its conversion as raw sample, in STANDBY none does; a channel
that is not evaluated keeps its health records (R25, R26). The latest sample result carries that sample number. -/
def Obligations.SampleTaken : Prop :=
  (∀ (inp : SampleInput) (s : State), s.mainSupply = true →
    ∃ t, exec (.sampleEvent inp) s = .next t ∧ t.acq.sampleNumber = s.acq.sampleNumber + 1 ∧
      t.acq.spikeLimit = s.acq.spikeLimit ∧ t.site = s.site ∧ t.cal = s.cal ∧
      t.zm.latest.map LatestResult.sampleNumber = some (s.acq.sampleNumber + 1) ∧
      (∀ i, t.healthAssign i = s.assignmentDue i) ∧
      (∀ i, (t.acq.channels.get i).raw =
        if s.acq.scale = .standby then (s.acq.channels.get i).raw else some (inp.raw.get i).toInt) ∧
      (∀ i, s.acq.scale ≠ .run ∨ s.assignmentDue i = none →
        (t.acq.channels.get i).evaluated = false ∧
        (t.acq.channels.get i).health = (s.acq.channels.get i).health ∧
        (t.acq.channels.get i).cause = (s.acq.channels.get i).cause ∧
        (t.acq.channels.get i).counter = (s.acq.channels.get i).counter ∧
        (t.acq.channels.get i).cleanRun = (s.acq.channels.get i).cleanRun ∧
        (t.acq.channels.get i).recovery = (s.acq.channels.get i).recovery ∧
        (t.acq.channels.get i).lastCode = (s.acq.channels.get i).lastCode ∧
        (t.acq.channels.get i).lastGood = (s.acq.channels.get i).lastGood)) ∧
  (∀ (s : State) (i : Chan),
    (∀ x, s.cap.slot = .adjustment x → s.assignmentDue i = (x.staged.channels.get i).deck) ∧
    ((∀ x, s.cap.slot ≠ .adjustment x) → s.metro.valid = true →
      s.assignmentDue i = (s.store.config.channels.get i).deck) ∧
    ((∀ x, s.cap.slot ≠ .adjustment x) → s.metro.valid = false → s.assignmentDue i = none)) ∧
  (∀ (c : Instr) (s t : State), exec c s = .next t →
    t.acq.assign = s.acq.assign ∨
      (s.acq.sampleNumber + 1 = t.acq.sampleNumber ∧ ∀ i, t.healthAssign i = s.assignmentDue i))

/-- The fault of a sample is the first of SENSE_LOST, OVERRANGE, SPIKE and STUCK that it meets; a sample that meets
none is clean (R27 to R29). The previous raw sample is that of the evaluated sample event before (R26); SPIKE is an
own change above the limit while 4 times the sum of the included mates' changes is below the limit times their number,
of which there is one at least (R29); STUCK is a hundredth equal sample (R28). A faulted sample of an evaluated
channel writes its kind as the last fault code and leaves the last good sample; in GOOD and WATCH the counter rises by
16, to 160 at most, which excludes the channel; in RECOVERING the recovery begins again; in EXCLUDED nothing moves
(R27, R32, R35). -/
def Obligations.FaultsOfASample : Prop :=
  (∀ (assign : Chan → Option Deck) (limit : Nat) (chans : Bank Channel 16) (inp : SampleInput) (i : Chan) (d : Deck),
    assign i = some d →
      let raw := (inp.raw.get i).toInt
      let over83 := 8300000 ≤ raw.natAbs
      let before := fun j => if (chans.get j).evaluated = true then (chans.get j).raw else none
      let stuck := before i = some raw ∧ 99 ≤ (chans.get i).stuckRun
      let mates := allChans.filter fun j =>
        decide (j ≠ i ∧ assign j = some d ∧ ((chans.get j).health = .good ∨ (chans.get j).health = .watch))
      let changes := mates.filterMap fun j => (before j).map fun x => ((inp.raw.get j).toInt - x).natAbs
      let spike := ∃ x, before i = some x ∧ limit < (raw - x).natAbs ∧ changes ≠ [] ∧
        4 * changes.sum < limit * changes.length
      (inp.senseLow.get d = true → channelFault assign limit chans inp i = some .senseLost) ∧
      (inp.senseLow.get d = false → over83 → channelFault assign limit chans inp i = some .overrange) ∧
      (inp.senseLow.get d = false → ¬over83 → spike → channelFault assign limit chans inp i = some .spike) ∧
      (inp.senseLow.get d = false → ¬over83 → ¬spike → stuck → channelFault assign limit chans inp i = some .stuck) ∧
      (inp.senseLow.get d = false → ¬over83 → ¬spike → ¬stuck → channelFault assign limit chans inp i = none)) ∧
  (∀ (inp : SampleInput) (s : State) (i : Chan) (d : Deck) (k : FaultKind), s.mainSupply = true → s.acq.scale = .run →
    s.assignmentDue i = some d → channelFault s.assignmentDue s.acq.spikeLimit s.acq.channels inp i = some k →
      ∃ t, exec (.sampleEvent inp) s = .next t ∧
        let c := s.acq.channels.get i
        let n := t.acq.channels.get i
        n.lastCode = .kind k ∧ n.lastGood = c.lastGood ∧ n.evaluated = true ∧
          (c.health = .good ∨ c.health = .watch →
            n.cleanRun = 0 ∧ n.counter = min 160 (c.counter + 16) ∧
              (c.counter + 16 < 80 → n.health = .good ∧ n.cause = c.cause) ∧
              (80 ≤ c.counter + 16 ∧ c.counter + 16 < 160 → n.health = .watch ∧ n.cause = c.cause) ∧
              (160 ≤ c.counter + 16 → n.health = .excluded ∧ n.cause = some .automatic)) ∧
          (c.health = .recovering → n.health = .recovering ∧ n.counter = c.counter ∧ n.recovery = 0 ∧ n.cleanRun = 0) ∧
          (c.health = .excluded → n.health = .excluded ∧ n.counter = c.counter ∧ n.cause = c.cause))

/-- What a sample event in RUN hands on, keeps and sends of its faults. A clean channel hands on its raw sample, a
faulted one its last good sample, or its raw sample when it has none, and the sample result is formed of the values
handed on (R31). The fault capture record, when free, is filled by the faulted channel with the lowest number, with
its kind, its raw sample, the sample number and the calendar's stamp, and takes MORE when another channel is faulted;
a record held already takes MORE alone (R37). A change of a channel's state sends CHANNEL_STATE, in ascending channel
number, with its cause while it is out (R33): these are the first notices of the event, and no other CHANNEL_STATE
follows them (logs 12 and 14). -/
def Obligations.FaultRecordsOfASample : Prop :=
  ∀ (inp : SampleInput) (s : State), s.mainSupply = true → s.acq.scale = .run →
    let fault := channelFault s.assignmentDue s.acq.spikeLimit s.acq.channels inp
    let faulted := allChans.filter fun i => (fault i).isSome
    let raw := fun i : Chan => (inp.raw.get i).toInt
    ∃ t, exec (.sampleEvent inp) s = .next t ∧
      (∃ value : Chan → Int,
        (∀ i, fault i = none → value i = raw i) ∧
        (∀ i k, fault i = some k → value i = ((s.acq.channels.get i).lastGood).getD (raw i)) ∧
        t.zm.latest = some
          { result := sampleResult .run s.metro.valid s.store.config (fun i => (t.acq.channels.get i).health) value
              s.zm.offset
            sampleNumber := s.acq.sampleNumber + 1, eHg := s.store.config.eHg }) ∧
      (faulted = [] → t.acq.faultCapture = s.acq.faultCapture) ∧
      (∀ i k r, faulted = i :: r → fault i = some k →
        (s.acq.faultCapture = none → t.acq.faultCapture = some
          { channel := i, kind := k, raw := raw i, sampleNumber := s.acq.sampleNumber + 1, stamp := s.cal.value
            more := decide (r ≠ []) }) ∧
        (∀ x, s.acq.faultCapture = some x → t.acq.faultCapture = some { x with more := true })) ∧
      (let changed := allChans.filter fun i =>
         decide ((t.acq.channels.get i).health ≠ (s.acq.channels.get i).health)
       s.raisedFirst
         (changed.map fun i =>
           let new := (t.acq.channels.get i).health
           .channelState i new (s.acq.channels.get i).health
             (if new = .excluded ∨ new = .recovering then (t.acq.channels.get i).cause else none)
             (s.acq.sampleNumber + 1))
         (fun n => n.code ≠ 1) t)

/-- The sample events at which a channel's count reaches its limit are the rows that name it, each with the whole
effect of SAMPLE_EVENT (log 4). STUCK, stuck run 100: the run becomes 0, and a sample that meets no earlier condition
is a fault of kind STUCK (R27, R28). CLEAN_HALF_SECOND, clean run 25 of a GOOD or WATCH channel: the counter falls by
one, unless it is 0, and the clean run becomes 0 (R32); of a RECOVERING channel below its 64th: the recovery count
rises by one, and the channel stays RECOVERING with its counter and its cause (R35). RECOVERY_COMPLETE, the 64th clean
half-second of a RECOVERING channel: it becomes GOOD with a counter of 0, its recovery count and its cause cleared
(R35). -/
def Obligations.ChannelCountRows : Prop :=
  (∀ (inp : SampleInput) (s : State) (i : Chan) (d : Deck), s.mainSupply = true → s.acq.scale = .run →
    s.assignmentDue i = some d → (s.acq.channels.get i).evaluated = true →
    (s.acq.channels.get i).raw = some (inp.raw.get i).toInt → (s.acq.channels.get i).stuckRun = 99 →
      ∃ t, exec (.stuck i inp) s = .next t ∧ exec (.sampleEvent inp) s = .next t ∧
        (t.acq.channels.get i).stuckRun = 0 ∧
        (∃ k, (t.acq.channels.get i).lastCode = .kind k) ∧
        (inp.senseLow.get d = false → (inp.raw.get i).toInt.natAbs < 8300000 →
          (t.acq.channels.get i).lastCode = .kind .stuck)) ∧
  ((∀ (inp : SampleInput) (s : State) (i : Chan) (d : Deck), s.mainSupply = true → s.acq.scale = .run →
    s.assignmentDue i = some d → channelFault s.assignmentDue s.acq.spikeLimit s.acq.channels inp i = none →
    (s.acq.channels.get i).health = .good ∨ (s.acq.channels.get i).health = .watch →
    (s.acq.channels.get i).cleanRun = 24 →
      ∃ t, exec (.cleanHalfSecond i inp) s = .next t ∧ exec (.sampleEvent inp) s = .next t ∧
        (t.acq.channels.get i).counter = (s.acq.channels.get i).counter - 1 ∧
        (t.acq.channels.get i).cleanRun = 0 ∧
        (t.acq.channels.get i).lastGood = some (inp.raw.get i).toInt ∧
        (t.acq.channels.get i).lastCode = (s.acq.channels.get i).lastCode ∧
        ((t.acq.channels.get i).health = if (s.acq.channels.get i).counter - 1 < 80 then .good else .watch)) ∧
  (∀ (inp : SampleInput) (s : State) (i : Chan) (d : Deck), s.mainSupply = true → s.acq.scale = .run →
    s.assignmentDue i = some d → channelFault s.assignmentDue s.acq.spikeLimit s.acq.channels inp i = none →
    (s.acq.channels.get i).health = .recovering → (s.acq.channels.get i).cleanRun = 24 →
    (s.acq.channels.get i).recovery < 63 →
      ∃ t, exec (.cleanHalfSecond i inp) s = .next t ∧ exec (.sampleEvent inp) s = .next t ∧
        (t.acq.channels.get i).health = .recovering ∧ (t.acq.channels.get i).cleanRun = 0 ∧
        (t.acq.channels.get i).recovery = (s.acq.channels.get i).recovery + 1 ∧
        (t.acq.channels.get i).counter = (s.acq.channels.get i).counter ∧
        (t.acq.channels.get i).cause = (s.acq.channels.get i).cause ∧
        (t.acq.channels.get i).lastGood = some (inp.raw.get i).toInt) ∧
  (∀ (inp : SampleInput) (s : State) (i : Chan) (d : Deck), s.mainSupply = true → s.acq.scale = .run →
    s.assignmentDue i = some d → channelFault s.assignmentDue s.acq.spikeLimit s.acq.channels inp i = none →
    (s.acq.channels.get i).health = .recovering → (s.acq.channels.get i).cleanRun = 24 →
    (s.acq.channels.get i).recovery = 63 →
      ∃ t, exec (.recoveryComplete i inp) s = .next t ∧ exec (.sampleEvent inp) s = .next t ∧
        (t.acq.channels.get i).health = .good ∧ (t.acq.channels.get i).counter = 0 ∧
        (t.acq.channels.get i).recovery = 0 ∧ (t.acq.channels.get i).cause = none ∧
        (t.acq.channels.get i).lastGood = some (inp.raw.get i).toInt))

/-- A sample event in WARMUP below the warm-up length raises the warm-up count by one and leaves the scale in WARMUP
(R22). The one whose warm-up count equals the warm-up length is the row WARMUP_END, with the whole effect of
SAMPLE_EVENT (log 4): the scale enters RUN at its end, and the settling clock and the stability window restart (R22,
R43); its notices are those of the other blocks, then SCALE_STATE (logs 12 and 14), then a last LAMP_STATE. Enter
Standby: OK and no change in STANDBY; otherwise its checks in their order; then STANDBY with the excitation off and
the raw samples absent, all else of the channels kept (R23). Leave Standby is answered OK; in STANDBY the scale enters
WARMUP with the excitation on, its count 0 and its length fixed by the stored warm-up code, or that of code 3 when the
configuration is not valid; otherwise nothing changes (R22, R24). -/
def Obligations.ScaleStates : Prop :=
  (∀ (inp : SampleInput) (s : State), s.mainSupply = true → s.acq.scale = .warmup →
    s.acq.warmCount + 1 < s.acq.warmLength →
      ∃ t, exec (.sampleEvent inp) s = .next t ∧ t.acq.scale = .warmup ∧
        t.acq.warmCount = s.acq.warmCount + 1 ∧ t.acq.warmLength = s.acq.warmLength ∧
        t.acq.excitation = s.acq.excitation) ∧
  (∀ (inp : SampleInput) (s : State), s.mainSupply = true → s.acq.scale = .warmup →
    s.acq.warmCount + 1 = s.acq.warmLength →
      let a := acquire inp (Ev.start s)
      let e := serveResult inp.storeOk (formedResult a.ev.st a.value) a.value a.ev
      ∃ t, exec (.warmupEnd inp) s = .next t ∧ exec (.sampleEvent inp) s = .next t ∧
        t.acq.scale = .run ∧ t.acq.excitation = true ∧ t.acq.warmCount = s.acq.warmLength ∧
        t.zm.window = [] ∧ t.zm.clock = 0 ∧ t.zm.zeroState = s.zm.zeroState ∧ t.zm.offset = s.zm.offset ∧
        t.site = s.site ∧ t.cal = s.cal ∧ (∀ n ∈ e.notes, n.code ≠ 0) ∧
        s.raised (e.notes ++ [.scaleState .run .warmup]) t) ∧
  ((∀ s : State, s.ready →
    exec (.enterStandby []) s = .next (
      if s.acq.scale = .standby then answered 0x90 { status := .ok, body := .none } [] s
      else if s.acq.scale = .warmup then answered 0x90 { status := .notReady, body := .none } [] s
      else if s.cap.slot ≠ .free then answered 0x90 { status := .busy, body := .none } [] s
      else if s.axle.occupancy ≠ .empty then answered 0x90 { status := .bridgeOccupied, body := .none } [] s
      else executed 0x90 { status := .ok, body := .none } [.scaleState .standby .run] s
        (s.setAcq { s.acq with
          scale := .standby, excitation := false
          channels := s.acq.channels.map fun c => { c with raw := none, prev := none } }))) ∧
  (∀ s : State, s.ready →
    exec (.leaveStandby []) s = .next (
      if s.acq.scale = .standby then
        executed 0x91 { status := .ok, body := .none } [.scaleState .warmup .standby] s
          (s.setAcq { s.acq with
            scale := .warmup, excitation := true, warmCount := 0
            warmLength :=
              if s.metro.valid = false then 1000
              else match s.store.config.warmupCode with
                | 0 => 100
                | 1 => 250
                | 2 => 500
                | _ => 1000 })
      else answered 0x91 { status := .ok, body := .none } [] s)))

/-- The spike limit lies in 1,000 to 1,000,000, is 100,000 after every reset, and is replaced by Write Channel
Settings, which refuses a value outside the range; the request is taken in every scale state and whoever holds the
slot (R30). Exclude Channel makes the channel EXCLUDED with cause MANUAL and a counter of 160 from every state, with a
notice, and with a restart when the included set of its deck changes (R33, R34; 2.2): by the health assignment in
force, which stands between two sample events (log 25), or by the stored assignment that forms the masses, as the
model reads R5 (log 49); an EXCLUDED channel with cause MANUAL is answered OK and unchanged (R34). Reinstate Channel
starts the recovery of an EXCLUDED channel, which keeps its cause and its counter; any other channel is refused with
NOT_EXCLUDED (R35). Read Channel reports the channel as it stands, its deck by the health assignment in force (R26,
log 25), the exclusion cause in EXCLUDED and RECOVERING and the recovery count in RECOVERING only; the last fault code
then becomes NO_NEW (R36). The notice gives the sample number as it stands, which is the latest sample event's (R33);
before the first one since a reset it is 0, by the model's choice (log 50). A number outside 1 to 16 is refused with
BAD_REQUEST. Read Fault Capture answers a holding record's fields and frees it; a free record is answered EMPTY (R38).
-/
def Obligations.ChannelRequests : Prop :=
  (∀ (p : List Byte) (n : Nat) (s : State), parseNat 4 p = some n → s.ready →
    exec (.writeChannelSettings p) s = .next (
      if 1000 ≤ n ∧ n ≤ 1000000 then
        answered 0x92 { status := .ok, body := .none } [] (s.setAcq { s.acq with spikeLimit := n })
      else answered 0x92 { status := .badRequest, body := .none } [] s)) ∧
  (∀ (inputs : ResetInputs) (s t : State), s.mainSupply = true →
    exec (.coldStart inputs) s = .next t ∨ exec (.powerOnReset inputs) s = .next t ∨
      exec (.resetLine inputs) s = .next t → t.acq.spikeLimit = 100000) ∧
  (∀ (p : List Byte) (n : Nat) (s : State), parseNat 1 p = some n → s.ready →
    (n = 0 ∨ 16 < n →
      exec (.excludeChannel p) s = .next (answered 0x93 { status := .badRequest, body := .none } [] s)) ∧
    (∀ i : Chan, n = i.val + 1 →
      let c := s.acq.channels.get i
      let c1 : Channel :=
        { c with health := .excluded, cause := some .manual, counter := 160, cleanRun := 0, recovery := 0 }
      let s1 := s.setAcq { s.acq with channels := s.acq.channels.set i c1 }
      exec (.excludeChannel p) s = .next (
        if c.health = .excluded ∧ c.cause = some .manual then answered 0x93 { status := .ok, body := .none } [] s
        else answered 0x93 { status := .ok, body := .none }
          [.channelState i .excluded c.health (some .manual) s.acq.sampleNumber]
          (if (s.healthAssign i ≠ none ∨ s.metro.valid = true ∧ (s.store.config.channels.get i).deck ≠ none) ∧
              (c.health = .good ∨ c.health = .watch) then restart s1 else s1)))) ∧
  (∀ (p : List Byte) (n : Nat) (s : State), parseNat 1 p = some n → s.ready →
    (n = 0 ∨ 16 < n →
      exec (.reinstateChannel p) s = .next (answered 0x94 { status := .badRequest, body := .none } [] s)) ∧
    (∀ i : Chan, n = i.val + 1 →
      let c := s.acq.channels.get i
      exec (.reinstateChannel p) s = .next (
        if c.health = .excluded then
          answered 0x94 { status := .ok, body := .none }
            [.channelState i .recovering .excluded c.cause s.acq.sampleNumber]
            (s.setAcq { s.acq with
              channels := s.acq.channels.set i { c with health := .recovering, recovery := 0, cleanRun := 0 } })
        else answered 0x94 { status := .notExcluded, body := .none } [] s))) ∧
  (∀ (p : List Byte) (n : Nat) (s : State), parseNat 1 p = some n → s.ready →
    (n = 0 ∨ 16 < n → exec (.readChannel p) s = .next (answered 0x95 { status := .badRequest, body := .none } [] s)) ∧
    (∀ i : Chan, n = i.val + 1 →
      let c := s.acq.channels.get i
      exec (.readChannel p) s = .next (answered 0x95
        { status := .ok
          body := .channel
            { channel := i, deck := s.healthAssign i, evaluated := c.evaluated, raw := c.raw, lastGood := c.lastGood
              health := c.health
              cause := if c.health = .excluded ∨ c.health = .recovering then c.cause else none
              counter := c.counter
              recovery := if c.health = .recovering then some c.recovery else none
              lastCode := c.lastCode } } []
        (s.setAcq { s.acq with channels := s.acq.channels.set i { c with lastCode := .noNew } })))) ∧
  (∀ s : State, s.ready →
    (∀ f, s.acq.faultCapture = some f →
      exec (.readFaultCapture []) s = .next (answered 0x96 { status := .ok, body := .faultCapture f } []
        (s.setAcq { s.acq with faultCapture := none }))) ∧
    (s.acq.faultCapture = none →
      exec (.readFaultCapture []) s = .next (answered 0x96 { status := .empty, body := .none } [] s)))
/-! ## Weight arithmetic -/

/-- Every rounding is half away from zero on the exact quotient, to e by dividing, rounding and multiplying back; the
deck share and the quarter-division are truncated (R2). Every gross rounded to e has exactly the zone of the table,
and a bridge total of at most q in magnitude gives a gross of 0 (R13). -/
def Obligations.RoundingAndZones : Prop :=
  (∀ (n : Int) (d : Nat), 0 < d →
    2 * (n - d * roundDiv n d).natAbs ≤ d ∧
      (2 * (n - d * roundDiv n d).natAbs = d → n.natAbs < (d * roundDiv n d).natAbs)) ∧
  (roundDiv 18749952 100 = 187500 ∧ roundDiv 498997 100 = 4990 ∧ roundDiv 5 2 = 3 ∧ roundDiv (-5) 2 = -3 ∧
    roundDiv (-495) 1000 = 0 ∧ roundDiv (-5) 10 = -1) ∧
  (∀ (e : Nat) (x : Int), 0 < e → roundTo e x = roundDiv x e * e ∧ 10 * roundToKg (10 * e) x = roundTo (10 * e) x) ∧
  (∀ c : MetroConfig, c.deckShare = 10 * c.maxKg / c.deckCount ∧ (c.eKg = 5 → c.q = 12) ∧ (c.eKg = 10 → c.q = 25) ∧
    (c.eKg = 20 → c.q = 50) ∧ (c.eKg = 50 → c.q = 125)) ∧
  (∀ (c : MetroConfig) (t : Int), 0 < c.eKg →
    let g := roundTo c.eHg t
    (t.natAbs ≤ c.q → g = 0) ∧
    (g < -(20 * c.eHg : Nat) → zoneOf c t g = .underload) ∧
    ((c.maxHg + 9 * c.eHg : Nat) < g → zoneOf c t g = .overload) ∧
    ((c.maxHg : Int) < g → g ≤ (c.maxHg + 9 * c.eHg : Nat) → zoneOf c t g = .overMax) ∧
    (t.natAbs ≤ c.q → zoneOf c t g = .centreZero) ∧
    (-(20 * c.eHg : Nat) ≤ g → g ≤ (c.maxHg : Int) → c.q < t.natAbs → zoneOf c t g = .normal))

/-- The linearity correction is 0 with an empty table and at or below 0, runs on the line from zero load to the first
point and from each point to the next, equals a point's correction at its load, and is held beyond the last; the
linearized value is the raw sum plus the correction (R9). -/
def Obligations.LinearityByTable : Prop :=
  ∀ (table : List LinPoint) (x : Int), table.Pairwise (fun p q => p.load < q.load) → (∀ p ∈ table, 0 < p.load) →
    (table = [] → correction table x = 0) ∧
    (x ≤ 0 → correction table x = 0) ∧
    (∀ p r, table = p :: r → 0 < x → x ≤ p.load → correction table x = roundDiv (x * p.correction) p.load) ∧
    (∀ pre p q post, table = pre ++ p :: q :: post → (p.load : Int) < x → x ≤ q.load →
      correction table x =
        p.correction + roundDiv ((x - p.load) * (q.correction - p.correction)) (q.load - p.load)) ∧
    (∀ pre p, table = pre ++ [p] → (p.load : Int) < x → correction table x = p.correction) ∧
    (∀ p ∈ table, correction table p.load = p.correction) ∧
    linearized table x = x + correction table x

/-- The sample result: no stage runs outside RUN or with a configuration that is not valid; a channel mass is its
value less its zero count times its gain over 2^20, rounded; a deck with fewer than two included channels is DOWN, and
one DOWN deck leaves no total; otherwise each excluded channel counts as the rounded mean of the included ones, and
the total, the gross and the zone follow from the deck masses (R1, R4 to R13). -/
def Obligations.SampleResultFormed : Prop :=
  ∀ (scale : ScaleState) (valid : Bool) (c : MetroConfig) (health : Chan → Health) (value : Chan → Int)
    (offset : Bank Int 4),
    let r := sampleResult scale valid c health value offset
    let mine := fun d : Deck => allChans.filter fun i => decide ((c.channels.get i).deck = some d)
    let incl := fun d : Deck => (mine d).filter fun i => decide (health i = .good ∨ health i = .watch)
    let excl := fun d : Deck => ((mine d).filter fun i => decide (health i = .excluded ∨ health i = .recovering)).length
    let mass := fun i : Chan =>
      roundDiv ((value i - (c.channels.get i).zero) * ((c.channels.get i).gain : Int)) 1048576
    let sum := fun d : Deck => ((incl d).map mass).sum
    let raw := fun d : Deck => if excl d = 0 then sum d else sum d + excl d * roundDiv (sum d) (incl d).length
    let entry := fun d : Deck =>
      ({ deck := d, mass := linearized (c.linearity.get d) (raw d) - offset.get d
         substituted := decide (0 < excl d) } : DeckMass)
    (scale ≠ .run → r = .scaleNotRunning) ∧
    (scale = .run → valid = false → r = .uncalibrated) ∧
    (scale = .run → valid = true →
      ((∃ d ∈ c.activeDecks, (incl d).length < 2) →
        r = .deckDown (c.activeDecks.map fun d =>
          if (incl d).length < 2 then DeckResult.down d else .value (entry d))) ∧
      ((∀ d ∈ c.activeDecks, 2 ≤ (incl d).length) →
        let t := (c.activeDecks.map fun d => (entry d).mass).sum
        r = .value (c.activeDecks.map entry) t (roundTo c.eHg t) (zoneOf c t (roundTo c.eHg t))))

/-! ## Zero and motion -/

/-- What a sample event makes of the window and its decisions. A change of a deck's included set restarts the window
before it (R33, R43). A VALUE result is added at the rear, with the oldest result dropped beyond W (R41); the three
decisions are made of that window at the settling clock of before, each held exactly when W results stand and no two
totals differ by more than its band: 2q, or the band of the profile's segment that contains the clock, its level plus
the offset, clamped to 0 to 31, times q (R45, R47, R49); the clock then rises, and holds at 60,000 (R42). Where
offsets move at this event every D_d of the window falls by the rise of deck d, and every T by the sum of the rises
(R53). Any other result restarts the window and clears the decisions and the tracking count (R41, R45, R54). A window
mean is the sum of D_d over the window, divided by its length and rounded (R16, R46); Li and Lz are a tenth and a
fiftieth of the deck share, truncated (R40). -/
def Obligations.StabilityDecided : Prop :=
  (∀ (inp : SampleInput) (s : State), s.mainSupply = true →
    let c := s.store.config
    let a := acquire inp (Ev.start s)
    let r := formedResult a.ev.st a.value
    let included := fun h : Health => h = .good ∨ h = .watch
    ∃ t, exec (.sampleEvent inp) s = .next t ∧
      t.zm.latest = some { result := r, sampleNumber := s.acq.sampleNumber + 1, eHg := c.eHg } ∧
      (let regrouped := s.acq.scale = .run ∧ ∃ i, s.assignmentDue i ≠ none ∧
         ¬(included (s.acq.channels.get i).health ↔ included (t.acq.channels.get i).health)
       let window := if regrouped then [] else s.zm.window
       let clock := if regrouped then 0 else s.zm.clock
       (∀ decks total gross zone, r = .value decks total gross zone →
         let entry : WindowEntry := { total := total, decks := decks, sampleNumber := s.acq.sampleNumber + 1 }
         let w := (window ++ [entry]).drop (window.length + 1 - c.window)
         let settled := fun bandHg : Nat =>
           c.window ≤ w.length ∧ ∀ x ∈ w, ∀ y ∈ w, x.total - y.total ≤ (bandHg : Int)
         let rise := fun k : Deck => t.zm.offset.get k - s.zm.offset.get k
         (t.zm.decisions.profile1 = true ↔ settled (band c.profile1 c.q clock)) ∧
         (t.zm.decisions.profile2 = true ↔ settled (band c.profile2 c.q clock)) ∧
         (t.zm.decisions.zeroBand = true ↔ settled (2 * c.q)) ∧
         t.zm.clock = (if clock < 60000 then clock + 1 else clock) ∧
         t.zm.window = w.map fun x : WindowEntry =>
           { x with
             total := x.total - (x.decks.map fun m => rise m.deck).sum
             decks := x.decks.map fun m => { m with mass := m.mass - rise m.deck } }) ∧
       (r.isValue = false →
         t.zm.window = [] ∧ t.zm.clock = 0 ∧ t.zm.trackCount = 0 ∧ t.zm.offset = s.zm.offset ∧
           t.zm.decisions = { profile1 := false, profile2 := false, zeroBand := false }))) ∧
  (∀ (p : Profile) (q t code level : Nat) (pre post : List (Nat × Nat)),
    let lasts := fun k : Nat => [10, 20, 30, 40, 50, 70, 90, 120, 150, 200, 250, 300, 400, 500, 650, 800].getD k 800
    let start := (pre.map fun x => lasts x.1).sum
    p.segments = pre ++ (code, level) :: post → start ≤ t → (post = [] ∨ t < start + lasts code) →
      (band p q t : Int) = max 0 (min 31 (level + p.offset)) * q) ∧
  (∀ (w : List WindowEntry) (k : Deck),
    windowMean w k =
      roundDiv (w.map fun x => ((x.decks.filter fun m => decide (m.deck = k)).map DeckMass.mass).sum).sum w.length) ∧
  (∀ c : MetroConfig, c.initialRange = c.deckShare / 10 ∧ c.trackingRange = c.deckShare / 50)

/-- Initial zero at a sample event (R51). In ZERO_PENDING, at a VALUE result with both loops CLEAR and the window
stable at 2q: when every active deck's zero mean lies within Li, offsets and initial zeros become the zero means and
the zero is set, with ZERO_STATE; otherwise ZERO_RANGE gives the means and Li, once until ZERO_PENDING is entered
anew, and nothing else changes. Without one of these conditions the zero stays as it is, and neither notice is sent.
The notice stands behind CHANNEL_STATE and before the notices of the other blocks, among which no second one is (logs
12 and 14); the tracking test follows it (log 34). -/
def Obligations.InitialZeroTaken : Prop :=
  ∀ (inp : SampleInput) (s : State), s.mainSupply = true → ZeroLaw s → s.zm.zeroState = .pending →
    let c := s.store.config
    let a := acquire inp (Ev.start s)
    let r := formedResult a.ev.st a.value
    ∃ t, exec (.sampleEvent inp) s = .next t ∧
      (let answers := fun ns : List Notice =>
         s.raisedFirst (a.ev.notes ++ ns) (fun n => n.code ≠ 2 ∧ n.code ≠ 3) t
       let unset := t.zm.zeroState = .pending ∧ t.zm.offset = s.zm.offset ∧ t.zm.initial = s.zm.initial ∧
         t.zm.trackCount = 0
       let tests := r.isValue = true ∧ s.axle.loopEntry = false ∧ s.axle.loopExit = false ∧
         t.zm.decisions.zeroBand = true
       (¬tests → answers [] ∧ unset ∧ t.zm.rangeReported = s.zm.rangeReported) ∧
       (tests → ∀ decks total gross zone, r = .value decks total gross zone →
         let entry : WindowEntry := { total := total, decks := decks, sampleNumber := s.acq.sampleNumber + 1 }
         let before := a.ev.st.zm.window
         let w := (before ++ [entry]).drop (before.length + 1 - c.window)
         let within := ∀ d ∈ c.activeDecks, (windowMean w d).natAbs ≤ c.initialRange
         (within →
           answers [.zeroState .set (c.activeDecks.map fun d => (d, windowMean w d))] ∧ t.zm.zeroState = .set ∧
             (∀ d, t.zm.offset.get d = if d ∈ c.activeDecks then windowMean w d else 0) ∧
             t.zm.initial = t.zm.offset ∧ (∀ d, t.zm.halt.get d = false)) ∧
         (¬within → unset ∧ t.zm.rangeReported = true ∧
           answers (if s.zm.rangeReported = true then []
             else [.zeroRange (c.activeDecks.map fun d => (d, windowMean w d)) c.initialRange]))))

/-- Set Zero: its checks in their order; then, by the zero state, the zero means tested against Lz around the initial
zeros or against Li around 0; RANGE changes nothing; OK moves the offsets of the active decks to the zero means,
rebases the window, clears the halts, and from ZERO_PENDING sets the zero with its notice, a LAMP_STATE after it (R52,
R53; the order: log 14). -/
def Obligations.SetZeroActs : Prop :=
  ∀ s : State, s.ready →
    let c := s.store.config
    let mean := fun d => windowMean s.zm.window d + s.zm.offset.get d
    let rebased := fun z : Bank Int 4 => s.zm.window.map (WindowEntry.rebase fun d => z.get d - s.zm.offset.get d)
    let per := fun f : Deck → Int => c.activeDecks.map fun d => (d, f d)
    ((s.acq.scale ≠ .run ∨ latestIsValue s = false) →
      exec (.setZero []) s = .next (answered 0x98 { status := .notReady, body := .none } [] s)) ∧
    (s.acq.scale = .run → latestIsValue s = true → s.axle.occupancy ≠ .empty →
      exec (.setZero []) s = .next (answered 0x98 { status := .bridgeOccupied, body := .none } [] s)) ∧
    (s.acq.scale = .run → latestIsValue s = true → s.axle.occupancy = .empty → s.cap.slot ≠ .free →
      exec (.setZero []) s = .next (answered 0x98 { status := .busy, body := .none } [] s)) ∧
    (s.acq.scale = .run → latestIsValue s = true → s.axle.occupancy = .empty → s.cap.slot = .free →
      (s.zm.decisions.zeroBand = false →
        exec (.setZero []) s = .next (answered 0x98 { status := .motion, body := .none } [] s)) ∧
      (s.zm.decisions.zeroBand = true → s.zm.zeroState = .set →
        ((∀ d ∈ c.activeDecks, (mean d - s.zm.initial.get d).natAbs ≤ c.trackingRange) →
          ∃ z : Bank Int 4,
            (∀ d, z.get d = if d ∈ c.activeDecks then mean d else s.zm.offset.get d) ∧
              exec (.setZero []) s = .next (answered 0x98 { status := .ok, body := .zeroSet (per z.get) } []
                (s.setZm { s.zm with
                  offset := z, window := rebased z, halt := Bank.fill 4 false, trackCount := 0 }))) ∧
        (¬(∀ d ∈ c.activeDecks, (mean d - s.zm.initial.get d).natAbs ≤ c.trackingRange) →
          exec (.setZero []) s = .next (answered 0x98
            { status := .range, body := .zeroRange (per mean) (per s.zm.initial.get) c.trackingRange } [] s))) ∧
      (s.zm.decisions.zeroBand = true → s.zm.zeroState = .pending →
        ((∀ d ∈ c.activeDecks, (mean d).natAbs ≤ c.initialRange) →
          ∃ z : Bank Int 4,
            (∀ d, z.get d = if d ∈ c.activeDecks then mean d else 0) ∧
              exec (.setZero []) s = .next (executed 0x98 { status := .ok, body := .zeroSet (per z.get) }
                [.zeroState .set (per z.get)] s
                (s.setZm { s.zm with
                  offset := z, initial := z, window := rebased z, halt := Bank.fill 4 false, zeroState := .set }))) ∧
        (¬(∀ d ∈ c.activeDecks, (mean d).natAbs ≤ c.initialRange) →
          exec (.setZero []) s = .next (answered 0x98
            { status := .range, body := .zeroRange (per mean) (per fun _ => 0) c.initialRange } [] s))))

/-- Zero tracking at a sample event with a VALUE result in ZERO_SET (R54). With the tracking conditions met the count
rises by one below 49; without one of them it becomes 0; either way offsets and halts stand and no notice is sent. The
event at which it would reach 50 is the row ZERO_TRACKING_STEP, with the whole effect of SAMPLE_EVENT (log 4): the
count becomes 0, each active deck whose halt is clear moves by its window mean, clamped to q, to the nearer edge of the
tracking range at most, where its halt is set; halted and inactive decks keep their offsets. ZERO_LIMIT is sent for
each deck whose halt is then set and for no other, in ascending deck number, behind CHANNEL_STATE and before the
notices of the other blocks (logs 12 and 14). -/
def Obligations.TrackingStepRow : Prop :=
  ∀ (inp : SampleInput) (s : State) (decks : List DeckMass) (total gross : Int) (zone : Zone), s.mainSupply = true →
    let c := s.store.config
    let a := acquire inp (Ev.start s)
    let w := pushWindow c.window a.ev.st.zm.window
      { total := total, decks := decks, sampleNumber := s.acq.sampleNumber + 1 }
    let holds := c.zeroTracking = true ∧ s.axle.occupancy = .empty ∧ s.axle.certain = true ∧ s.cap.slot = .free ∧
      stableUnder c.window (2 * c.q) (w.map WindowEntry.total) = true ∧ ∀ m ∈ decks, m.mass.natAbs ≤ 2 * c.q
    formedResult a.ev.st a.value = .value decks total gross zone → s.zm.zeroState = .set →
      ∃ t, exec (.sampleEvent inp) s = .next t ∧ t.zm.zeroState = .set ∧ t.zm.initial = s.zm.initial ∧
        (let still := t.zm.offset = s.zm.offset ∧ t.zm.halt = s.zm.halt ∧ s.raisedFirst a.ev.notes (7 ≤ ·.code) t
         (¬holds → t.zm.trackCount = 0 ∧ still) ∧
         (holds → s.zm.trackCount < 49 → t.zm.trackCount = s.zm.trackCount + 1 ∧ still)) ∧
        (holds → s.zm.trackCount = 49 →
          let moved := fun d => s.zm.offset.get d + clamp c.q (windowMean w d) - s.zm.initial.get d
          let lz : Int := c.trackingRange
          let limited := allDecks.filter fun d =>
            decide (d ∈ c.activeDecks ∧ s.zm.halt.get d = false ∧ lz < (moved d).natAbs)
          exec (.zeroTrackingStep inp) s = .next t ∧ t.zm.trackCount = 0 ∧
          s.raisedFirst
            (a.ev.notes ++ limited.map fun d => .zeroLimit d (t.zm.offset.get d) (s.zm.initial.get d))
            (7 ≤ ·.code) t ∧
          ∀ d : Deck,
            (d ∉ c.activeDecks ∨ s.zm.halt.get d = true →
              t.zm.offset.get d = s.zm.offset.get d ∧ t.zm.halt.get d = s.zm.halt.get d) ∧
            (d ∈ c.activeDecks → s.zm.halt.get d = false →
              let init := s.zm.initial.get d
              (-lz ≤ moved d → moved d ≤ lz → t.zm.offset.get d = init + moved d ∧ t.zm.halt.get d = false) ∧
              (lz < moved d → t.zm.offset.get d = init + lz ∧ t.zm.halt.get d = true) ∧
              (moved d < -lz → t.zm.offset.get d = init - lz ∧ t.zm.halt.get d = true)))

/-- Read Weight, Read Treadles, Read Axle Map and Read Site Tables are answered OK with what stands, in every state of
the scale and of the slot; only Read Treadles changes anything: each line's last fault code becomes NO_NEW (R55, R62,
R74, R78). Read Weight gives each deck mass rounded to the e with which it was weighed; the settling clock, the fill,
the spread and the band are those that stand at the request (log 27). The pairing state of Read Treadles carries its
times and its opener (log 44). Read Metrology Status, Read Configuration, Read Audit Trail and Read Audit Record are
answered with what stands and change nothing: the trail's entries from the starting number on, 8 at most, with MORE and
LOST; the staged copy, and an audit session, only while one is open (R146, R148, R158). -/
def Obligations.ReadingsAnswered : Prop :=
  (∀ s : State, s.ready →
    let c := s.store.config
    (∃ w : WeightFields,
      exec (.readWeight []) s = .next (answered 0x99 { status := .ok, body := .weight w } [] s) ∧
      w.stable = s.zm.decisions.profile1 ∧ w.halts = c.activeDecks.map (fun d => (d, s.zm.halt.get d)) ∧
      w.zeroState = s.zm.zeroState ∧ w.clock = s.zm.clock ∧ w.fill = s.zm.window.length ∧
      w.spread =
        (if c.window ≤ s.zm.window.length then some (spread (s.zm.window.map WindowEntry.total)) else none) ∧
      w.band = band c.profile1 c.q s.zm.clock ∧
      (s.zm.latest = none →
        w.outcome = .noSample ∧ w.indicated = none ∧ w.zone = none ∧ w.decks = [] ∧ w.sampleNumber = none) ∧
      (∀ l, s.zm.latest = some l →
        let weighed := fun m : DeckMass => (m.deck, DeckWeight.value (roundTo l.eHg m.mass / 10) m.substituted)
        w.sampleNumber = some l.sampleNumber ∧
        (∀ masses total gross zone, l.result = .value masses total gross zone →
          w.outcome = .value ∧ w.zone = some zone ∧ w.decks = masses.map weighed ∧
          w.indicated =
            (if zone = .underload ∨ zone = .overload then none
             else if zone = .centreZero then some 0 else some (gross / 10))) ∧
        (∀ decks, l.result = .deckDown decks →
          w.outcome = .deckDown ∧ w.indicated = none ∧ w.zone = none ∧
          w.decks = decks.map fun x =>
            match x with
            | .down d => (d, DeckWeight.down)
            | .value m => weighed m) ∧
        (l.result = .scaleNotRunning →
          w.outcome = .scaleNotRunning ∧ w.indicated = none ∧ w.zone = none ∧ w.decks = []) ∧
        (l.result = .uncalibrated →
          w.outcome = .uncalibrated ∧ w.indicated = none ∧ w.zone = none ∧ w.decks = []))) ∧
    (∃ lines : Bank LineFields 5,
      (∀ i, lines.get i =
        { decoded := s.metro.valid && decide (i.val ≤ c.deckCount)
          levelA := (s.axle.lines.get i).levelA, levelB := (s.axle.lines.get i).levelB
          pairing := if s.metro.valid = true ∧ i.val ≤ c.deckCount then some (s.axle.lines.get i).pairing else none
          code := (s.axle.lines.get i).code }) ∧
      exec (.readTreadles []) s = .next (answered 0xA1
        { status := .ok
          body := .treadles { settings := s.site.treadle, loopEntry := s.axle.loopEntry, loopExit := s.axle.loopExit
                              lines := lines } } []
        (s.setAxle { s.axle with lines := s.axle.lines.map fun l => { l with code := .noNew } }))) ∧
    exec (.readAxleMap []) s = .next (answered 0xA2
      { status := .ok
        body := .axleMap
          { certain := s.axle.certain, cause := s.axle.cause, occupancy := s.axle.occupancy
            hiddenCount := s.axle.hiddenCount, recoveryCount := s.axle.recoveryCount, entered := s.axle.entered
            exitedCount := s.axle.exitedCount, entryComplete := s.axle.entryComplete, reversal := s.axle.reversal
            activeDecks := if s.metro.valid = true then some c.deckCount else none
            decks := if s.metro.valid = true then some (c.activeDecks.map s.axle.decks.get) else none
            exited := s.axle.exited } } [] s) ∧
    exec (.readSiteTables []) s = .next (answered 0xA5
      { status := .ok, body := .siteTables s.site.classes s.site.limits s.site.treadle } [] s)) ∧
  (∀ s : State, s.ready →
    (exec (.readMetrologyStatus []) s = .next (answered 0xD7
      { status := .ok
        body := .metrology
          { status := s.metro.status, valid := s.metro.valid, counter := s.store.eventCounter
            checksum := s.store.checksum, switchCal := s.metro.switchCal
            idle := match s.cap.slot with
              | .adjustment x => some x.idle
              | _ => none
            calibration := match s.cap.slot with
              | .adjustment x => x.calibration.map fun c => (c.kind, c.deck)
              | _ => none
            newest := s.store.audits.getLast?.map fun r => (r.number, r.passed, r.counter, r.due)
            nextSeq := s.store.nextSeq } } [] s)) ∧
    (∀ p, parseNat 1 p = some 0 →
      exec (.readConfiguration p) s = .next (answered 0xD8
        { status := .ok, body := .storedConfiguration s.store.config s.store.checksum s.metro.valid } [] s)) ∧
    (∀ p, parseNat 1 p = some 1 →
      (∀ sess, s.cap.slot = .adjustment sess →
        exec (.readConfiguration p) s = .next (answered 0xD8
          { status := .ok, body := .stagedConfiguration sess.staged (configChecksum sess.staged) } [] s)) ∧
      ((∀ sess, s.cap.slot ≠ .adjustment sess) →
        exec (.readConfiguration p) s = .next (answered 0xD8 { status := .notInSession, body := .none } [] s))) ∧
    (∀ p n, parseNat 4 p = some n →
      let found := s.store.trail.filter fun x => decide (n ≤ x.seq)
      exec (.readAuditTrail p) s = .next (answered 0xD9
        { status := .ok
          body := .trail s.store.nextSeq (found.take 8) (decide (8 < found.length))
            (match s.store.trail.head? with
              | none => false
              | some x => decide (n < x.seq)) } [] s)) ∧
    (∀ p sel, parseAuditSelector p = some sel →
      let found : Option AuditRecord :=
        match sel with
        | .number n => s.store.audits.find? fun x => x.number == n
        | .newest => s.store.audits.getLast?
        | .session => none
      let answer := fun r : Reply => exec (.readAuditRecord p) s = .next (answered 0xE4 r [] s)
      let counts := fun st : Status =>
        answer { status := st, body := .auditCounts s.store.auditCounter s.store.audits.length }
      (∀ r, found = some r →
        answer { status := .ok, body := .auditRecord r s.store.auditCounter s.store.audits.length }) ∧
      (sel ≠ .session → found = none → counts .noSuchEntry) ∧
      (sel = .session → (∀ a, s.cap.slot ≠ .audit a) → counts .notInSession) ∧
      (sel = .session → ∀ a, s.cap.slot = .audit a →
        answer
          { status := .ok
            body := .auditSession a.number a.idle a.steps (a.flight.map fun f => (f.kind, f.target, f.load, f.count))
              s.store.auditCounter s.store.audits.length })))
/-! ## The axle map -/

/-- Activations and clearings of treadle elements (R58, R59): a clearing changes only the level; on a line that is not
decoded an activation changes only the level, on a decoded one it opens an IDLE pairing, is ignored or absorbed, or as
the partner of a pairing at most 1,000 ms old ends it with a crossing, which restarts the window (R43); at line 0 it
wakes a scale in STANDBY (R24). On an UNCERTAIN map a crossing changes no list and is told all the same: AXLE_CROSSING
with its line, its direction and its speed, with no axle number and UNCERTAIN, behind the SCALE_STATE of a wake and
before OCCUPANCY (R59, R61, R73; the order: log 14). A partner stamped within 1,000 ms makes the crossing although the
line stands in GUARD, with its stamp minus t0 as Δt (R59); the time base becomes an activation's stamp unless it is
beyond it, and a partner stamped before t0 gets a Δt of 0 (log 5). When occupancy became EMPTY the exit lamp is
RED, and otherwise it is as it was, with the REWORK hold, where the map completes no composite operation (R109); a
completion of the same event comes after the occupancy (log 51). -/
def Obligations.ElementRows : Prop :=
  ∀ (line : LineNo) (el : Element) (stamp : Nat) (ok : Bool) (s : State), s.mainSupply = true →
    let l := s.axle.lines.get line
    let setTo := fun (x : Bool) => match el with
      | .a => ({ l with levelA := x } : TreadleLine)
      | .b => ({ l with levelB := x } : TreadleLine)
    let on := setTo true
    let after := fun (p : Pairing) =>
      s.setAxle { s.axle with
        lines := s.axle.lines.set line { on with pairing := p }, timeBase := max stamp s.axle.timeBase }
    exec (.elementClear line el) s =
      .next (notified [] (s.setAxle { s.axle with lines := s.axle.lines.set line (setTo false) })) ∧
    (l.level el = false →
      (line.val ≠ 0 ∨ s.acq.scale ≠ .standby →
        (s.decoded line = false → exec (.activation line el stamp ok) s = .next (notified [] (after l.pairing))) ∧
        (s.decoded line = true → l.pairing = .idle →
          exec (.activation line el stamp ok) s =
            .next (notified [] (after (if el = .a then .openA stamp else .openB stamp)))) ∧
        (∀ t0, s.decoded line = true → el = .a → (l.pairing = .openA t0 ∨ l.pairing = .guardA t0) →
          exec (.activation line el stamp ok) s = .next (notified [] (after l.pairing))) ∧
        (∀ t0, s.decoded line = true → el = .b → (l.pairing = .openB t0 ∨ l.pairing = .guardB t0) →
          exec (.activation line el stamp ok) s = .next (notified [] (after l.pairing))) ∧
        (∀ t0, s.decoded line = true → el = .b → (l.pairing = .openA t0 ∨ l.pairing = .guardA t0) → t0 + 1000 < stamp →
          exec (.activation line el stamp ok) s = .next (notified [] (after (.guardA t0)))) ∧
        (∀ t0, s.decoded line = true → el = .a → (l.pairing = .openB t0 ∨ l.pairing = .guardB t0) → t0 + 1000 < stamp →
          exec (.activation line el stamp ok) s = .next (notified [] (after (.guardB t0)))) ∧
        (∀ t0, s.decoded line = true →
          (el = .b ∧ (l.pairing = .openA t0 ∨ l.pairing = .guardA t0)) ∨
            (el = .a ∧ (l.pairing = .openB t0 ∨ l.pairing = .guardB t0)) → stamp ≤ t0 + 1000 →
          ∃ t, exec (.activation line el stamp ok) s = .next t ∧
            (t.axle.lines.get line).pairing = .idle ∧ t.zm.window = [] ∧ t.zm.clock = 0 ∧
            t.zm.zeroState = s.zm.zeroState ∧ t.zm.offset = s.zm.offset ∧ t.zm.latest = s.zm.latest ∧
            t.acq = s.acq ∧ t.site = s.site ∧ t.cal = s.cal ∧
            (s.axle.certain = false → t.axle.certain = false ∧ t.axle.decks = s.axle.decks ∧
              t.axle.entered = s.axle.entered ∧ t.axle.exited = s.axle.exited))) ∧
      (∀ t0, s.decoded line = true → s.axle.certain = false →
        (el = .b ∧ (l.pairing = .openA t0 ∨ l.pairing = .guardA t0)) ∨
          (el = .a ∧ (l.pairing = .openB t0 ∨ l.pairing = .guardB t0)) → stamp ≤ t0 + 1000 →
        let speed : Option Nat :=
          if stamp - t0 = 0 then none
          else some (roundDiv (36 * s.site.treadle.separation : Nat) (stamp - t0)).toNat
        let dir : Direction := if el = .a then .backward else .forward
        ∃ t, exec (.activation line el stamp ok) s = .next t ∧ t.axle.certain = false ∧
          (s.completesNone t → t.cap.exit = exitByMap s t) ∧
          s.raisedFirst
            ((if line.val = 0 ∧ s.acq.scale = .standby then [.scaleState .warmup .standby] else []) ++
              [.axleCrossing line dir speed none false] ++ occupancyNotes s t)
            (9 ≤ ·.code) t) ∧
      (line.val = 0 → s.acq.scale = .standby →
        ∃ t, exec (.activation line el stamp ok) s = .next t ∧ t.acq.scale = .warmup ∧ t.acq.excitation = true ∧
          t.acq.warmCount = 0 ∧ (t.axle.lines.get line).level el = true))

/-- What a decoded crossing does to a CERTAIN map over N decks (R61, R63, R65 to R68, R70), its pairing OPEN or, with
the partner in time, already in GUARD (R59). Forward: line 0 adds an axle with the next number, on an empty map behind
a complete vehicle as axle 1 of a new one; its spacing is the separation times the time since the axle ahead entered,
over 10 Δt, rounded, at most 65,535 and 0 should the axle ahead have a later entry time (log 5), absent for axle 1,
for a Δt of 0, under the reversal mark, and behind a re-entered axle; line k moves the front axle over the joint; line
N puts the front axle on the exited list. Backward: line 0 takes the rear axle off, with the reversal mark; line k
moves the rear axle back over the joint; line N takes the last axle off the exited list to the front of deck N. A
crossing after which nothing is left between clear loops clears the vehicle record. An empty source list, a vehicle
that enters behind a complete one and a twenty-fifth axle lose the map. The notices: for an empty list TREADLE_FAULT
with PHANTOM, for a loss AXLE_INCONSISTENT with its cause and the line, for every crossing AXLE_CROSSING with the
speed, the number of the axle it moved, none at a loss, and the certainty after it, then OCCUPANCY where occupancy or
certainty changed (R59, R68, R73); the SCALE_STATE of a wake stands first (their order: log 14). When occupancy became
EMPTY the exit lamp is RED, and otherwise it is as it was, with the REWORK hold, where the map completes no composite
operation (R109); a completion of the same event comes after the occupancy (log 51). -/
def Obligations.CrossingApplied : Prop :=
  ∀ (line : LineNo) (el : Element) (stamp t0 : Nat) (ok : Bool) (s : State), s.mainSupply = true →
    (s.axle.lines.get line).level el = false → s.decoded line = true →
    t0 ≤ stamp → stamp ≤ t0 + 1000 → s.axle.certain = true →
    let p := (s.axle.lines.get line).pairing
    let n := s.store.config.deckCount
    let dt := stamp - t0
    let speed : Option Nat := if dt = 0 then none else some (roundDiv (36 * s.site.treadle.separation : Nat) dt).toNat
    let placed := s.axle.exited ++ allDecks.flatMap s.axle.decks.get
    let told := fun (t : State) (axle : Option Nat) (found : List Notice) =>
      let dir : Direction := if el = .a then .backward else .forward
      s.raisedFirst
        ((if line.val = 0 ∧ s.acq.scale = .standby then [.scaleState .warmup .standby] else []) ++ found ++
          [.axleCrossing line dir speed axle t.axle.certain] ++ occupancyNotes s t)
        (9 ≤ ·.code) t
    let lost := fun (t : State) (cause : LossCause) =>
      told t none
        ((if cause = .phantom then [.treadleFault line .phantom] else []) ++ [.axleInconsistent cause (some line)]) ∧
      t.axle.certain = false ∧ t.axle.cause = cause ∧ t.axle.entered = 0 ∧ t.axle.exitedCount = 0 ∧
        t.axle.exited = [] ∧ t.axle.entryComplete = false ∧ t.axle.reversal = false ∧ (∀ d, t.axle.decks.get d = [])
    let cleared := fun t : State => t.axle.entered = 0 ∧ t.axle.exitedCount = 0 ∧ t.axle.exited = [] ∧
      t.axle.entryComplete = false ∧ t.axle.reversal = false
    let gone := fun (k : Deck) (r : List Axle) => r = [] ∧ (∀ d, d ≠ k → s.axle.decks.get d = []) ∧
      s.axle.loopEntry = false ∧ s.axle.loopExit = false
    let others := fun (t : State) (a : Axle) (k k' : Deck) =>
      told t (some a.number) [] ∧ t.axle.certain = true ∧ ∀ d, d ≠ k → d ≠ k' → t.axle.decks.get d = s.axle.decks.get d
    (el = .b → p = .openA t0 ∨ p = .guardA t0 →
      ∃ t, exec (.activation line el stamp ok) s = .next t ∧ (s.completesNone t → t.cap.exit = exitByMap s t) ∧
        (line.val = 0 → s.axle.entryComplete = false → s.axle.entered < 24 →
          ∃ a : Axle, a.number = s.axle.entered + 1 ∧ a.entryTime = t0 ∧ a.entrySpeed = speed ∧
            (a.speedHigh = true ↔ ∃ v, speed = some v ∧ 200 < v) ∧ a.reEntered = s.axle.reversal ∧
            (a.number = 1 → a.spacing = none ∧ a.uncertainBoundary = false) ∧
            (1 < a.number → (a.uncertainBoundary = true ↔ a.spacing = none)) ∧
            (1 < a.number → ∀ b ∈ placed, b.number = s.axle.entered →
              (∀ x ∈ placed, x.number = s.axle.entered → x = b) →
                a.spacing =
                  if dt = 0 ∨ s.axle.reversal = true ∨ b.reEntered = true then none
                  else some (min 65535 (roundDiv
                    ((s.site.treadle.separation : Int) * ((t0 : Int) - b.entryTime)) (10 * dt)).toNat)) ∧
            t.axle.decks.get 0 = s.axle.decks.get 0 ++ [a] ∧ others t a 0 0 ∧
            t.axle.entered = s.axle.entered + 1 ∧ t.axle.reversal = false) ∧
        (line.val = 0 → s.axle.entryComplete = true → (∀ d, s.axle.decks.get d = []) →
          ∃ a : Axle, a.number = 1 ∧ a.entryTime = t0 ∧ a.entrySpeed = speed ∧ a.reEntered = false ∧
            a.spacing = none ∧ a.uncertainBoundary = false ∧
            t.axle.decks.get 0 = [a] ∧ others t a 0 0 ∧ t.axle.entered = 1 ∧ t.axle.exitedCount = 0 ∧
            t.axle.exited = [] ∧ t.axle.entryComplete = false ∧ t.axle.reversal = false) ∧
        (line.val = 0 → s.axle.entryComplete = true → (∃ d, s.axle.decks.get d ≠ []) → lost t .secondVehicle) ∧
        (line.val = 0 → s.axle.entryComplete = false → 24 ≤ s.axle.entered → lost t .overflow) ∧
        (∀ (k k' : Deck) (a : Axle) (r : List Axle), line.val = k.val + 1 → k'.val = k.val + 1 → line.val < n →
          s.axle.decks.get k = a :: r →
            t.axle.decks.get k = r ∧ t.axle.decks.get k' = s.axle.decks.get k' ++ [a] ∧ others t a k k' ∧
              t.axle.entered = s.axle.entered ∧ t.axle.exited = s.axle.exited) ∧
        (∀ (k : Deck) (a : Axle) (r : List Axle), line.val = k.val + 1 → line.val = n → s.axle.decks.get k = a :: r →
          t.axle.decks.get k = r ∧ others t a k k ∧ (gone k r → cleared t) ∧
            (¬gone k r → t.axle.exited = s.axle.exited ++ [a] ∧ t.axle.exitedCount = s.axle.exitedCount + 1 ∧
              t.axle.entered = s.axle.entered ∧ t.axle.entryComplete = s.axle.entryComplete)) ∧
        (∀ k : Deck, line.val = k.val + 1 → line.val ≤ n → s.axle.decks.get k = [] →
          lost t .phantom ∧ (t.axle.lines.get line).code = .phantom)) ∧
    (el = .a → p = .openB t0 ∨ p = .guardB t0 →
      ∃ t, exec (.activation line el stamp ok) s = .next t ∧ (s.completesNone t → t.cap.exit = exitByMap s t) ∧
        (∀ (a : Axle) (r : List Axle), line.val = 0 → s.axle.decks.get 0 = r ++ [a] →
          t.axle.decks.get 0 = r ∧ others t a 0 0 ∧ t.axle.entryComplete = false ∧ (gone 0 r → cleared t) ∧
            (¬gone 0 r → t.axle.entered = s.axle.entered - 1 ∧ t.axle.reversal = true ∧
              t.axle.exited = s.axle.exited ∧ t.axle.exitedCount = s.axle.exitedCount)) ∧
        (∀ (k k' : Deck) (a : Axle) (r : List Axle), line.val = k.val + 1 → k'.val = k.val + 1 → line.val < n →
          s.axle.decks.get k' = r ++ [a] →
            t.axle.decks.get k' = r ∧ t.axle.decks.get k = a :: s.axle.decks.get k ∧ others t a k k' ∧
              t.axle.entered = s.axle.entered ∧ t.axle.exited = s.axle.exited) ∧
        (∀ (k : Deck) (a : Axle) (r : List Axle), line.val = k.val + 1 → line.val = n → s.axle.exited = r ++ [a] →
          t.axle.exited = r ∧ t.axle.exitedCount = s.axle.exitedCount - 1 ∧
            t.axle.decks.get k = a :: s.axle.decks.get k ∧ others t a k k ∧ t.axle.entered = s.axle.entered) ∧
        (line.val = 0 → s.axle.decks.get 0 = [] → lost t .phantom ∧ (t.axle.lines.get line).code = .phantom) ∧
        (∀ k' : Deck, line.val = k'.val → 0 < line.val → line.val < n → s.axle.decks.get k' = [] →
          lost t .phantom ∧ (t.axle.lines.get line).code = .phantom) ∧
        (0 < line.val → line.val = n → s.axle.exited = [] →
          lost t .phantom ∧ (t.axle.lines.get line).code = .phantom))

/-- A pairing reaches t0 + 1,000 ms and is GUARD, with that time as the time base (R59, log 5); at t0 + 1,500 ms it
ends in a single-element fault, which restarts nothing: the line is IDLE with its code, a CERTAIN map is lost, an
UNCERTAIN one begins its recovery count again and keeps the cause of its loss (R60, R68, log 40). Its notices are
TREADLE_FAULT with the element that opened the pairing, AXLE_INCONSISTENT with the cause and the line where the map
was CERTAIN, and OCCUPANCY where occupancy or certainty changed, in this order (R60, R68, R73; log 14). When occupancy
became EMPTY the exit lamp is RED, and otherwise it is as it was, with the REWORK hold, where the map completes no
composite operation (R109); a completion of the same event comes after the occupancy (log 51). -/
def Obligations.PairingRows : Prop :=
  ∀ (line : LineNo) (t0 : Nat) (s : State), s.mainSupply = true →
    let l := s.axle.lines.get line
    let guarded := fun (p : Pairing) => s.setAxle { s.axle with
      lines := s.axle.lines.set line { l with pairing := p }, timeBase := max (t0 + 1000) s.axle.timeBase }
    (l.pairing = .openA t0 → exec (.pairingGuard line) s = .next (notified [] (guarded (.guardA t0)))) ∧
    (l.pairing = .openB t0 → exec (.pairingGuard line) s = .next (notified [] (guarded (.guardB t0)))) ∧
    (l.pairing = .guardA t0 ∨ l.pairing = .guardB t0 →
      ∃ t, exec (.singleElementFault line) s = .next t ∧
        t.axle.lines.get line = { l with pairing := .idle, code := .singleElement } ∧
        (let opener : Element := if l.pairing = .guardA t0 then .a else .b
         s.raisedFirst
           ([.treadleFault line (.singleElement opener)] ++
             (if s.axle.certain = true then [.axleInconsistent .singleElement (some line)] else []) ++
             occupancyNotes s t)
           (9 ≤ ·.code) t) ∧
        (occupancyNotes s t = [] ∨ s.completesNone t → t.cap.exit = exitByMap s t) ∧
        (∀ i, i ≠ line → t.axle.lines.get i = s.axle.lines.get i) ∧ t.zm = s.zm ∧ t.acq = s.acq ∧ t.site = s.site ∧
        (s.axle.certain = true → t.axle.certain = false ∧ t.axle.cause = .singleElement ∧ t.axle.entered = 0 ∧
          t.axle.exitedCount = 0 ∧ t.axle.exited = [] ∧ t.axle.entryComplete = false ∧ t.axle.reversal = false ∧
          t.axle.hiddenCount = 0 ∧ t.axle.recoveryCount = 0 ∧ (∀ d, t.axle.decks.get d = [])) ∧
        (s.axle.certain = false → t.axle.certain = false ∧ t.axle.cause = s.axle.cause ∧ t.axle.recoveryCount = 0 ∧
          t.axle.decks = s.axle.decks ∧ t.axle.entered = s.axle.entered))

/-- A change of a loop's level restarts the window and forms occupancy anew; the entry loop going CLEAR behind an
entered vehicle on a CERTAIN map sets entry-complete, on an empty map too; either loop going CLEAR behind a CERTAIN
and empty map, both loops then clear, clears the vehicle record, and any other change leaves it; the entry loop going
ACTIVE wakes a scale in STANDBY (R24, R43, R69, R70). Occupancy on a CERTAIN map is EMPTY with no axle between clear
loops, WHOLE with an entry-complete vehicle between clear loops, otherwise PARTIAL; on an UNCERTAIN map it is PARTIAL
with a loop ACTIVE or a latest result that is not VALUE, otherwise WHOLE above 20e and EMPTY at or below it (R73). A
loop change sends the SCALE_STATE of a wake, then OCCUPANCY where occupancy changed, before what a report makes (R24,
R73; the order: log 14). When occupancy became EMPTY the exit lamp is RED, and otherwise it is as it was, with the
REWORK hold, where the map completes no composite operation (R109); a completion of the same event comes after the
occupancy (log 51). -/
def Obligations.LoopChangeRow : Prop :=
  (∀ (lp : Loop) (active ok : Bool) (s : State), s.mainSupply = true →
    (s.axle.loopEntry ≠ active ∧ lp = .entry ∨ s.axle.loopExit ≠ active ∧ lp = .exit) →
      ∃ t, exec (.loopChange lp active ok) s = .next t ∧
        t.axle.loopEntry = (if lp = .entry then active else s.axle.loopEntry) ∧
        t.axle.loopExit = (if lp = .exit then active else s.axle.loopExit) ∧
        t.axle.decks = s.axle.decks ∧ t.axle.certain = s.axle.certain ∧ t.axle.lines = s.axle.lines ∧
        t.zm.window = [] ∧ t.zm.clock = 0 ∧ t.zm.zeroState = s.zm.zeroState ∧ t.zm.offset = s.zm.offset ∧
        t.site = s.site ∧ t.cal = s.cal ∧
        t.axle.occupancy = occupancyOf t.axle s.zm.latest s.store.config.eHg ∧
        s.raisedFirst
          ((if lp = .entry ∧ active = true ∧ s.acq.scale = .standby then [.scaleState .warmup .standby] else []) ++
            occupancyNotes s t)
          (9 ≤ ·.code) t ∧
        (occupancyNotes s t = [] ∨ s.completesNone t → t.cap.exit = exitByMap s t) ∧
        (let gone := active = false ∧ s.axle.certain = true ∧ (∀ d, s.axle.decks.get d = []) ∧
           t.axle.loopEntry = false ∧ t.axle.loopExit = false
         let passed := lp = .entry ∧ active = false ∧ s.axle.certain = true ∧ 1 ≤ s.axle.entered
         (gone → t.axle.entered = 0 ∧ t.axle.exitedCount = 0 ∧ t.axle.exited = [] ∧ t.axle.entryComplete = false ∧
           t.axle.reversal = false) ∧
         (¬gone → t.axle.entered = s.axle.entered ∧ t.axle.exitedCount = s.axle.exitedCount ∧
           t.axle.exited = s.axle.exited ∧ t.axle.reversal = s.axle.reversal ∧
           (t.axle.entryComplete = true ↔ s.axle.entryComplete = true ∨ passed))) ∧
        (t.acq.scale = if lp = .entry ∧ active = true ∧ s.acq.scale = .standby then .warmup else s.acq.scale)) ∧
  (∀ (m : AxleMap) (latest : Option LatestResult) (eHg : Nat),
    let clear := m.loopEntry = false ∧ m.loopExit = false
    let empty := ∀ d, m.decks.get d = []
    let occ := occupancyOf m latest eHg
    (m.certain = true →
      (empty ∧ clear → occ = .empty) ∧ (¬empty ∧ clear ∧ m.entryComplete = true → occ = .whole) ∧
        (¬(empty ∧ clear) → ¬(¬empty ∧ clear ∧ m.entryComplete = true) → occ = .part)) ∧
    (m.certain = false →
      (¬clear → occ = .part) ∧
      (clear → ∀ l decks total gross zone, latest = some l → l.result = .value decks total gross zone →
        occ = if 20 * eHg < total.natAbs then .whole else .empty) ∧
      (clear → (∀ l, latest = some l → l.result.isValue = false) → occ = .part)))

/-- The counts of the axle map unit at a sample event (R71, R72). On a CERTAIN map a VALUE result of more than 20e
over an empty map between clear loops raises the hidden-load count by one, any other sample event sets it to 0, and
the one with which it would reach 50 is the row HIDDEN_LOAD and loses the map, with AXLE_INCONSISTENT. On an UNCERTAIN
map a VALUE result of at most 20e between clear loops raises the recovery count by one, any other sample event sets it
to 0, and the one with which it would reach 50 is the row MAP_RECOVERY and makes the map CERTAIN. Below a limit the
map stays as it is. Occupancy is formed anew, and OCCUPANCY sent where it or the certainty changed (R73), behind the
notices of the blocks before and before those of the blocks after (logs 12 and 14); each row has the whole effect of
SAMPLE_EVENT (log 4). When occupancy became EMPTY the exit lamp is RED, and otherwise it is as it was, with the REWORK
hold, where the map completes no composite operation, and so it stays at a sample event that takes nothing of an
operation (R109); a completion of the same event comes after the occupancy (log 51). -/
def Obligations.MapCountRows : Prop :=
  ∀ (inp : SampleInput) (s : State), s.mainSupply = true →
    let a := acquire inp (Ev.start s)
    let r := formedResult a.ev.st a.value
    let clear := s.axle.loopEntry = false ∧ s.axle.loopExit = false
    let total := fun p : Nat → Prop => ∃ decks t gross zone, r = .value decks t gross zone ∧ p t.natAbs
    let hides := clear ∧ (∀ d, s.axle.decks.get d = []) ∧ total (20 * s.store.config.eHg < ·)
    let clears := clear ∧ total (· ≤ 20 * s.store.config.eHg)
    let u := (serveMap inp.storeOk r (serveZero r a.ev)).st
    ∃ t, exec (.sampleEvent inp) s = .next t ∧ t.axle.lines = s.axle.lines ∧
      (occupancyNotes s t = [] ∨ s.completesNone t → u.cap.exit = exitByMap s t) ∧
      ((∀ op, u.cap.slot = .capture op →
          r.isDeckDown = true ∨ u.zm.decisions.forProfile op.profile = false ∨ ∃ op1, t.cap.slot = .capture op1) →
        t.cap.exit = u.cap.exit) ∧
      t.axle.occupancy = occupancyOf t.axle t.zm.latest s.store.config.eHg ∧
      (let told := fun found : List Notice =>
         s.raisedFirst ((serveZero r a.ev).notes ++ found ++ occupancyNotes s t) (fun n => n.code = 0 ∨ 9 ≤ n.code) t
       let same := told [] ∧ t.axle.certain = s.axle.certain ∧ t.axle.decks = s.axle.decks ∧
         t.axle.entered = s.axle.entered ∧ t.axle.exited = s.axle.exited
       (s.axle.certain = true →
         (¬hides → same ∧ t.axle.hiddenCount = 0) ∧
         (hides → s.axle.hiddenCount < 49 → same ∧ t.axle.hiddenCount = s.axle.hiddenCount + 1) ∧
         (hides → s.axle.hiddenCount = 49 →
           exec (.hiddenLoad inp) s = .next t ∧ told [.axleInconsistent .hiddenLoad none] ∧
           t.axle.certain = false ∧ t.axle.cause = .hiddenLoad ∧ t.axle.entered = 0 ∧ t.axle.exitedCount = 0 ∧
           t.axle.exited = [] ∧ t.axle.entryComplete = false ∧ t.axle.reversal = false ∧ t.axle.hiddenCount = 0 ∧
           t.axle.recoveryCount = 0 ∧ (∀ d, t.axle.decks.get d = []) ∧ t.axle.occupancy = .whole)) ∧
       (s.axle.certain = false →
         (¬clears → same ∧ t.axle.recoveryCount = 0) ∧
         (clears → s.axle.recoveryCount < 49 → same ∧ t.axle.recoveryCount = s.axle.recoveryCount + 1) ∧
         (clears → s.axle.recoveryCount = 49 →
           exec (.mapRecovery inp) s = .next t ∧ told [] ∧ t.axle.certain = true ∧ t.axle.recoveryCount = 0 ∧
           t.axle.decks = s.axle.decks ∧ t.axle.entered = s.axle.entered ∧
           ((∀ d, s.axle.decks.get d = []) → t.axle.occupancy = .empty))))

/-! ## The site settings -/

/-- Write Treadle Settings, Write Group Limits, Write Class and Write Ticket Settings: a value out of its range is
refused with BAD_REQUEST, and setting the active operation's class out of use with BUSY; otherwise all of the setting
is replaced, or, when the settings-area write fails, none of it, answered STORE_FAULT with no latch and no notice
(R57, R76, R77, R113, R132). -/
def Obligations.SiteSettingsWritten : Prop :=
  ∀ (p : List Byte) (ok : Bool) (s : State), s.ready →
    (∀ x, parseTreadle p = some x →
      exec (.writeTreadleSettings p ok) s = .next (
        if ¬(100 ≤ x.separation ∧ x.separation ≤ 500 ∧ 2 ≤ x.filterTime ∧ x.filterTime ≤ 30 ∧ 180 ≤ x.groupGap ∧
            x.groupGap ≤ 300) then answered 0xA0 { status := .badRequest, body := .none } [] s
        else if ok = false then answered 0xA0 { status := .storeFault, body := .none } [] s
        else answered 0xA0 { status := .ok, body := .none } [] (s.setSite { s.site with treadle := x }))) ∧
    (∀ x, parseLimits p = some x →
      exec (.writeGroupLimits p ok) s = .next (
        if ∃ y ∈ [x.steerSingle, x.steerTwin, x.single, x.tandem, x.tridem, x.quad], y < 1000 ∨ 60000 < y then
          answered 0xA3 { status := .badRequest, body := .none } [] s
        else if ok = false then answered 0xA3 { status := .storeFault, body := .none } [] s
        else answered 0xA3 { status := .ok, body := .none } [] (s.setSite { s.site with limits := x }))) ∧
    (∀ x, parseClass p = some x →
      (x.cls = 0 ∨ 32 < x.cls ∨ x.grossLimit < 1000 ∨ 250000 < x.grossLimit ∨ x.maxAxles < 2 ∨ 24 < x.maxAxles ∨
          (x.profile ≠ 1 ∧ x.profile ≠ 2) →
        exec (.writeClass p ok) s = .next (answered 0xA4 { status := .badRequest, body := .none } [] s)) ∧
      (∀ (i : Fin 32) (k : ProfileNo), x.cls = i.val + 1 → 1000 ≤ x.grossLimit → x.grossLimit ≤ 250000 →
        2 ≤ x.maxAxles → x.maxAxles ≤ 24 → (x.profile = 1 ∧ k = .one ∨ x.profile = 2 ∧ k = .two) →
          ((∃ op, s.cap.slot = .capture op ∧ op.request.cls = x.cls) ∧ x.inUse = false →
            exec (.writeClass p ok) s = .next (answered 0xA4 { status := .busy, body := .none } [] s)) ∧
          (¬((∃ op, s.cap.slot = .capture op ∧ op.request.cls = x.cls) ∧ x.inUse = false) →
            exec (.writeClass p ok) s = .next (
              if ok = false then answered 0xA4 { status := .storeFault, body := .none } [] s
              else
                let entry : ClassEntry :=
                  { inUse := x.inUse, grossLimit := x.grossLimit, maxAxles := x.maxAxles, profile := k }
                answered 0xA4 { status := .ok, body := .none } []
                  (s.setSite { s.site with classes := s.site.classes.set i entry }))))) ∧
    (∀ x, parseTicketSettings p = some x →
      exec (.writeTicketSettings p ok) s = .next (
        if ¬(1 ≤ x.watermark ∧ x.watermark ≤ 32 ∧ 1 ≤ x.tareValidity ∧ x.tareValidity ≤ 365 ∧ 1 ≤ x.staleness ∧
            x.staleness ≤ 720) then answered 0xC8 { status := .badRequest, body := .none } [] s
        else if ok = false then answered 0xC8 { status := .storeFault, body := .none } [] s
        else answered 0xC8 { status := .ok, body := .none } [] (s.setSite { s.site with ticket := x })))

/-! ## Axle groups and verdicts -/

/-- The axle sequence of a map is every axle on the exited list and on the deck lists, with its place, in ascending
axle number (R80). The walk divides the axle sequence, front to back, into groups: two neighbours stand in one group
exactly when the rear one's spacing is present and at most the group gap; an absent spacing makes the boundary
uncertain on both sides, and the ends of the vehicle are certain. Groups are numbered from 1, and position and axle
count give the type and its limit; a group's decks are the places of its axles (R80 to R83). -/
def Obligations.GroupsFormed : Prop :=
  (∀ (gap : Nat) (axles : List PlacedAxle),
    let gs := walk gap axles
    gs.flatMap WalkGroup.axles = axles ∧ (∀ g ∈ gs, g.axles ≠ []) ∧
    (∀ g ∈ gs, ∀ pre x y post, g.axles = pre ++ x :: y :: post → ∃ sp, y.axle.spacing = some sp ∧ sp ≤ gap) ∧
    (∀ pre g h post, gs = pre ++ g :: h :: post →
      ∃ y r, h.axles = y :: r ∧
        (y.axle.spacing = none ∧ g.rear = true ∧ h.front = true ∨
          ∃ sp, y.axle.spacing = some sp ∧ gap < sp ∧ g.rear = false ∧ h.front = false)) ∧
    (∀ g, gs.head? = some g → g.front = false) ∧ (∀ g, gs.getLast? = some g → g.rear = false)) ∧
  (∀ m : AxleMap,
    let gone : List PlacedAxle := m.exited.map fun a => { axle := a, place := none }
    let placed : List PlacedAxle :=
      allDecks.flatMap fun k => (m.decks.get k).map fun a => { axle := a, place := some k }
    (axleSequence m).Perm (gone ++ placed) ∧
      (axleSequence m).Pairwise (fun a b => a.axle.number ≤ b.axle.number)) ∧
  (∀ (m : AxleMap) (gap : Nat) (limits : GroupLimits),
    let gs := formGroups m gap limits
    let ws := walk gap (axleSequence m)
    gs.map Group.number = List.range' 1 ws.length ∧
    gs.map Group.axleCount = ws.map (fun w => w.axles.length) ∧
    gs.map Group.uncertain = ws.map (fun w => w.front || w.rear) ∧
    (∀ (i : Nat) (g : Group) (w : WalkGroup), gs[i]? = some g → ws[i]? = some w →
      (∀ a, w.axles.head? = some a → g.firstAxle = a.axle.number) ∧
      (∀ a, w.axles.getLast? = some a → g.lastAxle = a.axle.number) ∧
      (∀ k : Deck, k ∈ g.decks ↔ ∃ a ∈ w.axles, a.place = some k) ∧
      (g.exited = true ↔ ∃ a ∈ w.axles, a.place = none)) ∧
    (∀ g ∈ gs,
      (g.axleCount = 1 → g.number = 1 → g.type = .steerSingle ∧ g.limit = limits.steerSingle) ∧
      (g.axleCount = 1 → g.number ≠ 1 → g.type = .single ∧ g.limit = limits.single) ∧
      (g.axleCount = 2 → g.number = 1 → g.type = .steerTwin ∧ g.limit = limits.steerTwin) ∧
      (g.axleCount = 2 → g.number ≠ 1 → g.type = .tandem ∧ g.limit = limits.tandem) ∧
      (g.axleCount = 3 → g.type = .tridem ∧ g.limit = limits.tridem) ∧
      (4 ≤ g.axleCount → g.type = .quad ∧ g.limit = limits.quad)))

/-- Components and the entries of a verdict. Every group that touches a deck lies in exactly one component, and the
groups of no deck in none; a component's decks are those that its groups touch, no deck lies in two, and no division
of the decks that keeps every group's decks together splits one; the components stand in the order of their frontmost
group, their groups ascending (R83). They are judged in that order, numbered from 1, under one load argument: whether
a deck carries a load without axle (R84, R85). STRADDLED marks a SINGLE component of two or more decks, SUBSTITUTED
one with a SUBSTITUTED deck (R83, R85). The verdict has one entry per group, with what its component gives it, and one
per component, beside the class, its limits and the decks with a load without axle (R87, R90). -/
def Obligations.ComponentsAndEntries : Prop :=
  (∀ gs : List Group, (gs.map Group.number).Pairwise (fun a b => a < b) →
    let chains := formComponents gs
    (chains.flatMap DeckChain.groups).Perm (gs.filter fun g => decide (g.decks ≠ [])) ∧
    (∀ k ∈ chains, k.groups ≠ [] ∧ k.groups.Pairwise (fun g h => g.number < h.number) ∧
      k.decks.Pairwise (fun a b => a < b) ∧ (∀ x, x ∈ k.decks ↔ ∃ g ∈ k.groups, x ∈ g.decks) ∧
      (∀ part : Deck → Bool, (∀ g ∈ k.groups, ∀ x ∈ g.decks, ∀ y ∈ g.decks, part x = part y) →
        ∀ x ∈ k.decks, ∀ y ∈ k.decks, part x = part y)) ∧
    chains.Pairwise (fun a b => (∀ x ∈ a.decks, x ∉ b.decks) ∧
      ∀ g h, a.groups.head? = some g → b.groups.head? = some h → g.number < h.number)) ∧
  (∀ (m : AxleMap) (c : MetroConfig) (limits : GroupLimits) (gap : Nat) (mean : Deck → Int) (subst : List Deck),
    let j := judge m c limits gap mean subst
    let chains := formComponents j.groups
    j.components.length = chains.length ∧
      ∀ (i : Nat) (k : Component) (x : DeckChain), j.components[i]? = some k → chains[i]? = some x →
        k = judgeComponent c.eHg mean subst (decide (j.deckLoads ≠ [])) (i + 1) x) ∧
  (∀ (eHg number : Nat) (mean : Deck → Int) (subst : List Deck) (load : Bool) (x : DeckChain),
    let k := judgeComponent eHg mean subst load number x
    k.number = number ∧ k.decks = x.decks ∧ k.groups = x.groups ∧
      (k.substituted = true ↔ ∃ y ∈ x.decks, y ∈ subst) ∧
      (k.straddled = true ↔ k.status = .single ∧ 2 ≤ x.decks.length)) ∧
  (∀ (m : AxleMap) (j : Judged) (cls : Nat) (entry : ClassEntry) (kg : Int),
    let v := wholeVerdict m j cls entry kg
    v.cls = cls ∧ v.grossLimit = entry.grossLimit ∧ v.maxAxles = entry.maxAxles ∧ v.entered = m.entered ∧
    v.deckLoads = j.deckLoads ∧ v.groups.length = j.groups.length ∧ v.components.length = j.components.length ∧
    (∀ (i : Nat) (x : GroupEntry) (g : Group), v.groups[i]? = some x → j.groups[i]? = some g →
      let mine := fun k : Component => ∃ h ∈ k.groups, h.number = g.number
      x.number = g.number ∧ x.firstAxle = g.firstAxle ∧ x.lastAxle = g.lastAxle ∧ x.axleCount = g.axleCount ∧
      x.type = g.type ∧ x.limit = g.limit ∧ x.uncertainBoundary = g.uncertain ∧
      (∀ k ∈ j.components, mine k → (∀ k' ∈ j.components, mine k' → k' = k) →
        x.component = some k.number ∧ x.mass = (if k.status = .single then some k.roundedKg else none) ∧
        x.verdict = groupVerdict k.comparison g.uncertain ∧ x.straddled = k.straddled ∧
        x.substituted = k.substituted) ∧
      ((∀ k ∈ j.components, ¬mine k) →
        x.component = none ∧ x.mass = none ∧ x.verdict = .unresolved ∧ x.straddled = false ∧
        x.substituted = false)) ∧
    (∀ (i : Nat) (x : ComponentEntry) (k : Component), v.components[i]? = some x → j.components[i]? = some k →
      x.number = k.number ∧ x.decks = k.decks ∧ x.status = k.status ∧ x.mass = k.roundedKg ∧
      x.limit = (if k.status = .unresolved then none else some k.limit) ∧ x.comparison = k.comparison ∧
      x.substituted = k.substituted ∧ x.position = 0 ∧
      (∀ g, k.groups.head? = some g → x.firstGroup = g.number) ∧
      (∀ g, k.groups.getLast? = some g → x.lastGroup = g.number)))

/-- Every active deck that belongs to no component and carries a capture mean above 2e is a deck load without axle, be
the map CERTAIN or not and whatever the number of groups; no group is listed on an UNCERTAIN map, nor when 13 or more
are formed (R80, R81, R84). A component's status, and its rounded mass against the sum of its groups' limits, WITHIN
when equal; a group takes UNRESOLVED, UNCERTAIN or its component's comparison, in that order; the vehicle is
INCOMPLETE with every reason that applies, else OVERLOADED when a component or the gross is OVER, else COMPLIANT (R85
to R89). -/
def Obligations.VerdictDecided : Prop :=
  (∀ (m : AxleMap) (c : MetroConfig) (limits : GroupLimits) (gap : Nat) (mean : Deck → Int) (subst : List Deck),
    let j := judge m c limits gap mean subst
    let gs := formGroups m gap limits
    (j.groups = if m.certain = true ∧ gs.length < 13 then gs else []) ∧
    (j.tooMany = true ↔ m.certain = true ∧ 13 ≤ gs.length) ∧ (j.groups = [] → j.components = []) ∧
    (∀ d, d ∈ j.deckLoads ↔
      d ∈ c.activeDecks ∧ (∀ k ∈ j.components, d ∉ k.decks) ∧ ((2 * c.eHg : Nat) : Int) < mean d)) ∧
  (∀ (eHg number : Nat) (mean : Deck → Int) (subst : List Deck) (load : Bool) (c : DeckChain),
    let k := judgeComponent eHg mean subst load number c
    k.mass = (c.decks.map mean).sum ∧ k.roundedKg = roundTo eHg k.mass / 10 ∧
    k.limit = (c.groups.map Group.limit).sum ∧
    (load = true ∨ (∃ g ∈ c.groups, g.exited = true) → k.status = .unresolved ∧ k.comparison = .unresolved) ∧
    (¬(load = true ∨ ∃ g ∈ c.groups, g.exited = true) →
      k.status = (if 2 ≤ c.groups.length then .combined else .single) ∧
      k.comparison = (if k.roundedKg ≤ k.limit then .within else .overBy (k.roundedKg - k.limit)))) ∧
  (∀ uncertain : Bool, groupVerdict .unresolved uncertain = .unresolved) ∧
  (∀ x : Int, groupVerdict (.overBy x) true = .uncertain ∧ groupVerdict (.overBy x) false = .overBy x) ∧
  (groupVerdict .within true = .uncertain ∧ groupVerdict .within false = .within) ∧
  (∀ (m : AxleMap) (j : Judged) (cls : Nat) (entry : ClassEntry) (kg : Int),
    let v := wholeVerdict m j cls entry kg
    (v.reasons.mapUncertain = true ↔ m.certain = false) ∧ v.reasons.tooManyGroups = j.tooMany ∧
    (v.reasons.deckLoadWithoutAxle = true ↔ j.deckLoads ≠ []) ∧
    (v.reasons.groupUnresolved = true ↔ ∃ g ∈ v.groups, g.verdict = .unresolved) ∧
    (v.reasons.groupUncertain = true ↔ ∃ g ∈ v.groups, g.verdict = .uncertain) ∧
    (v.reasons.classMismatch = true ↔ entry.maxAxles < m.entered) ∧
    v.gross = kg ∧
    v.grossComparison = (if kg ≤ entry.grossLimit then .within else .overBy (kg - entry.grossLimit)) ∧
    (let incomplete := v.reasons.mapUncertain = true ∨ v.reasons.tooManyGroups = true ∨
       v.reasons.deckLoadWithoutAxle = true ∨ v.reasons.groupUnresolved = true ∨ v.reasons.groupUncertain = true ∨
       v.reasons.classMismatch = true
     let overloaded := (∃ c ∈ v.components, ∃ x, c.comparison = .overBy x) ∨ ∃ x, v.grossComparison = .overBy x
     (incomplete → v.vehicle = .incomplete) ∧ (¬incomplete → overloaded → v.vehicle = .overloaded) ∧
       (¬incomplete → ¬overloaded → v.vehicle = .compliant)))

/-! ## Capture operations -/

/-- Start Capture: a request that R94 turns down, or whose class is not in use, is answered BAD_REQUEST; then the
checks of R95 and R117 in their order decide, a refused request changing nothing; an accepted one is answered with its
number, its operation holds the slot in the state that R98 gives, a SECOND or SINGLE_PASS with a reservation (R94 to
R98, R117, R130). The request that is checked has the payload's vehicle, class, transaction kind, commodity, grade,
transaction number and flags, each for the kinds that use it (R94). Bits 2 to 7 of the flags byte are ignored by the
model's choice (log 45), and fields that the kind does not use are read over (log 17). -/
def Obligations.StartCaptureDecided : Prop :=
  ∀ (p : List Byte) (f : CaptureFields) (s : State), parseCapture p = some f → s.ready →
    let badChar := fun b : Byte =>
      b ≠ 0x2D ∧ ¬(0x30 ≤ b.toNat ∧ b.toNat ≤ 0x39) ∧ ¬(0x41 ≤ b.toNat ∧ b.toNat ≤ 0x5A)
    let bad := 4 < f.kind ∨ f.vehicle = [] ∨ 12 < f.vehicle.length ∨ (∃ b ∈ f.vehicle, badChar b) ∨ f.cls = 0 ∨
      32 < f.cls ∨ ((f.kind = 0 ∨ f.kind = 2) ∧ (999 < f.commodity ∨ ∃ g, f.grade = some g ∧ 6 < g.length)) ∨
      (f.kind = 0 ∧ 1 < f.txKind) ∨ (f.kind = 3 ∧ f.flags % 2 = 1)
    (bad → f.request = none) ∧
    (¬bad → ∃ r, f.request = some r ∧ r.vehicle = f.vehicle ∧ r.cls = f.cls ∧
      r.txKind = (if f.kind = 0 then some (if f.txKind = 0 then .receival else .outturn) else none) ∧
      r.commodity = (if f.kind = 0 ∨ f.kind = 2 then f.commodity else 0) ∧
      r.grade = (if f.kind = 0 ∨ f.kind = 2 then f.grade else none) ∧
      r.txNumber = (if f.kind = 1 then f.txNumber else 0) ∧
      (r.acceptIncomplete = true ↔ f.kind = 1 ∧ f.flags / 2 % 2 = 1) ∧
      (r.allowComposite = true ↔ f.flags % 2 = 1) ∧ (f.kind = 0 ↔ r.kind = .first) ∧ (f.kind = 1 ↔ r.kind = .second) ∧
      (f.kind = 2 ↔ r.kind = .singlePass) ∧ (f.kind = 3 ↔ r.kind = .tare) ∧ (f.kind = 4 ↔ r.kind = .axleCheck)) ∧
    (f.request = none →
      exec (.startCapture p) s = .next (answered 0xB0 { status := .badRequest, body := .none } [] s)) ∧
    (∀ (r : CaptureRequest) (i : Fin 32), f.request = some r → r.cls = i.val + 1 →
      ((s.site.classes.get i).inUse = false →
        exec (.startCapture p) s = .next (answered 0xB0 { status := .badRequest, body := .none } [] s)) ∧
      ((s.site.classes.get i).inUse = true →
        let hasEntry := ∃ e ∈ s.store.entries, e.vehicle = r.vehicle
        let noSlot := 32 - s.store.tickets.length - s.tm.reserved = 0
        let txOut := 4294967295 ≤ s.store.txCounter
        let ticketOut := 4294967295 ≤ s.store.ticketCounter
        let early : Option Status :=
          match s.cap.slot with
          | .capture _ => some .busy
          | .adjustment _ => some .sessionOpen
          | .audit _ => some .sessionOpen
          | .free =>
            if s.acq.scale ≠ .run ∨ s.zm.zeroState ≠ .set ∨ s.metro.valid = false then some .notReady
            else if latestIsDeckDown s = true then some .deckDown
            else if r.kind ≠ .axleCheck ∧ s.tm.storeFault = true then some .storeFault
            else none
        let refusedWith := fun st : Status =>
          exec (.startCapture p) s = .next (answered 0xB0 { status := st, body := .none } [] s)
        let accepted :=
          let op : Operation :=
            { number := if 65535 ≤ s.cap.opCounter then 1 else s.cap.opCounter + 1
              request := r, profile := (s.site.classes.get i).profile, timeoutLimit := s.cap.timeout * 50
              timeoutCount := 0
              state := match s.axle.occupancy with
                | .whole => .settling
                | .part => if s.axle.certain = true ∧ r.allowComposite = true then .settling else .awaitingVehicle
                | .empty => .awaitingVehicle
              mode := .whole, positions := 0, credited := [] }
          exec (.startCapture p) s = .next (executed 0xB0 { status := .accepted, body := .operation op.number }
            [.operationState op.number op.state .whole 0] s
            ((s.setCap { s.cap with slot := .capture op, opCounter := op.number }).setTm
              { s.tm with
                reserved := if r.kind = .second ∨ r.kind = .singlePass then 1 else s.tm.reserved }))
        (∀ st, early = some st → refusedWith st) ∧
        (early = none →
          (r.kind = .axleCheck → accepted) ∧
          (r.kind = .first →
            (hasEntry → refusedWith .vehicleOpen) ∧
            (¬hasEntry → 64 ≤ s.store.entries.length → refusedWith .tableFull) ∧
            (¬hasEntry → s.store.entries.length < 64 → txOut → refusedWith .counterExhausted) ∧
            (¬hasEntry → s.store.entries.length < 64 → ¬txOut → accepted)) ∧
          (r.kind = .singlePass →
            (hasEntry → refusedWith .vehicleOpen) ∧
            (¬hasEntry → 64 ≤ s.store.entries.length → refusedWith .tableFull) ∧
            (¬hasEntry → s.store.entries.length < 64 → txOut ∨ ticketOut → refusedWith .counterExhausted) ∧
            (¬hasEntry → s.store.entries.length < 64 → ¬(txOut ∨ ticketOut) → noSlot → refusedWith .storeFull) ∧
            (¬hasEntry → s.store.entries.length < 64 → ¬(txOut ∨ ticketOut) → ¬noSlot → accepted)) ∧
          (r.kind = .second →
            (s.store.entry r.txNumber = none → refusedWith .noSuchTransaction) ∧
            (∀ e, s.store.entry r.txNumber = some e →
              (e.vehicle ≠ r.vehicle → refusedWith .badRequest) ∧
              (e.vehicle = r.vehicle → ticketOut → refusedWith .counterExhausted) ∧
              (e.vehicle = r.vehicle → ¬ticketOut → noSlot → refusedWith .storeFull) ∧
              (e.vehicle = r.vehicle → ¬ticketOut → ¬noSlot → accepted))) ∧
          (r.kind = .tare →
            (s.metro.status.tradeReady = false → refusedWith .notTradeReady) ∧
            (s.metro.status.tradeReady = true → accepted)))))

/-- Cancel Operation fails the operation with that number with CANCELLED, and is refused with NO_SUCH_ENTRY in every
other case (R104, R105). Release Vehicle turns the exit lamp GREEN and clears the REWORK hold in every state (R110).
Write Capture Settings replaces the capture timeout by 5 to 120 s (R96). -/
def Obligations.OperationRequests : Prop :=
  (∀ (p : List Byte) (n : Nat) (s : State), parseNat 2 p = some n → s.ready →
    (∀ op, s.cap.slot = .capture op → op.number = n →
      exec (.cancelOperation p) s = .next (executed 0xB1 { status := .ok, body := .none }
        [.captureFailed op.number op.request.kind .cancelled op.positions] s
        ((s.setCap { s.cap with slot := .free }).setTm { s.tm with reserved := 0 }))) ∧
    ((∀ op, s.cap.slot = .capture op → op.number ≠ n) →
      exec (.cancelOperation p) s = .next (answered 0xB1 { status := .noSuchEntry, body := .none } [] s))) ∧
  (∀ s : State, s.ready →
    exec (.releaseVehicle []) s = .next (executed 0xB2 { status := .ok, body := .none } [] s
      (s.setCap { s.cap with exitLamp := .green, reworkHold := false }))) ∧
  (∀ (p : List Byte) (n : Nat) (s : State), parseNat 1 p = some n → s.ready →
    exec (.writeCaptureSettings p) s = .next (
      if 5 ≤ n ∧ n ≤ 120 then
        answered 0xB3 { status := .ok, body := .none } [] (s.setCap { s.cap with timeout := n })
      else answered 0xB3 { status := .badRequest, body := .none } [] s))

/-- What the transaction manager makes of a capture result, while STORE_FAULT is not latched; while it is latched it
makes no write and returns STORE_FAULT (R114), and an AXLE_CHECK is CHECKED in either case (R107). The completion of a
FIRST opens an entry with the next transaction number. The completion of a SECOND forms the net by the entry's kind
and issues the next ticket for it, with all the fields of R127 and the reason set of R128, which removes the entry and
takes the reserved slot, with its notices; an OUTTURN that is OVERLOADED, or INCOMPLETE and not accepted so, puts the
entry into REWORK instead. The ticket's reason set is empty exactly when nothing speaks against trade. A TARE is
stored when its reason set is empty and its verdict COMPLIANT: in the slot that holds the vehicle, else the lowest
empty one, else the one with the oldest date; otherwise it is not stored and nothing is written. A SINGLE_PASS with a
usable tare issues a ticket against it and uses up a transaction number; without one it falls back to an entry, with
the reason. A write that fails changes no record and latches STORE_FAULT (R112, R114, R118, R120, R123 to R125, R128,
R129). -/
def Obligations.CompletionsRecorded : Prop :=
  (∀ (ok : Bool) (r : CaptureResult) (e : Ev),
    (r.request.kind = .axleCheck → completeKind ok r e = (e, some .checked)) ∧
    (r.request.kind ≠ .axleCheck → e.st.tm.storeFault = true → completeKind ok r e = (e, none))) ∧
  (∀ (ok : Bool) (r : CaptureResult) (e : Ev), e.st.tm.storeFault = false →
    let s := e.st
    let stamped := fun w : Option DateTime =>
      match w with
      | none => WeighingStamp.absent
      | some t => .stamp t
    let failed := fun w : StoreWrite =>
      completeKind ok r e =
        ({ e with st := s.setTm { s.tm with storeFault := true }, notes := e.notes ++ [.storeFault w] }, none)
    (∀ kind, r.request.kind = .first → r.request.txKind = some kind →
      let opened : OpenEntry :=
        { number := s.store.txCounter + 1, kind := kind, vehicle := r.request.vehicle, cls := r.request.cls
          commodity := r.request.commodity, grade := r.request.grade, state := .standing, stale := false
          first := { gross := r.gross, stamp := r.stamp, counter := r.counter, checksum := r.checksum
                     flags := r.flags, verdict := r.verdict.vehicle, groups := r.verdict.groups } }
      let st1 : Store := { s.store with entries := s.store.entries ++ [opened], txCounter := s.store.txCounter + 1 }
      (ok = false → failed .openEntry) ∧
      (ok = true → completeKind ok r e = ({ e with st := s.setStore st1 }, some (.opened (s.store.txCounter + 1))))) ∧
    (∀ x, r.request.kind = .second → s.store.entry r.request.txNumber = some x →
      let net := match x.kind with
        | .receival => x.first.gross - r.gross
        | .outturn => r.gross - x.first.gross
      let v := r.verdict.vehicle
      let ticketed :=
        x.kind = .receival ∨ v = .compliant ∨ v = .incomplete ∧ r.request.acceptIncomplete = true
      (ticketed → ok = false → failed .issue) ∧
      (ticketed → ok = true →
        let t : Ticket :=
          { number := s.store.ticketCounter + 1, tx := x.number, kind := x.kind, vehicle := x.vehicle
            cls := r.request.cls, commodity := x.commodity, grade := x.grade
            first := { gross := x.first.gross, stamp := stamped x.first.stamp, counter := x.first.counter }
            second := { gross := r.gross, stamp := stamped r.stamp, counter := r.counter }
            tareSource := .weighed, net := net
            reasons :=
              { status := { r.status with
                  timeUnset := r.status.timeUnset || x.first.stamp.isNone || r.stamp.isNone }
                mixedCalibration := decide (x.first.counter ≠ r.counter)
                composite := x.first.flags.composite || r.flags.composite
                substituted := x.first.flags.substituted || r.flags.substituted
                overMax := x.first.flags.overMax || r.flags.overMax
                belowMin := x.first.flags.belowMin || r.flags.belowMin, reversed := decide (net < 0) }
            stale := x.stale, degraded := x.first.flags.degraded || r.flags.degraded
            verdict := v, incomplete := r.verdict.reasons, groups := r.verdict.groups
            counter := r.counter, checksum := r.checksum }
        (t.reasons.list.any id = false ↔
          r.status.tradeReady = true ∧ x.first.counter = r.counter ∧ x.first.stamp ≠ none ∧ r.stamp ≠ none ∧
          0 ≤ net ∧
          ∀ f ∈ [r.flags, x.first.flags],
            f.composite = false ∧ f.substituted = false ∧ f.overMax = false ∧ f.belowMin = false) ∧
          (let st1 : Store :=
             { s.store with
               tickets := s.store.tickets ++ [t], ticketCounter := t.number
               entries := s.store.entries.filter fun y => decide (y.number ≠ x.number) }
           let count := s.store.tickets.length + 1
           let notes : List Notice :=
             [.ticketReady t.number count] ++ (if count = s.site.ticket.watermark then [.storeWatermark] else []) ++
               (if count = 32 then [.storeFull] else [])
           completeKind ok r e =
             ({ e with st := (s.setStore st1).setTm { s.tm with reserved := 0 }, notes := e.notes ++ notes },
               some (.ticketIssued t.number x.number)))) ∧
      (¬ticketed → ok = false → failed .rework) ∧
      (¬ticketed → ok = true →
        let reason : ReworkReason := if v = .overloaded then .overloaded else .incomplete r.verdict.reasons
        let st1 : Store :=
          { s.store with
            entries := s.store.entries.map fun y =>
              if y.number = x.number then { y with state := .rework reason } else y }
        completeKind ok r e = ({ e with st := s.setStore st1 }, some (.rework x.number reason)))) ∧
    (r.request.kind = .tare →
      let v := r.request.vehicle
      let clean := r.status.tradeReady = true ∧ r.stamp ≠ none ∧ r.flags.composite = false ∧
        r.flags.substituted = false ∧ r.flags.overMax = false ∧ r.flags.belowMin = false
      let stored := fun (i : Fin 128) (gone : Option Text) => ∀ t : DateTime, r.stamp = some t →
        let tare : StoredTare := { vehicle := v, mass := r.gross, date := t.date, counter := r.counter }
        (ok = false → failed .tare) ∧
        (ok = true → completeKind ok r e =
          ({ e with st := s.setStore { s.store with tares := s.store.tares.set i (some tare) } },
            some (.tareStored (i.val + 1) gone)))
      (¬(clean ∧ r.verdict.vehicle = .compliant) →
        completeKind ok r e = (e, some (.tareNotStored
          { status := { r.status with timeUnset := r.status.timeUnset || r.stamp.isNone }
            mixedCalibration := false, composite := r.flags.composite, substituted := r.flags.substituted
            overMax := r.flags.overMax, belowMin := r.flags.belowMin, reversed := false }))) ∧
      (clean → r.verdict.vehicle = .compliant →
        (∀ (i : Fin 128) (x : StoredTare), s.store.tares.get i = some x → x.vehicle = v →
          (∀ (j : Fin 128) (y : StoredTare), s.store.tares.get j = some y → y.vehicle = v → j = i) → stored i none) ∧
        ((∀ (j : Fin 128) (y : StoredTare), s.store.tares.get j = some y → y.vehicle ≠ v) →
          (∀ i : Fin 128, s.store.tares.get i = none → (∀ j, j < i → s.store.tares.get j ≠ none) → stored i none) ∧
          (∀ (i : Fin 128) (x : StoredTare), (∀ j, s.store.tares.get j ≠ none) → s.store.tares.get i = some x →
            (∀ (j : Fin 128) (y : StoredTare), s.store.tares.get j = some y →
              x.date.dayNumber < y.date.dayNumber ∨ x.date.dayNumber = y.date.dayNumber ∧ i ≤ j) →
              stored i (some x.vehicle))))) ∧
    (r.request.kind = .singlePass →
      let v := r.request.vehicle
      let tx := s.store.txCounter + 1
      let usable := fun x : StoredTare => ∃ now, s.cal.value = some now ∧
        x.date.dayNumber ≤ now.date.dayNumber ∧ now.date.dayNumber ≤ x.date.dayNumber + s.site.ticket.tareValidity ∧
        x.counter = s.store.eventCounter
      let fallback := fun reason : FallbackReason =>
        let opened : OpenEntry :=
          { number := tx, kind := .receival, vehicle := v, cls := r.request.cls, commodity := r.request.commodity
            grade := r.request.grade, state := .standing, stale := false
            first := { gross := r.gross, stamp := r.stamp, counter := r.counter, checksum := r.checksum
                       flags := r.flags, verdict := r.verdict.vehicle, groups := r.verdict.groups } }
        (ok = false → failed .openEntry) ∧
        (ok = true → completeKind ok r e =
          ({ e with st := s.setStore { s.store with entries := s.store.entries ++ [opened], txCounter := tx } },
            some (.fallbackTwoPass tx reason)))
      ((∀ (j : Fin 128) (y : StoredTare), s.store.tares.get j = some y → y.vehicle ≠ v) → fallback .noTare) ∧
      (∀ (i : Fin 128) (x : StoredTare), s.store.tares.get i = some x → x.vehicle = v →
        (∀ (j : Fin 128) (y : StoredTare), s.store.tares.get j = some y → y.vehicle = v → j = i) →
        (s.cal.value = none → fallback .tareUndated) ∧
        (∀ now, s.cal.value = some now →
          let aged := now.date.dayNumber < x.date.dayNumber ∨
            x.date.dayNumber + s.site.ticket.tareValidity < now.date.dayNumber
          (aged → fallback .tareAged) ∧ (¬aged → x.counter ≠ s.store.eventCounter → fallback .tareCounter)) ∧
        (usable x → ok = false → failed .issue) ∧
        (usable x → ok = true →
          let t : Ticket :=
            { number := s.store.ticketCounter + 1, tx := tx, kind := .receival, vehicle := v
              cls := r.request.cls, commodity := r.request.commodity, grade := r.request.grade
              first := { gross := r.gross, stamp := stamped r.stamp, counter := r.counter }
              second := { gross := x.mass, stamp := .tareDate x.date, counter := x.counter }
              tareSource := .stored, net := r.gross - x.mass
              reasons :=
                { status := { r.status with timeUnset := r.status.timeUnset || r.stamp.isNone }
                  mixedCalibration := decide (x.counter ≠ r.counter), composite := r.flags.composite
                  substituted := r.flags.substituted, overMax := r.flags.overMax, belowMin := r.flags.belowMin
                  reversed := decide (r.gross - x.mass < 0) }
              stale := false, degraded := r.flags.degraded
              verdict := r.verdict.vehicle, incomplete := r.verdict.reasons, groups := r.verdict.groups
              counter := r.counter, checksum := r.checksum }
          (t.reasons.list.any id = false ↔
              r.status.tradeReady = true ∧ r.stamp ≠ none ∧ r.counter = x.counter ∧ 0 ≤ t.net ∧
              r.flags.composite = false ∧ r.flags.substituted = false ∧ r.flags.overMax = false ∧
              r.flags.belowMin = false) ∧
            (let st1 : Store :=
               { s.store with
                 tickets := s.store.tickets ++ [t], ticketCounter := t.number, txCounter := tx }
             let count := s.store.tickets.length + 1
             let notes : List Notice :=
               [.ticketReady t.number count] ++ (if count = s.site.ticket.watermark then [.storeWatermark] else []) ++
                 (if count = 32 then [.storeFull] else [])
             completeKind ok r e =
               ({ e with st := (s.setStore st1).setTm { s.tm with reserved := 0 }, notes := e.notes ++ notes },
                 some (.ticketIssued t.number tx)))))))

/-- How an operation moves, and what fails it. A report of a change moves a WHOLE-mode operation to SETTLING with the
map WHOLE, or PARTIAL and CERTAIN under allow-composite, and otherwise to AWAITING_VEHICLE, with OPERATION_STATE when
its state changes; its timeout count runs on (R97, R98); a report of SECOND_VEHICLE fails it with TWO_VEHICLES, any
other loss does not end it (R104). So a loop change that changes occupancy moves the operation, and a second vehicle
at line 0 fails an operation in either mode; the notices of such an event are exactly those named, before a last
LAMP_STATE. A sample event whose result is DECK_DOWN fails an operation in every
state (R103, R104). Which events report is the model's reading (log 33), the order of the notices log 12 and log 14. -/
def Obligations.OperationMoves : Prop :=
  let stateBy := fun (m : AxleMap) (op : Operation) =>
    if m.occupancy = .whole ∨ m.occupancy = .part ∧ m.certain = true ∧ op.request.allowComposite = true then
      OpState.settling
    else .awaitingVehicle
  let failed := fun (op : Operation) (reason : FailReason) (e : Ev) =>
    ({ e with
       st := (e.st.setTm { e.st.tm with reserved := 0 }).setCap { e.st.cap with slot := .free }
       notes := e.notes ++ [.captureFailed op.number op.request.kind reason op.positions] } : Ev)
  let movedTo := fun (x : OpState) (op : Operation) (e : Ev) =>
    if x = op.state then e
    else
      { e with
        st := e.st.setCap { e.st.cap with slot := .capture { op with state := x } }
        notes := e.notes ++ [.operationState op.number x op.mode op.positions] }
  (∀ (ok : Bool) (rep : MapReport) (op : Operation) (e : Ev), e.st.cap.slot = .capture op → op.mode = .whole →
    let resumes := rep.crossing = true ∧ op.state = .positionWait
    let op1 := if resumes then { op with state := OpState.settling } else op
    let e1 := if resumes then movedTo .settling op e else e
    (rep.loss = some .secondVehicle → reportToCapture ok rep e = failed op1 .twoVehicles e1) ∧
    (rep.loss ≠ some .secondVehicle → rep.changed = false → reportToCapture ok rep e = e1) ∧
    (rep.loss ≠ some .secondVehicle → rep.changed = true →
      reportToCapture ok rep e = movedTo (stateBy e.st.axle op1) op1 e1)) ∧
  (∀ (lp : Loop) (active ok : Bool) (op : Operation) (s : State), s.mainSupply = true →
    (s.axle.loopEntry ≠ active ∧ lp = .entry ∨ s.axle.loopExit ≠ active ∧ lp = .exit) →
    s.cap.slot = .capture op → op.mode = .whole →
      ∃ t, exec (.loopChange lp active ok) s = .next t ∧
        (let x := if t.axle.occupancy = s.axle.occupancy then op.state else stateBy t.axle op
         s.raised
           ((if lp = .entry ∧ active = true ∧ s.acq.scale = .standby then [.scaleState .warmup .standby] else []) ++
             occupancyNotes s t ++
             if x = op.state then [] else [.operationState op.number x .whole op.positions]) t ∧
         t.cap.slot = .capture { op with state := x } ∧ t.tm = s.tm ∧ t.store = s.store)) ∧
  (∀ (line : LineNo) (stamp t0 : Nat) (ok : Bool) (op : Operation) (s : State), s.mainSupply = true →
    line.val = 0 → (s.axle.lines.get line).levelB = false → s.decoded line = true →
    t0 ≤ stamp → stamp ≤ t0 + 1000 →
    ((s.axle.lines.get line).pairing = .openA t0 ∨ (s.axle.lines.get line).pairing = .guardA t0) →
    s.axle.certain = true → s.axle.entryComplete = true → (∃ d, s.axle.decks.get d ≠ []) → s.cap.slot = .capture op →
      let speed : Option Nat :=
        if stamp - t0 = 0 then none
        else some (roundDiv (36 * s.site.treadle.separation : Nat) (stamp - t0)).toNat
      ∃ t, exec (.activation line .b stamp ok) s = .next t ∧
        s.raised
          ((if s.acq.scale = .standby then [.scaleState .warmup .standby] else []) ++
            [.axleInconsistent .secondVehicle (some line), .axleCrossing line .forward speed none false] ++
            occupancyNotes s t ++
            (if op.state = .positionWait then [.operationState op.number .settling op.mode op.positions] else []) ++
            [.captureFailed op.number op.request.kind .twoVehicles op.positions]) t ∧
        t.cap.slot = .free ∧ t.tm.reserved = 0 ∧ t.store = s.store) ∧
  (∀ (inp : SampleInput) (op : Operation) (s : State) (decks : List DeckResult), s.mainSupply = true →
    let a := acquire inp (Ev.start s)
    let r := formedResult a.ev.st a.value
    let e := serveMap inp.storeOk r (serveZero r a.ev)
    r = .deckDown decks → e.st.cap.slot = .capture op →
      exec (.sampleEvent inp) s = .next (happened (failed op .deckDown e).notes s (failed op .deckDown e).st))

/-- How an operation ends at its completion (R104, R107, R109): with the outcome of the transaction manager it
releases its reservation, the slot is FREE, CAPTURE_RESULT carries the record with that outcome, and the exit lamp
turns GREEN and clears the REWORK hold, but for REWORK, which turns it RED and sets the hold, and TARE_NOT_STORED,
which leaves both; with STORE_FAULT the operation fails and no result is sent. The notices of the transaction manager
stand before CAPTURE_RESULT and CAPTURE_FAILED, and those of the blocks before it first (logs 12 and 14). At a stable
sample event in SETTLING with the map WHOLE, an operation in WHOLE mode takes its capture (R16 to R19, R79, R99,
R106): a captured gross above Max + 9e fails it with OVERLOAD, one below 0 with UNDERLOAD; otherwise it completes with
the captured gross and the deck means rounded to e, OVER_MAX above Max, BELOW_MIN below 20e, SUBSTITUTED when an
active deck carried it in the window, and the verdict of that event. -/
def Obligations.CaptureTaken : Prop :=
  (∀ (ok : Bool) (op : Operation) (r : CaptureResult) (e : Ev),
    let done := completeKind ok r e
    let freed := (done.1.st.setTm { done.1.st.tm with reserved := 0 }).setCap { done.1.st.cap with slot := .free }
    (done.2 = none →
      completeOp ok op r e =
        { done.1 with
          st := freed
          notes := done.1.notes ++ [.captureFailed op.number op.request.kind .storeFault op.positions] }) ∧
    (∀ o, done.2 = some o →
      let ended := fun c : Capture => completeOp ok op r e =
        { done.1 with st := freed.setCap c, notes := done.1.notes ++ [.captureResult { r with outcome := o }] }
      ((∃ tx reason, o = .rework tx reason) → ended { freed.cap with exitLamp := .red, reworkHold := true }) ∧
      ((∃ reasons, o = .tareNotStored reasons) → ended freed.cap) ∧
      ((∀ tx reason, o ≠ .rework tx reason) → (∀ reasons, o ≠ .tareNotStored reasons) →
        ended { freed.cap with exitLamp := .green, reworkHold := false }))) ∧
  (∀ (inp : SampleInput) (op : Operation) (s : State), s.mainSupply = true →
    let a := acquire inp (Ev.start s)
    let r := formedResult a.ev.st a.value
    let e := serveMap inp.storeOk r (serveZero r a.ev)
    let u := e.st
    let c := u.store.config
    let mean := fun d : Deck => windowMean u.zm.window d
    let gross := roundTo c.eHg (c.activeDecks.map mean).sum
    let failsWith := fun reason : FailReason =>
      exec (.sampleEvent inp) s = .next (happened
        (e.notes ++ [.captureFailed op.number op.request.kind reason op.positions]) s
        ((u.setTm { u.tm with reserved := 0 }).setCap { u.cap with slot := .free }))
    u.cap.slot = .capture op → op.state = .settling → op.mode = .whole → u.axle.occupancy = .whole →
    u.zm.decisions.forProfile op.profile = true → r.isValue = true →
      (((c.maxHg + 9 * c.eHg : Nat) : Int) < gross → failsWith .overload) ∧
      (gross < 0 → failsWith .underload) ∧
      (0 ≤ gross → gross ≤ ((c.maxHg + 9 * c.eHg : Nat) : Int) → ∀ cls : Fin 32, op.request.cls = cls.val + 1 →
        ∃ x : CaptureResult, x.operation = op.number ∧ x.request = op.request ∧ x.gross = gross / 10 ∧
          x.deckMeans = c.activeDecks.map (fun d => roundTo c.eHg (mean d) / 10) ∧
          (x.flags.overMax = true ↔ (c.maxHg : Int) < gross) ∧
          (x.flags.belowMin = true ↔ gross < ((20 * c.eHg : Nat) : Int)) ∧
          (x.flags.substituted = true ↔
            ∃ d ∈ c.activeDecks, ∃ w ∈ u.zm.window, ∃ m ∈ w.decks, m.deck = d ∧ m.substituted = true) ∧
          x.flags.composite = false ∧ x.flags.degraded = u.cal.degraded ∧ x.stamp = u.cal.value ∧
          x.status = u.metro.status ∧ x.counter = u.store.eventCounter ∧ x.checksum = u.store.checksum ∧
          (∃ subst : List Deck,
            (∀ d, d ∈ subst ↔ d ∈ c.activeDecks ∧ ∃ w ∈ u.zm.window, ∃ m ∈ w.decks, m.deck = d ∧ m.substituted = true) ∧
            x.verdict = wholeVerdict u.axle (judge u.axle c u.site.limits u.site.treadle.groupGap mean subst)
              op.request.cls (u.site.classes.get cls) (gross / 10)) ∧
          (let done := completeOp inp.storeOk op x e
           exec (.sampleEvent inp) s = .next (happened done.notes s done.st))))

/-- The positions of a composite operation. At a stable sample event in SETTLING with the map CERTAIN, an operation
with allow-composite finds what is creditable: the SINGLE or COMBINED components, on a map with neither 13 groups nor
a load without axle, whose groups are all new, complete and without an exited axle (R91). It fails on the two range
checks, takes nothing when no component is creditable, and otherwise takes a position: every creditable component with
its groups, POSITION_CAPTURED, a timeout count of 0; then it completes when every axle entered is credited behind a
complete vehicle, fails with POSITION_LIMIT at the sixth position, or waits (R99, R100, R102, R103). In POSITION_WAIT
a crossing returns it to SETTLING (R101); a report from the axle map decides it by the rows of R102 in their order.
The completion forms the composite gross of every credited component once, judges it as R20 does, and takes the
composite verdict (R92, R102). By the model's choice or reading: the notices of a sample event in the order of the
blocks (logs 12 and 14), a count of 0 at the very sample event of a position (log 23), which events report (log 33),
and components repeated as their positions judged them (log 36). -/
def Obligations.CompositePositions : Prop :=
  let credited := fun (m : AxleMap) (gs : List CreditedGroup) =>
    m.entryComplete = true ∧ ∀ k, 1 ≤ k → k ≤ m.entered → ∃ g ∈ gs, g.firstAxle ≤ k ∧ k ≤ g.lastAxle
  let failed := fun (op : Operation) (reason : FailReason) (e : Ev) =>
    ({ e with
       st := (e.st.setTm { e.st.tm with reserved := 0 }).setCap { e.st.cap with slot := .free }
       notes := e.notes ++ [.captureFailed op.number op.request.kind reason op.positions] } : Ev)
  let holds := fun (op : Operation) (e : Ev) =>
    ({ e with st := e.st.setCap { e.st.cap with slot := .capture op } } : Ev)
  let told := fun (op : Operation) (e : Ev) =>
    ({ e with notes := e.notes ++ [.operationState op.number op.state op.mode op.positions] } : Ev)
  let ends := fun (ok : Bool) (op : Operation) (e e1 : Ev) =>
    let s := e.st
    let c := s.store.config
    ∃ cs : List CreditedComponent, cs.Nodup ∧ (∀ k, k ∈ cs ↔ ∃ g ∈ op.credited, g.component = k) ∧
      (let gross := roundTo c.eHg (cs.map CreditedComponent.mass).sum
       (((c.maxHg + 9 * c.eHg : Nat) : Int) < gross → e1 = failed op .overload e) ∧
       (gross < 0 → e1 = failed op .underload e) ∧
       (0 ≤ gross → gross ≤ ((c.maxHg + 9 * c.eHg : Nat) : Int) → ∀ cls : Fin 32, op.request.cls = cls.val + 1 →
         ∃ x : CaptureResult, x.operation = op.number ∧ x.request = op.request ∧ x.gross = gross / 10 ∧
           x.deckMeans = [] ∧ (x.flags.overMax = true ↔ (c.maxHg : Int) < gross) ∧
           (x.flags.belowMin = true ↔ gross < ((20 * c.eHg : Nat) : Int)) ∧ x.flags.composite = true ∧
           x.flags.positions = op.positions ∧
           (x.flags.substituted = true ↔ ∃ g ∈ op.credited, g.component.substituted = true) ∧
           x.flags.degraded = s.cal.degraded ∧ x.stamp = s.cal.value ∧ x.status = s.metro.status ∧
           x.counter = s.store.eventCounter ∧ x.checksum = s.store.checksum ∧
           x.verdict = compositeVerdict op.credited s.axle.entered op.request.cls (s.site.classes.get cls)
             (gross / 10) ∧
           e1 = completeOp ok op x e))
  (∀ (m : AxleMap) (j : Judged) (gs : List CreditedGroup) (k : Component),
    k ∈ creditableComponents m j gs ↔
      m.certain = true ∧ j.tooMany = false ∧ j.deckLoads = [] ∧ k ∈ j.components ∧ k.status ≠ .unresolved ∧
        ∀ g ∈ k.groups, g.exited = false ∧ (g.lastAxle < m.entered ∨ m.entryComplete = true) ∧
          ∀ x ∈ gs, g.lastAxle < x.firstAxle ∨ x.lastAxle < g.firstAxle) ∧
  (∀ (inp : SampleInput) (op : Operation) (s : State), s.mainSupply = true →
    let a := acquire inp (Ev.start s)
    let r := formedResult a.ev.st a.value
    let e := serveMap inp.storeOk r (serveZero r a.ev)
    let u := e.st
    let c := u.store.config
    let mean := fun d : Deck => windowMean u.zm.window d
    let gross := roundTo c.eHg (c.activeDecks.map mean).sum
    let after := fun e1 : Ev => exec (.sampleEvent inp) s = .next (happened e1.notes s e1.st)
    u.cap.slot = .capture op → op.state = .settling → u.axle.certain = true →
    (op.mode = .whole ∧ u.axle.occupancy = .part ∧ op.request.allowComposite = true ∨
      op.mode = .composite ∧ u.axle.occupancy ≠ .empty) →
    u.zm.decisions.forProfile op.profile = true → r.isValue = true →
      (((c.maxHg + 9 * c.eHg : Nat) : Int) < gross → after (failed op .overload e)) ∧
      (gross < 0 → after (failed op .underload e)) ∧
      (0 ≤ gross → gross ≤ ((c.maxHg + 9 * c.eHg : Nat) : Int) →
        ∃ subst : List Deck,
          (∀ d, d ∈ subst ↔ d ∈ c.activeDecks ∧ ∃ w ∈ u.zm.window, ∃ m ∈ w.decks, m.deck = d ∧ m.substituted = true) ∧
          (let comps := creditableComponents u.axle
             (judge u.axle c u.site.limits u.site.treadle.groupGap mean subst) op.credited
           let place := op.positions + 1
           let op1 : Operation :=
             { op with
               positions := place, mode := .composite, timeoutCount := 0
               credited := op.credited ++ comps.flatMap fun k => k.groups.map fun g =>
                 { firstAxle := g.firstAxle, lastAxle := g.lastAxle, axleCount := g.axleCount, type := g.type
                   limit := g.limit, uncertainBoundary := g.uncertain, straddled := k.straddled
                   component :=
                     { position := place, index := k.number, decks := k.decks, status := k.status, mass := k.mass
                       roundedKg := k.roundedKg, limit := k.limit, comparison := k.comparison
                       substituted := k.substituted } } }
           let e1 : Ev :=
             { holds op1 e with
               notes := e.notes ++ [.positionCaptured op.number place
                 (comps.flatMap fun k => k.groups.map fun g => (g.firstAxle, g.lastAxle))] }
           (comps = [] →
             (op.timeoutCount + 1 < op.timeoutLimit → after (holds { op with timeoutCount := op.timeoutCount + 1 } e)) ∧
             (op.timeoutLimit ≤ op.timeoutCount + 1 → after (failed op .unstableTimeout e))) ∧
           (comps ≠ [] →
             (credited u.axle op1.credited → ∃ e2, ends inp.storeOk op1 e1 e2 ∧ after e2) ∧
             (¬credited u.axle op1.credited → 6 ≤ place → after (failed op1 .positionLimit e1)) ∧
             (¬credited u.axle op1.credited → place < 6 →
               let op2 := { op1 with state := OpState.positionWait }
               after (told op2 (holds op2 e1))))))) ∧
  (∀ (ok : Bool) (rep : MapReport) (op : Operation) (e : Ev), e.st.cap.slot = .capture op → op.mode = .composite →
    let op1 := if rep.crossing = true ∧ op.state = .positionWait then { op with state := OpState.settling } else op
    let e1 := if rep.crossing = true ∧ op.state = .positionWait then told op1 (holds op1 e) else e
    let reported := rep.crossing = true ∨ rep.loss ≠ none ∨ rep.changed = true
    let e2 := reportToCapture ok rep e
    (¬reported → e2 = e) ∧
    (reported → credited e.st.axle op.credited → ends ok op1 e1 e2) ∧
    (reported → ¬credited e.st.axle op.credited →
      (rep.loss = some .secondVehicle → e2 = failed op1 .twoVehicles e1) ∧
      (∀ cause, rep.loss = some cause → cause ≠ .secondVehicle → e2 = failed op1 .mapUncertain e1) ∧
      (rep.loss = none → rep.emptied = true → e2 = failed op1 .compositeIncomplete e1) ∧
      (rep.loss = none → rep.emptied = false → e2 = e1))) ∧
  (∀ (gs : List CreditedGroup) (entered cls : Nat) (entry : ClassEntry) (kg : Int),
    let v := compositeVerdict gs entered cls entry kg
    ∃ (order : List CreditedGroup) (cs : List CreditedComponent),
      order.Perm gs ∧ order.Pairwise (fun x y => x.firstAxle ≤ y.firstAxle) ∧
      cs.Nodup ∧ cs.Sublist (order.map CreditedGroup.component) ∧ (∀ g ∈ gs, g.component ∈ cs) ∧
      v.deckLoads = [] ∧ v.entered = entered ∧ v.cls = cls ∧ v.gross = kg ∧
      v.grossComparison = (if kg ≤ entry.grossLimit then .within else .overBy (kg - entry.grossLimit)) ∧
      v.reasons = { mapUncertain := false, tooManyGroups := decide (13 ≤ gs.length), deckLoadWithoutAxle := false
                    groupUnresolved := false, groupUncertain := gs.any CreditedGroup.uncertainBoundary
                    classMismatch := decide (entry.maxAxles < entered) } ∧
      (13 ≤ gs.length → v.groups = [] ∧ v.components = []) ∧
      (gs.length < 13 →
        v.groups.map GroupEntry.number = List.range' 1 gs.length ∧
        v.groups.map (fun g => (g.firstAxle, g.lastAxle, g.type, g.limit, g.verdict)) =
          order.map (fun g => (g.firstAxle, g.lastAxle, g.type, g.limit,
            groupVerdict g.component.comparison g.uncertainBoundary)) ∧
        v.components.map ComponentEntry.number = List.range' 1 cs.length ∧
        v.components.map (fun k => (k.position, k.decks, k.status, k.mass, k.comparison)) =
          cs.map (fun k => (k.position, k.decks, k.status, k.roundedKg, k.comparison))) ∧
      (let incomplete := 13 ≤ gs.length ∨ (∃ g ∈ gs, g.uncertainBoundary = true) ∨ entry.maxAxles < entered
       let overloaded := (∃ k ∈ cs, ∃ x, k.comparison = .overBy x) ∨ entry.grossLimit < kg
       (incomplete → v.vehicle = .incomplete) ∧ (¬incomplete → overloaded → v.vehicle = .overloaded) ∧
         (¬incomplete → ¬overloaded → v.vehicle = .compliant)))

/-! ## Metrology -/

/-- Open Adjustment makes its checks in order and then holds the slot with a staged copy of the stored configuration,
or of the defaults while it is INVALID; the status gains ADJUSTING (R137). Abandon Adjustment, and the switch turned
to RUN with a session open, discard the session and its staged copy, and the status loses ADJUSTING; any other change
of the switch only sends its notice (R136, R145); both whether or not answers wait in their slots. SWITCH_STATE,
ADJUST_ABORTED, METROLOGY_STATUS and a last LAMP_STATE stand in this order (log 14). -/
def Obligations.AdjustmentOpenedAndEnded : Prop :=
  ∀ s : State,
    let now := fun (adjusting : Bool) => statusReasons s.metro.valid adjusting s.store s.cal.value
    let note := fun (adjusting : Bool) =>
      if now adjusting = s.metro.status then [] else [Notice.metrologyStatus (now adjusting) s.metro.status]
    let isSession := ∃ sess, s.cap.slot = .adjustment sess
    let freed := s.setCap { s.cap with slot := .free }
    (s.ready →
      (s.metro.switchCal = false →
        exec (.openAdjustment []) s = .next (answered 0xD0 { status := .switchNotCal, body := .none } [] s)) ∧
      (s.metro.switchCal = true →
        (∀ op, s.cap.slot = .capture op →
          exec (.openAdjustment []) s = .next (answered 0xD0 { status := .busy, body := .none } [] s)) ∧
        (isSession ∨ (∃ a, s.cap.slot = .audit a) →
          exec (.openAdjustment []) s = .next (answered 0xD0 { status := .sessionOpen, body := .none } [] s)) ∧
        (s.cap.slot = .free →
          let sess : AdjustSession :=
            { staged := if s.metro.valid = true then s.store.config else defaultConfig, idle := 0, calibration := none }
          exec (.openAdjustment []) s = .next (executed 0xD0
            { status := .ok, body := .adjustmentOpened s.store.eventCounter s.metro.valid (!s.metro.valid) } (note true) s
            ((s.setCap { s.cap with slot := .adjustment sess }).setMetro { s.metro with status := now true })))) ∧
      (¬isSession →
        exec (.abandonAdjustment []) s = .next (answered 0xD6 { status := .notInSession, body := .none } [] s)) ∧
      (isSession →
        exec (.abandonAdjustment []) s = .next (executed 0xD6 { status := .ok, body := .none } (note false) s
          (freed.setMetro { s.metro with status := now false })))) ∧
    (∀ toCal : Bool, s.mainSupply = true → toCal ≠ s.metro.switchCal →
      (toCal = true ∨ ¬isSession →
        exec (.switchState toCal) s =
          .next (notified [.switchState toCal] (s.setMetro { s.metro with switchCal := toCal }))) ∧
      (toCal = false → isSession →
        exec (.switchState toCal) s = .next (happened ([.switchState false, .adjustAborted .switch] ++ note false) s
          (freed.setMetro { s.metro with switchCal := false, status := now false }))))

/-- Stage Parameter replaces the named fields of the staged copy when they lie in the ranges of R134, the MPE bounds
strictly increase and a linearity table meets the three conditions of R8, and answers the checksum of the whole copy
(the places beyond the count of a list are not read: log 47; zero tracking is on for a byte of 1 and off for 0, and any
other byte of it reaches the session and is refused: logs 15 and 16); the calibration requests begin a capture with the
timeout that stands; each makes its checks in order, and each that reaches the session sets its idle count to 0,
whatever its answer (R138, R139). -/
def Obligations.StagedAndCalibrated : Prop :=
  (∀ (p : List Byte) (f : StageFields) (s : State), parseStage p = some f → s.ready →
    ((∀ sess, s.cap.slot ≠ .adjustment sess) →
      exec (.stageParameter p) s = .next (answered 0xD1 { status := .notInSession, body := .none } [] s)) ∧
    (∀ sess, s.cap.slot = .adjustment sess →
      let touched := s.setCap { s.cap with slot := .adjustment { sess with idle := 0 } }
      let staged := fun (c : MetroConfig) => exec (.stageParameter p) s = .next (answered 0xD1
        { status := .ok, body := .staged (configChecksum c) } []
        (s.setCap { s.cap with slot := .adjustment { sess with staged := c, idle := 0 } }))
      let bad :=
        exec (.stageParameter p) s = .next (answered 0xD1 { status := .badRequest, body := .none } [] touched)
      (sess.calibration ≠ none →
        exec (.stageParameter p) s = .next (answered 0xD1 { status := .busy, body := .none } [] touched)) ∧
      (sess.calibration = none →
        (applyStage sess.staged f = none → bad) ∧ (∀ c, applyStage sess.staged f = some c → staged c) ∧
        (∀ maxKg eKg, f = .scale maxKg eKg →
          if 20000 ≤ maxKg ∧ maxKg ≤ 200000 ∧ (eKg = 5 ∨ eKg = 10 ∨ eKg = 20 ∨ eKg = 50) then
            staged { sess.staged with maxKg := maxKg, eKg := eKg }
          else bad) ∧
        (∀ w zt code, f = .window w zt code →
          if 10 ≤ w ∧ w ≤ 50 ∧ zt ≤ 1 ∧ code ≤ 3 then
            staged { sess.staged with window := w, zeroTracking := decide (zt = 1), warmupCode := code }
          else bad) ∧
        (∀ (ch deck : Nat) (zero : Int) (gain : Nat), f = .channel ch deck zero gain →
          (ch = 0 ∨ 16 < ch ∨ 4 < deck ∨ gain = 0 ∨ 16777215 < gain → bad) ∧
          (∀ (i : Chan) (d : Option Deck), ch = i.val + 1 →
            (deck = 0 ∧ d = none ∨ ∃ k : Deck, deck = k.val + 1 ∧ d = some k) →
            1 ≤ gain → gain ≤ 16777215 → -8388608 ≤ zero → zero ≤ 8388607 →
              let x : ChannelParams := { deck := d, zero := zero, gain := gain }
              staged { sess.staged with channels := sess.staged.channels.set i x })) ∧
        (∀ deck (points : List LinPoint) count, f = .linearity deck points count →
          let good := count ≤ 4 ∧ points.Pairwise (fun a b => a.load < b.load) ∧
            ∀ q ∈ points, 0 < q.load ∧ 50 * q.correction.natAbs ≤ q.load
          (deck = 0 ∨ 4 < deck ∨ ¬good → bad) ∧
          (∀ d : Deck, deck = d.val + 1 → good →
            staged { sess.staged with linearity := sess.staged.linearity.set d points })) ∧
        (∀ number (segments : List (Nat × Nat)) count offset, f = .profile number segments count offset →
          let good := 1 ≤ count ∧ count ≤ 8 ∧ (∀ x ∈ segments, x.1 ≤ 15 ∧ x.2 ≤ 31) ∧ -8 ≤ offset ∧ offset ≤ 7
          let x : Profile := { segments := segments, offset := offset }
          (number ≠ 1 ∧ number ≠ 2 ∨ ¬good → bad) ∧
          (number = 1 → good → staged { sess.staged with profile1 := x }) ∧
          (number = 2 → good → staged { sess.staged with profile2 := x })) ∧
        (∀ (bands : List (Nat × Nat)) count, f = .mpe bands count →
          let good := 1 ≤ count ∧ count ≤ 4 ∧ bands.Pairwise (fun a b => a.1 < b.1) ∧
            ∀ x ∈ bands, 1 ≤ x.1 ∧ x.1 ≤ 10000 ∧ x.2 ≤ 63
          (¬good → bad) ∧ (good → staged { sess.staged with mpe := bands })) ∧
        (∀ interval (minima : List Nat), f = .audit interval minima →
          let good := 1 ≤ interval ∧ interval ≤ 730 ∧ ∀ m ∈ minima, m ≤ 200000
          (¬good → bad) ∧
          (∀ x : Bank Nat 4, (∀ d : Deck, x.get d = minima.getD d.val 0) → good →
            staged { sess.staged with auditInterval := interval, minTestLoad := x }))))) ∧
  (∀ (i : Instr) (p : List Byte) (code : Byte) (kind : CalKind) (deck load : Nat) (s : State), s.ready →
    (i = .calibrateZero p ∧ code = 0xD2 ∧ kind = .zero ∧ parseNat 1 p = some deck ∧ load = 1 ∨
      i = .calibrateSpan p ∧ code = 0xD3 ∧ kind = .span ∧ parseDeckLoad p = some (deck, load) ∨
      i = .calibrateLinearityPoint p ∧ code = 0xD4 ∧ kind = .linearity ∧ parseDeckLoad p = some (deck, load)) →
    ((∀ sess, s.cap.slot ≠ .adjustment sess) →
      exec i s = .next (answered code { status := .notInSession, body := .none } [] s)) ∧
    (∀ sess, s.cap.slot = .adjustment sess →
      let touched := s.setCap { s.cap with slot := .adjustment { sess with idle := 0 } }
      let refusedWith := fun st : Status => exec i s = .next (answered code { status := st, body := .none } [] touched)
      (sess.calibration ≠ none → refusedWith .busy) ∧
      (sess.calibration = none →
        (deck = 0 ∨ 4 < deck ∨ load = 0 ∨ 200000 < load → refusedWith .badRequest) ∧
        (∀ d : Deck, deck = d.val + 1 → 1 ≤ load → load ≤ 200000 →
          let chans := allChans.filter fun j => sess.staged.assign j = some d
          (¬(2 ≤ chans.length ∧ chans.length ≤ 8) → refusedWith .badRequest) ∧
          (2 ≤ chans.length ∧ chans.length ≤ 8 →
            (s.acq.scale ≠ .run ∨ s.metro.valid = false → refusedWith .notReady) ∧
            (s.acq.scale = .run → s.metro.valid = true →
              ((∃ j ∈ chans, (s.acq.channels.get j).health = .excluded ∨ (s.acq.channels.get j).health = .recovering) →
                refusedWith .channelExcluded) ∧
              ((∀ j ∈ chans, (s.acq.channels.get j).health = .good ∨ (s.acq.channels.get j).health = .watch) →
                let begun : Calibration :=
                  { kind := kind, deck := d, load := load, limit := s.cap.timeout * 50, count := 0, window := [] }
                exec i s = .next (answered code { status := .accepted, body := .none } []
                  (s.setCap { s.cap with
                    slot := .adjustment { sess with idle := 0, calibration := some begun } })))))))))

/-- What a calibration capture makes of its window. Calibrate Zero: each channel's zero count becomes its mean channel
value (R140). Calibrate Span: S and the target are formed exactly; outside 0.8 to 1.25, or with a new gain out of
range, the outcome is RANGE and nothing changes, otherwise every gain is replaced and the deck's table emptied (R141).
Calibrate Linearity Point: RANGE, the replacement of the nearest point within 1%, TABLE_FULL or the insertion in
ascending order (R142). At the sample event that decides a capture in flight: a VALUE result adds its entry to the
window; a stable window ends it with that outcome, a channel of its deck that is out with CHANNEL_EXCLUDED, either
with one CALIBRATION_RESULT (R139) behind the notices of the other blocks and before a last LAMP_STATE (logs 12 and
14); without either its count rises by one, and at its limit the outcome is CAL_UNSTABLE; at the sample event of the
idle limit the session is aborted after it (R145, log 24). -/
def Obligations.CalibrationResults : Prop :=
  (∀ (c : MetroConfig) (cal : Calibration),
    let chans := allChans.filter fun i => decide ((c.channels.get i).deck = some cal.deck)
    let mean := fun i : Chan =>
      roundDiv (cal.window.map fun w => ((w.values.filter fun v => decide (v.1 = i)).map Prod.snd).sum).sum
        cal.window.length
    let zeroed := fun b : Bank ChannelParams 16 => ∀ i, b.get i =
      if (c.channels.get i).deck = some cal.deck then { c.channels.get i with zero := mean i } else c.channels.get i
    let total := (chans.map fun i => (mean i - (c.channels.get i).zero) * ((c.channels.get i).gain : Int)).sum
    let target : Nat := 10 * cal.load * 1048576
    let factor := roundDiv ((1000 * target : Nat) : Int) total.toNat
    let newGain := fun i : Chan => roundDiv (((c.channels.get i).gain * target : Nat) : Int) total.toNat
    let inRange := 0 < total ∧ 4 * total ≤ 5 * (target : Int) ∧ 4 * (target : Int) ≤ 5 * total ∧
      ∀ i ∈ chans, 1 ≤ newGain i ∧ newGain i ≤ 16777215
    let table := c.linearity.get cal.deck
    let x := roundDiv (cal.window.map CalEntry.rawSum).sum cal.window.length
    let corr : Int := 10 * cal.load - x
    let point : LinPoint := { load := x.toNat, correction := corr }
    let range := x ≤ 0 ∨ x < 50 * (corr.natAbs : Int)
    let near := fun q : LinPoint => 100 * (x - q.load).natAbs ≤ q.load
    let withTable := fun t : List LinPoint => { c with linearity := c.linearity.set cal.deck t }
    (cal.kind = .zero →
      ∃ b, zeroed b ∧ calResult c cal = (.zeroOk (chans.map fun i => (i, mean i)), { c with channels := b })) ∧
    (cal.kind = .span →
      (¬inRange → calResult c cal = (.spanRange (if 0 < total then some (total, factor) else none), c)) ∧
      (inRange →
        ∃ b : Bank ChannelParams 16,
          (∀ i, b.get i =
            if (c.channels.get i).deck = some cal.deck then { c.channels.get i with gain := (newGain i).toNat }
            else c.channels.get i) ∧
          calResult c cal =
            (.spanOk total factor (chans.map fun i => (i, (newGain i).toNat)),
              { withTable [] with channels := b }))) ∧
    (cal.kind = .linearity → table.Pairwise (fun q w => q.load < w.load) →
      (range → calResult c cal = (.linearityRange x corr table, c)) ∧
      (¬range → ∀ q ∈ table, near q →
        (∀ w ∈ table, near w →
          (x - q.load).natAbs < (x - w.load).natAbs ∨
            (x - q.load).natAbs = (x - w.load).natAbs ∧ q.load ≤ w.load) →
          let t := table.map fun w => if w = q then point else w
          calResult c cal = (.linearityOk x corr t, withTable t)) ∧
      (¬range → (∀ q ∈ table, ¬near q) →
        (4 ≤ table.length → calResult c cal = (.tableFull x corr table, c)) ∧
        (table.length < 4 →
          ∃ pre post, table = pre ++ post ∧ (∀ q ∈ pre, (q.load : Int) < x) ∧ (∀ q ∈ post, x < (q.load : Int)) ∧
            calResult c cal = (.linearityOk x corr (pre ++ point :: post), withTable (pre ++ point :: post)))))) ∧
  (∀ (inp : SampleInput) (sess : AdjustSession) (cal0 : Calibration) (s : State), s.mainSupply = true →
    let a := acquire inp (Ev.start s)
    let r := formedResult a.ev.st a.value
    let e := serveMap inp.storeOk r (serveZero r a.ev)
    let u := e.st
    let c := sess.staged
    let cal := cal0.push u c a.value.get r.isValue
    let stable := stableUnder c.window (band c.profile1 c.q a.ev.st.zm.clock) (cal.window.map CalEntry.rawSum)
    let now := statusReasons u.metro.valid false u.store u.cal.value
    let ended := fun (staged : MetroConfig) (o : CalOutcome) =>
      (sess.idle + 1 < 90000 →
        exec (.sampleEvent inp) s = .next (happened (e.notes ++ [.calibrationResult cal.kind cal.deck o]) s
          (u.setCap { u.cap with
            slot := .adjustment { staged := staged, idle := sess.idle + 1, calibration := none } }))) ∧
      (90000 ≤ sess.idle + 1 →
        exec (.sampleEvent inp) s = .next (happened
          (e.notes ++ [.calibrationResult cal.kind cal.deck o, .adjustAborted .idle] ++
            (if now = u.metro.status then [] else [.metrologyStatus now u.metro.status])) s
          ((u.setCap { u.cap with slot := .free }).setMetro { u.metro with status := now })))
    u.cap.slot = .adjustment sess → sess.calibration = some cal0 → r.isValue = true →
      cal.kind = cal0.kind ∧ cal.deck = cal0.deck ∧ cal.load = cal0.load ∧
      (∀ x sub, rawSum c (fun i => (u.acq.channels.get i).health) a.value.get cal0.deck = some (x, sub) →
        let entry : CalEntry := { values := (c.deckChans cal0.deck).map fun i => (i, a.value.get i), rawSum := x }
        cal.window = (cal0.window ++ [entry]).drop (cal0.window.length + 1 - c.window)) ∧
      (stable = true → ended (calResult c cal).2 (calResult c cal).1) ∧
      (stable = false →
        (∃ i, (c.channels.get i).deck = some cal0.deck ∧
          ((u.acq.channels.get i).health = .excluded ∨ (u.acq.channels.get i).health = .recovering)) →
          ended c .channelExcluded) ∧
      (stable = false →
        (∀ i, (c.channels.get i).deck = some cal0.deck →
          (u.acq.channels.get i).health = .good ∨ (u.acq.channels.get i).health = .watch) →
          (cal0.limit ≤ cal0.count + 1 → ended c .calUnstable) ∧
          (cal0.count + 1 < cal0.limit → sess.idle + 1 < 90000 →
            exec (.sampleEvent inp) s = .next (happened e.notes s
              (u.setCap { u.cap with
                slot := .adjustment
                  { sess with
                    idle := sess.idle + 1, calibration := some { cal with count := cal0.count + 1 } } })))))

/-- A configuration is complete when a deck is active, named by 2 to 8 channels, every named deck is active, the
active decks have no gap before them, and Max is 500 to 10,000 divisions; the first condition that fails is named
(R134, R143). Commit Adjustment makes its checks in order; a write that fails latches STORE_FAULT and leaves the
session open; a write that verifies stores the staged copy, its checksum, the raised counter and a trail entry with
the groups changed, ends the session, and brings the zero to PENDING and the map to UNCERTAIN, with its notices in
their order (R43, R50, R68, R143, R144, R146; occupancy while UNCERTAIN already: log 43); the exit lamp turns RED
where occupancy became EMPTY (R109). -/
def Obligations.CommitAdjustmentActs : Prop :=
  (∀ c : MetroConfig,
    let named := fun d : Deck => (allChans.filter fun i => decide ((c.channels.get i).deck = some d)).length
    let active := fun d : Deck => 2 ≤ named d ∧ named d ≤ 8
    let anyActive := ∃ d, active d
    let allActive := ∀ d, named d ≠ 0 → active d
    let noGap := ∀ d k : Deck, active d → k < d → active k
    let divided := c.eKg ≠ 0 ∧ c.maxKg % c.eKg = 0 ∧ 500 ≤ c.maxKg / c.eKg ∧ c.maxKg / c.eKg ≤ 10000
    (c.incomplete = none ↔ anyActive ∧ allActive ∧ noGap ∧ divided) ∧
    (c.incomplete = some .noActiveDeck ↔ ¬anyActive) ∧
    (c.incomplete = some .namedDeckNotActive ↔ anyActive ∧ ¬allActive) ∧
    (c.incomplete = some .deckGap ↔ anyActive ∧ allActive ∧ ¬noGap) ∧
    (c.incomplete = some .maxDivision ↔ anyActive ∧ allActive ∧ noGap ∧ ¬divided)) ∧
  (∀ (ok : Bool) (s : State), s.ready →
    let refusedWith := fun (st : Status) (b : Body) =>
      exec (.commitAdjustment [] ok) s = .next (answered 0xD5 { status := st, body := b } [] s)
    ((∀ sess, s.cap.slot ≠ .adjustment sess) → refusedWith .notInSession .none) ∧
    (∀ sess, s.cap.slot = .adjustment sess →
      (sess.calibration ≠ none → refusedWith .busy .none) ∧
      (sess.calibration = none → s.tm.storeFault = true → refusedWith .storeFault .none) ∧
      (sess.calibration = none → s.tm.storeFault = false →
        (∀ c, sess.staged.incomplete = some c → refusedWith .configIncomplete (.incomplete c)) ∧
        (sess.staged.incomplete = none →
          (65535 ≤ s.store.eventCounter ∨ s.store.trailExhausted = true → refusedWith .counterExhausted .none) ∧
          (s.store.eventCounter < 65535 → s.store.trailExhausted = false →
            (ok = false →
              exec (.commitAdjustment [] ok) s = .next (answered 0xD5 { status := .storeFault, body := .none }
                [.storeFault .commit] (s.setTm { s.tm with storeFault := true }))) ∧
            (ok = true →
              ∃ (t : State) (groups : List ParamGroup),
                exec (.commitAdjustment [] ok) s = .next (executed 0xD5
                  { status := .ok, body := .committed (s.store.eventCounter + 1) (configChecksum sess.staged) }
                  ((if t.metro.status = s.metro.status then [] else [.metrologyStatus t.metro.status s.metro.status]) ++
                    (if s.zm.zeroState = .set then [.zeroState .pending []] else []) ++
                    (if s.axle.certain = true then [.axleInconsistent .configuration none] else []) ++
                    (if s.axle.certain = true ∨ t.axle.occupancy ≠ s.axle.occupancy then
                      [.occupancy t.axle.occupancy false s.axle.occupancy] else [])) s t) ∧
                t.link = s.link ∧
                t.store.config = sess.staged ∧ t.store.checksum = configChecksum sess.staged ∧
                t.store.eventCounter = s.store.eventCounter + 1 ∧
                (let old := s.store.config
                 let new := sess.staged
                 (.channel ∈ groups ↔ new.channels ≠ old.channels) ∧
                 (.linearity ∈ groups ↔ new.linearity ≠ old.linearity) ∧
                 (.scale ∈ groups ↔ new.maxKg ≠ old.maxKg ∨ new.eKg ≠ old.eKg) ∧
                 (.profile ∈ groups ↔ new.profile1 ≠ old.profile1 ∨ new.profile2 ≠ old.profile2) ∧
                 (.window ∈ groups ↔
                   new.window ≠ old.window ∨ new.zeroTracking ≠ old.zeroTracking ∨ new.warmupCode ≠ old.warmupCode) ∧
                 (.mpe ∈ groups ↔ new.mpe ≠ old.mpe) ∧
                 (.audit ∈ groups ↔ new.auditInterval ≠ old.auditInterval ∨ new.minTestLoad ≠ old.minTestLoad)) ∧
                t.store.trail = s.store.trail.drop (s.store.trail.length - 47) ++
                  [{ seq := s.store.nextSeq
                     kind := .adjustment (s.store.eventCounter + 1) s.store.checksum (configChecksum sess.staged) groups
                       s.cal.value }] ∧
                t.store.nextSeq = (if s.store.nextSeq < 4294967295 then s.store.nextSeq + 1 else s.store.nextSeq) ∧
                t.store.entries = s.store.entries ∧ t.store.tares = s.store.tares ∧
                t.store.tickets = s.store.tickets ∧ t.store.audits = s.store.audits ∧
                t.cap.slot = .free ∧ t.cap.exit = exitByMap s t ∧ t.metro.valid = true ∧
                t.metro.status = statusReasons true false t.store s.cal.value ∧
                t.zm.zeroState = .pending ∧
                (∀ d, t.zm.offset.get d = 0 ∧ t.zm.initial.get d = 0 ∧ t.zm.halt.get d = false) ∧
                t.zm.trackCount = 0 ∧ t.zm.rangeReported = false ∧ t.zm.window = [] ∧ t.zm.clock = 0 ∧
                t.axle.certain = false ∧ (∀ i, (t.axle.lines.get i).pairing = .idle) ∧
                t.axle.hiddenCount = 0 ∧ t.axle.recoveryCount = 0 ∧
                t.axle.occupancy = occupancyOf t.axle s.zm.latest sess.staged.eHg ∧
                (s.axle.certain = true → t.axle.cause = .configuration ∧ (∀ d, t.axle.decks.get d = []) ∧
                  t.axle.entered = 0 ∧ t.axle.exitedCount = 0 ∧ t.axle.exited = []) ∧
                t.acq = s.acq ∧ t.site = s.site ∧ t.cal = s.cal ∧ t.tm = s.tm))))))
/-! ## Audits, and the counts of timed work -/

/-- Open Audit and Audit Step make their checks in order; an accepted step is in flight with the timeout that stands;
every Audit Step that reaches the session sets its idle count to 0. A kind byte above 2, a target byte above 4 or a
load above 200,000 reaches it, by the model's reading: NOT_IN_SESSION and BUSY come before its BAD_REQUEST (log 16).
The index of a LOAD and of a ZERO is read over (log 17). Abandon Audit discards the session, with its notice, a last
LAMP_STATE after it (R149 to R151, R157; log 14). -/
def Obligations.AuditRequests : Prop :=
  ∀ s : State, s.ready →
    let c := s.store.config
    let openRefused := fun st : Status =>
      exec (.openAudit []) s = .next (answered 0xE0 { status := st, body := .none } [] s)
    ((∃ op, s.cap.slot = .capture op) → openRefused .busy) ∧
    ((∃ x, s.cap.slot = .adjustment x) ∨ (∃ x, s.cap.slot = .audit x) → openRefused .sessionOpen) ∧
    (s.cap.slot = .free →
      (s.metro.valid = false → openRefused .notReady) ∧
      (s.metro.valid = true → s.cal.value = none → openRefused .calendarUnset) ∧
      (s.metro.valid = true → s.cal.value ≠ none → (s.acq.scale ≠ .run ∨ s.zm.zeroState ≠ .set) →
        openRefused .notReady) ∧
      (s.metro.valid = true → s.cal.value ≠ none → s.acq.scale = .run → s.zm.zeroState = .set →
        let opened : AuditSession := { number := s.store.auditCounter + 1, steps := [], idle := 0, flight := none }
        exec (.openAudit []) s = .next (executed 0xE0
          { status := .ok
            body := .auditOpened (s.store.auditCounter + 1) s.store.eventCounter s.store.checksum
              (c.activeDecks.map fun d => (d, c.minTestLoad.get d)) } [] s
          (s.setCap { s.cap with slot := .audit opened })))) ∧
    ((∀ x, s.cap.slot ≠ .audit x) →
      exec (.abandonAudit []) s = .next (answered 0xE3 { status := .notInSession, body := .none } [] s)) ∧
    (∀ x, s.cap.slot = .audit x →
      exec (.abandonAudit []) s = .next (executed 0xE3 { status := .ok, body := .none } [.auditAbandoned .request] s
        (s.setCap { s.cap with slot := .free }))) ∧
    (∀ (p : List Byte) (f : StepFields), parseStep p = some f →
      ((∀ x, s.cap.slot ≠ .audit x) →
        exec (.auditStep p) s = .next (answered 0xE1 { status := .notInSession, body := .none } [] s)) ∧
      (∀ x, s.cap.slot = .audit x →
        let refusedWith := fun st : Status =>
          exec (.auditStep p) s = .next (answered 0xE1 { status := st, body := .none } []
            (s.setCap { s.cap with slot := .audit { x with idle := 0 } }))
        (x.flight ≠ none → refusedWith .busy) ∧
        (x.flight = none →
          (2 < f.kind ∨ 4 < f.target → refusedWith .badRequest) ∧
          (∀ (k : StepKind) (t : StepTarget), stepKindOf f.kind = some k → stepTargetOf f.target = some t →
            let well := (∀ d, t = .deck d → d ∈ c.activeDecks) ∧ (k ≠ .zero → 1 ≤ f.load ∧ f.load ≤ 200000) ∧
              (k = .zero → f.load = 0) ∧
              (k = .again → ∃ y, x.steps.find? (fun z => z.index == f.refIndex) = some y ∧ y.kind = .load ∧
                y.target = t ∧ y.load = f.load)
            let healthy := ∀ d ∈ targetDecks c t, ∀ i : Chan, c.assign i = some d →
              (s.acq.channels.get i).health = .good ∨ (s.acq.channels.get i).health = .watch
            (¬well → refusedWith .badRequest) ∧
            (well → 24 ≤ x.steps.length → refusedWith .stepLimit) ∧
            (well → x.steps.length < 24 → ¬healthy → refusedWith .channelExcluded) ∧
            (well → x.steps.length < 24 → healthy →
              let flight : StepFlight :=
                { kind := k, target := t, load := f.load, refIndex := f.refIndex, count := 0
                  limit := s.cap.timeout * 50 }
              exec (.auditStep p) s = .next (answered 0xE1
                { status := .accepted, body := .stepIndex (x.steps.length + 1) } []
                (s.setCap { s.cap with slot := .audit { x with idle := 0, flight := some flight } })))))))

/-- The sample event at which a step in flight is stable under profile 1 takes its capture and judges it: the
indication is the capture mean of the target deck, or the captured bridge total; the MPE comes from the first band
whose bound reaches the load, the last when none does, and for ZERO from the first; PASS needs an error within the
MPE, for REPEAT also a difference within it, and no SUBSTITUTED deck of the target. The step record is appended, the
step is no longer in flight and AUDIT_STEP_DONE carries the record, behind the notices of the other blocks and before
a last LAMP_STATE (logs 12 and 14); the range checks of R18 are not applied (R152 to R154). At the sample event of the
idle limit the session is abandoned after it (R150, log 24). -/
def Obligations.AuditStepJudged : Prop :=
  ∀ (inp : SampleInput) (x : AuditSession) (f : StepFlight) (s : State), s.mainSupply = true →
    let a := acquire inp (Ev.start s)
    let r := formedResult a.ev.st a.value
    let e := serveMap inp.storeOk r (serveZero r a.ev)
    let u := e.st
    let c := s.store.config
    let mean := fun d : Deck => windowMean u.zm.window d
    s.cap.slot = .audit x → x.flight = some f → u.zm.decisions.profile1 = true → r.isValue = true →
      ∃ y : StepRecord,
        (x.idle + 1 < 90000 →
          exec (.sampleEvent inp) s = .next (happened (e.notes ++ [.auditStepDone y]) s
            (u.setCap { u.cap with
              slot := .audit { x with steps := x.steps ++ [y], flight := none, idle := x.idle + 1 } }))) ∧
        (90000 ≤ x.idle + 1 →
          exec (.sampleEvent inp) s = .next (happened (e.notes ++ [.auditStepDone y, .auditAbandoned .idle]) s
            (u.setCap { u.cap with slot := .free }))) ∧
        (let err := y.indication - 10 * (f.load : Int)
         let ref := x.steps.find? fun z => z.index == f.refIndex
         y.index = x.steps.length + 1 ∧ y.kind = f.kind ∧ y.target = f.target ∧ y.load = f.load ∧
         y.refIndex = (if f.kind = .again then some f.refIndex else none) ∧
         (f.target = .bridge → y.indication = (c.activeDecks.map mean).sum) ∧
         (∀ d, f.target = .deck d → y.indication = mean d) ∧
         y.reportedError = roundDiv (err * 10) c.eHg ∧
         y.mpe = y.mpeQuarters * c.q ∧
         (f.kind = .zero → ∀ b rest, c.mpe = b :: rest → y.mpeQuarters = b.2) ∧
         (f.kind ≠ .zero →
           (∀ pre b post, c.mpe = pre ++ b :: post → (∀ z ∈ pre, z.1 * c.eKg < f.load) → f.load ≤ b.1 * c.eKg →
             y.mpeQuarters = b.2) ∧
           (∀ b, (∀ z ∈ c.mpe, z.1 * c.eKg < f.load) → c.mpe.getLast? = some b → y.mpeQuarters = b.2)) ∧
         y.difference = (if f.kind = .again then ref.map fun z => y.indication - z.indication else none) ∧
         (y.substituted = true ↔
           ∃ d ∈ c.activeDecks, (f.target = .bridge ∨ f.target = .deck d) ∧
             ∃ w ∈ u.zm.window, ∃ m ∈ w.decks, m.deck = d ∧ m.substituted = true) ∧
         (y.passed = true ↔
           y.substituted = false ∧ err.natAbs ≤ y.mpe ∧
             (f.kind = .again → ∃ z, ref = some z ∧ (y.indication - z.indication).natAbs ≤ y.mpe)) ∧
         y.stamp = s.cal.value)

/-- Close Audit makes its checks in order; a failed write latches STORE_FAULT and leaves the session open; a write that
verifies adds the record that R155 judges, with each reason of a FAIL and the decks that COVERAGE names, and R156 lays
down, due the audit interval after the normalized date of a PASS; it raises the audit counter, adds a trail entry and
frees the slot; the status is recomputed, and AUDIT_CLOSED, METROLOGY_STATUS and LAMP_STATE are sent in this order. -/
def Obligations.CloseAuditActs : Prop :=
  ∀ (ok : Bool) (s : State), s.ready →
    let normal := fun d : Date =>
      let length := monthLength d.year d.month
      if d.day ≤ length then d
      else if d.month < 12 then { d with month := d.month + 1, day := d.day - length }
      else ({ year := d.year + 1, month := 1, day := d.day - length } : Date)
    let dayAfter := fun d : Date =>
      if d.day < monthLength d.year d.month then { d with day := d.day + 1 }
      else if d.month < 12 then { d with month := d.month + 1, day := 1 }
      else ({ year := d.year + 1, month := 1, day := 1 } : Date)
    let refusedWith := fun st : Status =>
      exec (.closeAudit [] ok) s = .next (answered 0xE2 { status := st, body := .none } [] s)
    ((∀ x, s.cap.slot ≠ .audit x) → refusedWith .notInSession) ∧
    (∀ x, s.cap.slot = .audit x →
      (x.flight ≠ none → refusedWith .busy) ∧
      (x.flight = none → s.tm.storeFault = true → refusedWith .storeFault) ∧
      (x.flight = none → s.tm.storeFault = false → s.cal.value = none → refusedWith .calendarUnset) ∧
      (∀ now, x.flight = none → s.tm.storeFault = false → s.cal.value = some now →
        (4294967295 ≤ s.store.auditCounter ∨ s.store.trailExhausted = true → refusedWith .counterExhausted) ∧
        (s.store.auditCounter < 4294967295 → s.store.trailExhausted = false →
          (ok = false →
            exec (.closeAudit [] ok) s = .next (answered 0xE2 { status := .storeFault, body := .none }
              [.storeFault .auditClose] (s.setTm { s.tm with storeFault := true }))) ∧
          (ok = true →
            ∃ (r : AuditRecord) (t : State),
              exec (.closeAudit [] ok) s = .next (executed 0xE2
                { status := .ok, body := .auditClosed r.number r.passed r.reasons r.due }
                ([.auditClosed r.number r.passed r.reasons r.due] ++
                  (if t.metro.status = s.metro.status then [] else [.metrologyStatus t.metro.status s.metro.status]))
                s t) ∧
              t.link = s.link ∧ r.number = s.store.auditCounter + 1 ∧ r.date = now.date ∧
              r.counter = s.store.eventCounter ∧ r.checksum = s.store.checksum ∧ r.steps = x.steps ∧
              (r.passed = true ↔
                (∀ y ∈ x.steps, y.passed = true) ∧
                (∀ d ∈ s.store.config.activeDecks, ∃ y ∈ x.steps, y.kind = .load ∧ y.target = .deck d ∧
                  y.passed = true ∧ s.store.config.minTestLoad.get d ≤ y.load) ∧
                (∃ y, x.steps.getLast? = some y ∧ y.kind = .zero ∧ y.target = .bridge ∧ y.passed = true)) ∧
              (r.reasons.stepFailed = true ↔ ∃ y ∈ x.steps, y.passed = false) ∧
              r.reasons.coverage.Pairwise (fun a b => a < b) ∧
              (∀ d, d ∈ r.reasons.coverage ↔ d ∈ s.store.config.activeDecks ∧ ¬∃ y ∈ x.steps, y.kind = .load ∧
                y.target = .deck d ∧ y.passed = true ∧ s.store.config.minTestLoad.get d ≤ y.load) ∧
              (r.reasons.noFinalZero = true ↔
                ¬∃ y, x.steps.getLast? = some y ∧ y.kind = .zero ∧ y.target = .bridge ∧ y.passed = true) ∧
              r.due =
                (if r.passed = true then some (dayAfter^[s.store.config.auditInterval] (normal now.date)) else none) ∧
              t.store.audits = s.store.audits.drop (s.store.audits.length - 7) ++ [r] ∧
              t.store.auditCounter = s.store.auditCounter + 1 ∧
              t.store.trail = s.store.trail.drop (s.store.trail.length - 47) ++
                [{ seq := s.store.nextSeq, kind := .auditClosed r.number r.passed }] ∧
              t.store.nextSeq = (if s.store.nextSeq < 4294967295 then s.store.nextSeq + 1 else s.store.nextSeq) ∧
              t.store.entries = s.store.entries ∧ t.store.tares = s.store.tares ∧
              t.store.tickets = s.store.tickets ∧ t.store.config = s.store.config ∧
              t.store.eventCounter = s.store.eventCounter ∧ t.cap.slot = .free ∧
              t.metro.valid = s.metro.valid ∧
              t.metro.status = statusReasons s.metro.valid false t.store s.cal.value ∧
              t.acq = s.acq ∧ t.zm = s.zm ∧ t.axle = s.axle ∧ t.site = s.site ∧ t.tm = s.tm ∧ t.cal = s.cal))))

/-- A sample event at which nothing is taken raises the count of a WHOLE-mode or composite operation, of a calibration
capture or of an audit step in flight by one, and every sample event the idle count of a session; below the limits
nothing else of the work changes, but for the state of an operation that the map moves. The sample event at which the
count of an operation, a calibration capture or an audit step reaches its limit with nothing taken is the row
UNSTABLE_TIMEOUT, CAL_UNSTABLE or STEP_FAILED_UNSTABLE: the operation fails, whatever its kind, with CAPTURE_FAILED
and that reason, the calibration capture or the step ends with its notice of that outcome, no record changes (R103,
R104, R139, R152). The one with which the idle count of a session reaches 90,000 is the row ADJUST_IDLE_ABORT or
AUDIT_IDLE_ABANDON: the session is discarded and the slot FREE, and only the end of an adjustment session changes the
metrology status (R145, R150, R157). Each row has the whole effect of SAMPLE_EVENT (log 4); ADJUST_ABORTED with
METROLOGY_STATUS, or AUDIT_ABANDONED, tells the cause IDLE. These notices stand behind those of the blocks before and
before the SCALE_STATE of a warm-up that ends (logs 12 and 14). -/
def Obligations.TimedWorkRows : Prop :=
  ∀ (inp : SampleInput) (s : State), s.mainSupply = true →
    let a := acquire inp (Ev.start s)
    let r := formedResult a.ev.st a.value
    let decided := (serveZero r a.ev).st.zm.decisions
    let before := (serveMap inp.storeOk r (serveZero r a.ev)).notes
    let u := (serveMap inp.storeOk r (serveZero r a.ev)).st
    let told := fun (t : State) (ns : List Notice) => s.raisedFirst (before ++ ns) (· = .scaleState .run .warmup) t
    let kept := fun t : State => t.store = s.store ∧ t.site = s.site ∧ t.cal = s.cal ∧ t.tm.storeFault = s.tm.storeFault
    (∀ op, s.cap.slot = .capture op →
      (op.mode = .whole ∧ r.isDeckDown = false ∧ decided.forProfile op.profile = false ∧
          op.timeoutLimit = op.timeoutCount + 1) ∨ finds .unstableTimeout inp s = true →
        ∃ t, exec (.unstableTimeout inp) s = .next t ∧ exec (.sampleEvent inp) s = .next t ∧
          t.cap.slot = .free ∧ t.tm.reserved = 0 ∧ kept t ∧ t.metro = s.metro ∧
          told t [.captureFailed op.number op.request.kind .unstableTimeout op.positions]) ∧
    (∀ op, s.cap.slot = .capture op → op.mode = .whole → r.isDeckDown = false →
      decided.forProfile op.profile = false → op.timeoutCount + 1 < op.timeoutLimit →
        ∃ t x, exec (.sampleEvent inp) s = .next t ∧ told t [] ∧ kept t ∧ t.tm = s.tm ∧
          t.cap.slot = .capture { op with state := x, timeoutCount := op.timeoutCount + 1 }) ∧
    (∀ op, u.cap.slot = .capture op → r.isDeckDown = false →
      op.state ≠ .settling ∨ u.zm.decisions.forProfile op.profile = false → op.timeoutCount + 1 < op.timeoutLimit →
        ∃ t, exec (.sampleEvent inp) s = .next t ∧ told t [] ∧
          t.cap.slot = .capture { op with timeoutCount := op.timeoutCount + 1 }) ∧
    (∀ sess cal, s.cap.slot = .adjustment sess → sess.calibration = some cal → r.isValue = false →
      1 ≤ sess.staged.window → deckHealthy a.ev.st sess.staged cal.deck = true → sess.idle + 1 < 90000 →
        let holds := fun (t : State) (x : Option Calibration) =>
          t.cap.slot = .adjustment { sess with calibration := x, idle := sess.idle + 1 } ∧ kept t ∧ t.tm = s.tm ∧
            t.metro = s.metro
        ∃ t, exec (.sampleEvent inp) s = .next t ∧
          (cal.count + 1 < cal.limit → holds t (some { cal with window := [], count := cal.count + 1 }) ∧ told t []) ∧
          (cal.limit = cal.count + 1 → exec (.calUnstable inp) s = .next t ∧ holds t none ∧
            told t [.calibrationResult cal.kind cal.deck .calUnstable])) ∧
    (∀ x f, s.cap.slot = .audit x → x.flight = some f → decided.profile1 = false → x.idle + 1 < 90000 →
        let holds := fun (t : State) (y : Option StepFlight) =>
          t.cap.slot = .audit { x with flight := y, idle := x.idle + 1 } ∧ kept t ∧ t.tm = s.tm ∧ t.metro = s.metro
        ∃ t, exec (.sampleEvent inp) s = .next t ∧
          (f.count + 1 < f.limit → holds t (some { f with count := f.count + 1 }) ∧ told t []) ∧
          (f.limit = f.count + 1 → exec (.stepFailedUnstable inp) s = .next t ∧ holds t none ∧
            told t [.stepFailedUnstable f.kind f.target f.load])) ∧
    (∀ sess, s.cap.slot = .adjustment sess →
      ∃ t, exec (.sampleEvent inp) s = .next t ∧ kept t ∧ t.tm = s.tm ∧
        (sess.idle + 1 < 90000 → t.metro = s.metro ∧
          ∃ sess1, t.cap.slot = .adjustment sess1 ∧ sess1.idle = sess.idle + 1) ∧
        (sess.idle + 1 = 90000 → exec (.adjustIdleAbort inp) s = .next t ∧ t.cap.slot = .free ∧
          t.metro = { s.metro with status := statusReasons s.metro.valid false s.store s.cal.value } ∧
          ∃ ended : List Notice, ended.length ≤ 1 ∧ (∀ n ∈ ended, ∃ k deck o, n = .calibrationResult k deck o) ∧
            told t (ended ++ [.adjustAborted .idle] ++
              if t.metro.status = s.metro.status then [] else [.metrologyStatus t.metro.status s.metro.status]))) ∧
    (∀ x, s.cap.slot = .audit x →
      ∃ t, exec (.sampleEvent inp) s = .next t ∧ kept t ∧ t.tm = s.tm ∧ t.metro = s.metro ∧
        (x.idle + 1 < 90000 → ∃ y, t.cap.slot = .audit y ∧ y.idle = x.idle + 1 ∧ y.number = x.number) ∧
        (x.idle + 1 = 90000 → exec (.auditIdleAbandon inp) s = .next t ∧ t.cap.slot = .free ∧
          ∃ ended : List Notice, ended.length ≤ 1 ∧
            (∀ n ∈ ended, (∃ y, n = .auditStepDone y) ∨ ∃ k target load, n = .stepFailedUnstable k target load) ∧
            told t (ended ++ [.auditAbandoned .idle])))
/-! ## The record store -/

/-- Read Transaction, List Transactions, Read Stored Tare, List Stored Tares and Fetch Ticket are answered with what
the record store holds and change nothing: a list gives its entries in their order from the starting value on, 16 at
most, with MORE when further ones follow (R122, R126, R131; the age of a tare is absent while the calendar is UNSET:
log 28; a starting identifier may hold any characters, and the order is that of the byte values: log 46). Cancel
Transaction, Delete Stored Tare and Release Ticket make their checks in order, the latched STORE_FAULT first; then they
remove their record with one Removal write, and a write that fails removes nothing, latches STORE_FAULT and is answered
with it (R112, R114, R121, R126, R131). -/
def Obligations.RecordStoreRequests : Prop :=
  (∀ (p : List Byte) (s : State), s.ready →
    (∀ n, parseNat 4 p = some n →
      (∀ x, s.store.entry n = some x →
        exec (.readTransaction p) s = .next (answered 0xC0 { status := .ok, body := .transaction x } [] s)) ∧
      ((∀ x ∈ s.store.entries, x.number ≠ n) →
        exec (.readTransaction p) s = .next (answered 0xC0 { status := .noSuchTransaction, body := .none } [] s)) ∧
      (∃ found : List OpenEntry,
        found.Perm (s.store.entries.filter fun x => decide (n ≤ x.number)) ∧
        found.Pairwise (fun a b => a.number ≤ b.number) ∧
        exec (.listTransactions p) s = .next (answered 0xC1
          { status := .ok
            body := .transactions s.store.entries.length
              ((found.take 16).map fun x =>
                { number := x.number, kind := x.kind, vehicle := x.vehicle
                  state := if x.state = .standing then .standing else .rework
                  stale := x.stale, gross := x.first.gross })
              (decide (16 < found.length)) } [] s))) ∧
    (∀ v, parseText p = some v →
      (∀ (i : Fin 128) (x : StoredTare), s.store.tares.get i = some x → x.vehicle = v →
        (∀ (j : Fin 128) (y : StoredTare), s.store.tares.get j = some y → y.vehicle = v → j = i) →
          let age := fun now : DateTime => (now.date.dayNumber : Int) - x.date.dayNumber
          exec (.readStoredTare p) s = .next (answered 0xC3
            { status := .ok
              body := .storedTare (i.val + 1) x (s.cal.value.map age)
                (match s.cal.value with
                  | none => some .tareUndated
                  | some now =>
                    if age now < 0 ∨ (s.site.ticket.tareValidity : Int) < age now then some .tareAged
                    else if x.counter ≠ s.store.eventCounter then some .tareCounter
                    else none) } [] s)) ∧
      ((∀ (j : Fin 128) (y : StoredTare), s.store.tares.get j = some y → y.vehicle ≠ v) →
        exec (.readStoredTare p) s = .next (answered 0xC3 { status := .noSuchEntry, body := .none } [] s)) ∧
      (∃ found : List StoredTare,
        let held := s.store.tares.cells.filterMap id
        let before := fun v w : Text => v.map BitVec.toNat < w.map BitVec.toNat
        found.Perm (held.filter fun x => decide (before v x.vehicle)) ∧
        found.Pairwise (fun a b => ¬before b.vehicle a.vehicle) ∧
        exec (.listStoredTares p) s = .next (answered 0xC4
          { status := .ok
            body := .storedTares held.length (found.take 16) (decide (16 < found.length)) } [] s))) ∧
    (s.store.tickets = [] →
      exec (.fetchTicket []) s = .next (answered 0xC6 { status := .empty, body := .none } [] s)) ∧
    (∀ x r, s.store.tickets = x :: r →
      exec (.fetchTicket []) s = .next (answered 0xC6 { status := .ok, body := .ticket x } [] s))) ∧
  (∀ (i : Instr) (code : Byte) (p : List Byte) (ok : Bool) (s : State), s.ready →
    let refusedWith := fun st : Status => exec i s = .next (answered code { status := st, body := .none } [] s)
    let removed := fun f : Store → Store =>
      exec i s = .next (
        if ok = true then answered code { status := .ok, body := .none } [] (s.setStore (f s.store))
        else answered code { status := .storeFault, body := .none } [.storeFault .removal]
          (s.setTm { s.tm with storeFault := true }))
    (∀ n, i = .cancelTransaction p ok → code = 0xC2 → parseNat 4 p = some n →
      let named := ∃ op, s.cap.slot = .capture op ∧ op.request.kind = .second ∧ op.request.txNumber = n
      (s.tm.storeFault = true → refusedWith .storeFault) ∧
      (s.tm.storeFault = false →
        ((∀ x ∈ s.store.entries, x.number ≠ n) → refusedWith .noSuchTransaction) ∧
        ((∃ x ∈ s.store.entries, x.number = n) → named → refusedWith .busy) ∧
        ((∃ x ∈ s.store.entries, x.number = n) → ¬named →
          removed fun st => { st with entries := st.entries.filter fun x => decide (x.number ≠ n) }))) ∧
    (∀ v, i = .deleteStoredTare p ok → code = 0xC5 → parseText p = some v →
      (s.tm.storeFault = true → refusedWith .storeFault) ∧
      (s.tm.storeFault = false →
        ((∀ (j : Fin 128) (y : StoredTare), s.store.tares.get j = some y → y.vehicle ≠ v) →
          refusedWith .noSuchEntry) ∧
        (∀ (j : Fin 128) (y : StoredTare), s.store.tares.get j = some y → y.vehicle = v →
          (∀ (k : Fin 128) (z : StoredTare), s.store.tares.get k = some z → z.vehicle = v → k = j) →
            removed fun st => { st with tares := st.tares.set j none }))) ∧
    (∀ n, i = .releaseTicket p ok → code = 0xC7 → parseNat 4 p = some n →
      (s.tm.storeFault = true → refusedWith .storeFault) ∧
      (s.tm.storeFault = false →
        (s.store.tickets = [] → refusedWith .empty) ∧
        (∀ x r, s.store.tickets = x :: r →
          (x.number ≠ n → refusedWith .badRequest) ∧
          (x.number = n → removed fun st => { st with tickets := r })))))

/-! ## The calendar -/

/-- A second carry: in UNSET nothing happens; otherwise the carry moves the fields on, a day at or beyond its month's
length becoming day 1 of the next month. A carry from minute 59 hands the hour event: while STORE_FAULT is not
latched, every entry that is not STALE and whose stamp lies at least the staleness limit back is marked STALE by a
write of its own, in ascending transaction number, with TRANSACTION_STALE, until a write fails and latches STORE_FAULT
(R119). A midnight carry then has the metrology status formed anew and sends TARE_EXPIRED for every stored tare whose
age is the validity plus one, in ascending slot number (R124, R147). The end of 31 December 2199 leaves the calendar
UNSET with its notice and no event, CALENDAR_STATE before METROLOGY_STATUS (log 14); that CALENDAR_STATE carries
whether the calendar is SET, here false, is the model's reading (log 37). Whether each write verifies is an operand,
and writes without one verify (log 7); the sub-second count is 0 after a carry (log 3). With the main supply absent
the value counts on silently, unless the backup stop record is set (R160 to R163, R166; log 10). -/
def Obligations.SecondCarryRow : Prop :=
  ∀ (oks : List Bool) (s : State),
    let moved := fun v : Option DateTime => s.setCal { s.cal with value := v, subSecond := 0 }
    let next := fun d : Date =>
      if d.day < monthLength d.year d.month then { d with day := d.day + 1 }
      else if d.month < 12 then { year := d.year, month := d.month + 1, day := 1 }
      else ({ year := d.year + 1, month := 1, day := 1 } : Date)
    let midnight := fun t : DateTime => 23 ≤ t.hour
    let valueAfter : DateTime → Option DateTime := fun t =>
      if t.second < 59 then some { t with second := t.second + 1 }
      else if t.minute < 59 then some { t with minute := t.minute + 1, second := 0 }
      else if t.hour < 23 then some { t with hour := t.hour + 1, minute := 0, second := 0 }
      else if 2199 < (next t.date).year then none
      else some { date := next t.date, hour := 0, minute := 0, second := 0 }
    let status := fun v : Option DateTime => statusReasons s.metro.valid s.cap.slot.isAdjustment s.store v
    let statusNote := fun v : Option DateTime =>
      if status v = s.metro.status then [] else [Notice.metrologyStatus (status v) s.metro.status]
    (s.mainSupply = true →
      (s.cal.value = none → exec (.secondCarry oks) s = .next (notified [] s)) ∧
      (∀ t, s.cal.value = some t →
        (t.second < 59 ∨ t.minute < 59 →
          exec (.secondCarry oks) s = .next (notified [] (moved (valueAfter t)))) ∧
        (59 ≤ t.second → 59 ≤ t.minute → valueAfter t = none →
          exec (.secondCarry oks) s = .next (notified ([.calendarState false] ++ statusNote none)
            ((moved none).setMetro { s.metro with status := status none }))) ∧
        (∀ v, 59 ≤ t.second → 59 ≤ t.minute → valueAfter t = some v →
          let clock := fun w : DateTime =>
            86400 * (w.date.dayNumber : Int) + 3600 * (w.hour : Int) + 60 * (w.minute : Int) + (w.second : Int)
          let due := fun x : OpenEntry => x.stale = false ∧
            ∃ w, x.first.stamp = some w ∧ 0 ≤ clock v - clock w ∧
              3600 * (s.site.ticket.staleness : Int) ≤ clock v - clock w
          let expired : List Notice := (List.finRange 128).filterMap fun i =>
            match s.store.tares.get i with
            | none => none
            | some x =>
              if (v.date.dayNumber : Int) - x.date.dayNumber = s.site.ticket.tareValidity + 1 then
                some (.tareExpired x.vehicle x.date)
              else none
          let day := if midnight t then statusNote (some v) ++ expired else []
          let ended := fun (marked : List OpenEntry) (fault : Bool) (hour : List Notice) =>
            let entries := s.store.entries.map fun x =>
              if ∃ y ∈ marked, y.number = x.number then { x with stale := true } else x
            exec (.secondCarry oks) s = .next (notified (hour ++ day)
              ((((moved (some v)).setStore { s.store with entries := entries }).setTm
                { s.tm with storeFault := fault }).setMetro
                { s.metro with status := if midnight t then status (some v) else s.metro.status }))
          let told := List.map fun x : OpenEntry => Notice.transactionStale x.number x.vehicle
          (s.tm.storeFault = true → ended [] true []) ∧
          (s.tm.storeFault = false →
            ∃ order : List OpenEntry, order.Pairwise (fun x y => x.number ≤ y.number) ∧
              order.Perm (s.store.entries.filter fun x => decide (due x)) ∧
              ((∀ b ∈ oks.take order.length, b = true) → ended order false (told order)) ∧
              (∀ pre x post, order = pre ++ x :: post → (∀ b ∈ oks.take pre.length, b = true) →
                oks[pre.length]? = some false → ended pre true (told pre ++ [.storeFault .stale])))))) ∧
    (s.mainSupply = false →
      (s.cal.value = none ∨ s.cal.stopRecord = true → exec (.secondCarry oks) s = .next s) ∧
      (∀ t, s.cal.value = some t → s.cal.stopRecord = false →
        exec (.secondCarry oks) s = .next (moved (valueAfter t))))

/-- The crystal monitor and the supplies: a stop found on the main supply makes MAIN the counting source and sets
TIME_DEGRADED, a return makes CRYSTAL the source and leaves it set, each with the CALENDAR_SOURCE notice; a gap in
STOPPED clears the run count; a supply that fails while MAIN counts, and a stop found with the supply absent, set the
backup stop record (R162; logs 10 and 41). Set Calendar makes its checks in order: the ranges, the date of the newest
audit record, the latched STORE_FAULT, the exhausted trail. A trail write that fails changes nothing but the latch; one
that verifies enters the old and the new value in the trail, sets the value and clears TIME_DEGRADED and the backup stop
record, with the status formed anew and its notice after CALENDAR_STATE (R112, R114, R146, R164; that field and the
order: logs 37 and 14). Read Calendar is answered with what stands, in every state (R165). -/
def Obligations.CalendarRequestsAndSupplies : Prop :=
  (∀ s : State,
    let c := s.cal
    let stoppedOff := s.setCal { c with crystalRunning := false, runCount := 0, stopRecord := true, degraded := true }
    (s.mainSupply = true → c.crystalRunning = true →
      exec .crystalStop s = .next (notified [.calendarSource .main true]
        (s.setCal { c with crystalRunning := false, runCount := 0, source := .main, degraded := true }))) ∧
    (s.mainSupply = true → c.crystalRunning = false →
      exec .crystalReturn s = .next (notified [.calendarSource .crystal c.degraded]
        (s.setCal { c with crystalRunning := true, runCount := 32768, source := .crystal }))) ∧
    (c.crystalRunning = false → exec .crystalRunGap s = .next (s.setCal { c with runCount := 0 })) ∧
    (s.mainSupply = true →
      exec (.mainSupplyLoss .supplyFails) s = .next ((s.setMainSupply false).setCal
        { c with stopRecord := c.stopRecord || decide (c.source = .main) })) ∧
    (s.mainSupply = false → c.crystalRunning = true →
      exec (.mainSupplyLoss .crystalStops) s = .next stoppedOff ∧ exec .crystalStop s = .next stoppedOff)) ∧
  (∀ (p : List Byte) (t : DateTime) (ok : Bool) (s : State), parseStamp p = some t → s.ready →
    let refusedWith := fun st : Status =>
      exec (.setCalendar p ok) s = .next (answered 0xF0 { status := st, body := .none } [] s)
    let inRange := 2000 ≤ t.date.year ∧ t.date.year ≤ 2199 ∧ 1 ≤ t.date.month ∧ t.date.month ≤ 12 ∧ 1 ≤ t.date.day ∧
      t.date.day ≤ 31 ∧ t.hour ≤ 23 ∧ t.minute ≤ 59 ∧ t.second ≤ 59
    let tooEarly := ∃ r, s.store.audits.getLast? = some r ∧
      (t.date.year < r.date.year ∨ t.date.year = r.date.year ∧
        (t.date.month < r.date.month ∨ t.date.month = r.date.month ∧ t.date.day < r.date.day))
    (¬inRange → refusedWith .badRequest) ∧
    (inRange → tooEarly → refusedWith .timeBeforeAudit) ∧
    (inRange → ¬tooEarly → s.tm.storeFault = true → refusedWith .storeFault) ∧
    (inRange → ¬tooEarly → s.tm.storeFault = false → s.store.trailExhausted = true →
      refusedWith .counterExhausted) ∧
    (inRange → ¬tooEarly → s.tm.storeFault = false → s.store.trailExhausted = false →
      let entry : TrailKind := .calendarSet s.cal.value t
      let st := s.store.addTrail entry
      let status := statusReasons s.metro.valid s.cap.slot.isAdjustment s.store (some t)
      (st.trail.getLast? = some { seq := s.store.nextSeq, kind := entry }) ∧
      exec (.setCalendar p ok) s = .next (
        if ok = false then
          answered 0xF0 { status := .storeFault, body := .none } [.storeFault .calendarSet]
            (s.setTm { s.tm with storeFault := true })
        else
          answered 0xF0 { status := .ok, body := .calendarSet t (weekdayOf t.date.dayNumber) }
            ((if s.cal.value = none then [.calendarState true] else []) ++
              (if status = s.metro.status then [] else [.metrologyStatus status s.metro.status]))
            (((s.setStore st).setCal
              { s.cal with value := some t, subSecond := 0, degraded := false, stopRecord := false }).setMetro
              { s.metro with status := status })))) ∧
  (∀ s : State, s.ready →
    exec (.readCalendar []) s = .next (answered 0xF1
      { status := .ok
        body := .calendar (s.cal.value.map fun t => (t, weekdayOf t.date.dayNumber)) s.cal.degraded s.cal.source
          s.cal.crystalRunning (s.store.audits.getLast?.map AuditRecord.date) } [] s))

end Statements
end

