-- ==== Sys2Proof/Laws/State.lean ====
section
/-! SUPPORT. One lemma per field and update of State: what each named update leaves and what it sets. -/

namespace Sys2Proof.Machine.State

/-! ### setPending -/

section
variable (s : State) (x : List Instr)

@[simp] theorem setPending_pending : (s.setPending x).pending = x := rfl
@[simp] theorem setPending_mainSupply : (s.setPending x).mainSupply = s.mainSupply := rfl
@[simp] theorem setPending_link : (s.setPending x).link = s.link := rfl
@[simp] theorem setPending_acq : (s.setPending x).acq = s.acq := rfl
@[simp] theorem setPending_zm : (s.setPending x).zm = s.zm := rfl
@[simp] theorem setPending_axle : (s.setPending x).axle = s.axle := rfl
@[simp] theorem setPending_site : (s.setPending x).site = s.site := rfl
@[simp] theorem setPending_cap : (s.setPending x).cap = s.cap := rfl
@[simp] theorem setPending_store : (s.setPending x).store = s.store := rfl
@[simp] theorem setPending_tm : (s.setPending x).tm = s.tm := rfl
@[simp] theorem setPending_metro : (s.setPending x).metro = s.metro := rfl
@[simp] theorem setPending_cal : (s.setPending x).cal = s.cal := rfl
@[simp] theorem setPending_setPending (y : List Instr) : (s.setPending x).setPending y = s.setPending y := rfl

end

/-! ### setMainSupply -/

section
variable (s : State) (x : Bool)

@[simp] theorem setMainSupply_pending : (s.setMainSupply x).pending = s.pending := rfl
@[simp] theorem setMainSupply_mainSupply : (s.setMainSupply x).mainSupply = x := rfl
@[simp] theorem setMainSupply_link : (s.setMainSupply x).link = s.link := rfl
@[simp] theorem setMainSupply_acq : (s.setMainSupply x).acq = s.acq := rfl
@[simp] theorem setMainSupply_zm : (s.setMainSupply x).zm = s.zm := rfl
@[simp] theorem setMainSupply_axle : (s.setMainSupply x).axle = s.axle := rfl
@[simp] theorem setMainSupply_site : (s.setMainSupply x).site = s.site := rfl
@[simp] theorem setMainSupply_cap : (s.setMainSupply x).cap = s.cap := rfl
@[simp] theorem setMainSupply_store : (s.setMainSupply x).store = s.store := rfl
@[simp] theorem setMainSupply_tm : (s.setMainSupply x).tm = s.tm := rfl
@[simp] theorem setMainSupply_metro : (s.setMainSupply x).metro = s.metro := rfl
@[simp] theorem setMainSupply_cal : (s.setMainSupply x).cal = s.cal := rfl
@[simp] theorem setMainSupply_setMainSupply (y : Bool) : (s.setMainSupply x).setMainSupply y = s.setMainSupply y := rfl

end

/-! ### setLink -/

section
variable (s : State) (x : Link)

@[simp] theorem setLink_pending : (s.setLink x).pending = s.pending := rfl
@[simp] theorem setLink_mainSupply : (s.setLink x).mainSupply = s.mainSupply := rfl
@[simp] theorem setLink_link : (s.setLink x).link = x := rfl
@[simp] theorem setLink_acq : (s.setLink x).acq = s.acq := rfl
@[simp] theorem setLink_zm : (s.setLink x).zm = s.zm := rfl
@[simp] theorem setLink_axle : (s.setLink x).axle = s.axle := rfl
@[simp] theorem setLink_site : (s.setLink x).site = s.site := rfl
@[simp] theorem setLink_cap : (s.setLink x).cap = s.cap := rfl
@[simp] theorem setLink_store : (s.setLink x).store = s.store := rfl
@[simp] theorem setLink_tm : (s.setLink x).tm = s.tm := rfl
@[simp] theorem setLink_metro : (s.setLink x).metro = s.metro := rfl
@[simp] theorem setLink_cal : (s.setLink x).cal = s.cal := rfl
@[simp] theorem setLink_setLink (y : Link) : (s.setLink x).setLink y = s.setLink y := rfl

end

/-! ### setAcq -/

section
variable (s : State) (x : Acq)

@[simp] theorem setAcq_pending : (s.setAcq x).pending = s.pending := rfl
@[simp] theorem setAcq_mainSupply : (s.setAcq x).mainSupply = s.mainSupply := rfl
@[simp] theorem setAcq_link : (s.setAcq x).link = s.link := rfl
@[simp] theorem setAcq_acq : (s.setAcq x).acq = x := rfl
@[simp] theorem setAcq_zm : (s.setAcq x).zm = s.zm := rfl
@[simp] theorem setAcq_axle : (s.setAcq x).axle = s.axle := rfl
@[simp] theorem setAcq_site : (s.setAcq x).site = s.site := rfl
@[simp] theorem setAcq_cap : (s.setAcq x).cap = s.cap := rfl
@[simp] theorem setAcq_store : (s.setAcq x).store = s.store := rfl
@[simp] theorem setAcq_tm : (s.setAcq x).tm = s.tm := rfl
@[simp] theorem setAcq_metro : (s.setAcq x).metro = s.metro := rfl
@[simp] theorem setAcq_cal : (s.setAcq x).cal = s.cal := rfl
@[simp] theorem setAcq_setAcq (y : Acq) : (s.setAcq x).setAcq y = s.setAcq y := rfl

end

/-! ### setZm -/

section
variable (s : State) (x : ZeroMotion)

@[simp] theorem setZm_pending : (s.setZm x).pending = s.pending := rfl
@[simp] theorem setZm_mainSupply : (s.setZm x).mainSupply = s.mainSupply := rfl
@[simp] theorem setZm_link : (s.setZm x).link = s.link := rfl
@[simp] theorem setZm_acq : (s.setZm x).acq = s.acq := rfl
@[simp] theorem setZm_zm : (s.setZm x).zm = x := rfl
@[simp] theorem setZm_axle : (s.setZm x).axle = s.axle := rfl
@[simp] theorem setZm_site : (s.setZm x).site = s.site := rfl
@[simp] theorem setZm_cap : (s.setZm x).cap = s.cap := rfl
@[simp] theorem setZm_store : (s.setZm x).store = s.store := rfl
@[simp] theorem setZm_tm : (s.setZm x).tm = s.tm := rfl
@[simp] theorem setZm_metro : (s.setZm x).metro = s.metro := rfl
@[simp] theorem setZm_cal : (s.setZm x).cal = s.cal := rfl
@[simp] theorem setZm_setZm (y : ZeroMotion) : (s.setZm x).setZm y = s.setZm y := rfl

end

/-! ### setAxle -/

section
variable (s : State) (x : AxleMap)

@[simp] theorem setAxle_pending : (s.setAxle x).pending = s.pending := rfl
@[simp] theorem setAxle_mainSupply : (s.setAxle x).mainSupply = s.mainSupply := rfl
@[simp] theorem setAxle_link : (s.setAxle x).link = s.link := rfl
@[simp] theorem setAxle_acq : (s.setAxle x).acq = s.acq := rfl
@[simp] theorem setAxle_zm : (s.setAxle x).zm = s.zm := rfl
@[simp] theorem setAxle_axle : (s.setAxle x).axle = x := rfl
@[simp] theorem setAxle_site : (s.setAxle x).site = s.site := rfl
@[simp] theorem setAxle_cap : (s.setAxle x).cap = s.cap := rfl
@[simp] theorem setAxle_store : (s.setAxle x).store = s.store := rfl
@[simp] theorem setAxle_tm : (s.setAxle x).tm = s.tm := rfl
@[simp] theorem setAxle_metro : (s.setAxle x).metro = s.metro := rfl
@[simp] theorem setAxle_cal : (s.setAxle x).cal = s.cal := rfl
@[simp] theorem setAxle_setAxle (y : AxleMap) : (s.setAxle x).setAxle y = s.setAxle y := rfl

end

/-! ### setSite -/

section
variable (s : State) (x : Site)

@[simp] theorem setSite_pending : (s.setSite x).pending = s.pending := rfl
@[simp] theorem setSite_mainSupply : (s.setSite x).mainSupply = s.mainSupply := rfl
@[simp] theorem setSite_link : (s.setSite x).link = s.link := rfl
@[simp] theorem setSite_acq : (s.setSite x).acq = s.acq := rfl
@[simp] theorem setSite_zm : (s.setSite x).zm = s.zm := rfl
@[simp] theorem setSite_axle : (s.setSite x).axle = s.axle := rfl
@[simp] theorem setSite_site : (s.setSite x).site = x := rfl
@[simp] theorem setSite_cap : (s.setSite x).cap = s.cap := rfl
@[simp] theorem setSite_store : (s.setSite x).store = s.store := rfl
@[simp] theorem setSite_tm : (s.setSite x).tm = s.tm := rfl
@[simp] theorem setSite_metro : (s.setSite x).metro = s.metro := rfl
@[simp] theorem setSite_cal : (s.setSite x).cal = s.cal := rfl
@[simp] theorem setSite_setSite (y : Site) : (s.setSite x).setSite y = s.setSite y := rfl

end

/-! ### setCap -/

section
variable (s : State) (x : Capture)

@[simp] theorem setCap_pending : (s.setCap x).pending = s.pending := rfl
@[simp] theorem setCap_mainSupply : (s.setCap x).mainSupply = s.mainSupply := rfl
@[simp] theorem setCap_link : (s.setCap x).link = s.link := rfl
@[simp] theorem setCap_acq : (s.setCap x).acq = s.acq := rfl
@[simp] theorem setCap_zm : (s.setCap x).zm = s.zm := rfl
@[simp] theorem setCap_axle : (s.setCap x).axle = s.axle := rfl
@[simp] theorem setCap_site : (s.setCap x).site = s.site := rfl
@[simp] theorem setCap_cap : (s.setCap x).cap = x := rfl
@[simp] theorem setCap_store : (s.setCap x).store = s.store := rfl
@[simp] theorem setCap_tm : (s.setCap x).tm = s.tm := rfl
@[simp] theorem setCap_metro : (s.setCap x).metro = s.metro := rfl
@[simp] theorem setCap_cal : (s.setCap x).cal = s.cal := rfl
@[simp] theorem setCap_setCap (y : Capture) : (s.setCap x).setCap y = s.setCap y := rfl

end

/-! ### setStore -/

section
variable (s : State) (x : Store)

@[simp] theorem setStore_pending : (s.setStore x).pending = s.pending := rfl
@[simp] theorem setStore_mainSupply : (s.setStore x).mainSupply = s.mainSupply := rfl
@[simp] theorem setStore_link : (s.setStore x).link = s.link := rfl
@[simp] theorem setStore_acq : (s.setStore x).acq = s.acq := rfl
@[simp] theorem setStore_zm : (s.setStore x).zm = s.zm := rfl
@[simp] theorem setStore_axle : (s.setStore x).axle = s.axle := rfl
@[simp] theorem setStore_site : (s.setStore x).site = s.site := rfl
@[simp] theorem setStore_cap : (s.setStore x).cap = s.cap := rfl
@[simp] theorem setStore_store : (s.setStore x).store = x := rfl
@[simp] theorem setStore_tm : (s.setStore x).tm = s.tm := rfl
@[simp] theorem setStore_metro : (s.setStore x).metro = s.metro := rfl
@[simp] theorem setStore_cal : (s.setStore x).cal = s.cal := rfl
@[simp] theorem setStore_setStore (y : Store) : (s.setStore x).setStore y = s.setStore y := rfl

end

/-! ### setTm -/

section
variable (s : State) (x : TxManager)

@[simp] theorem setTm_pending : (s.setTm x).pending = s.pending := rfl
@[simp] theorem setTm_mainSupply : (s.setTm x).mainSupply = s.mainSupply := rfl
@[simp] theorem setTm_link : (s.setTm x).link = s.link := rfl
@[simp] theorem setTm_acq : (s.setTm x).acq = s.acq := rfl
@[simp] theorem setTm_zm : (s.setTm x).zm = s.zm := rfl
@[simp] theorem setTm_axle : (s.setTm x).axle = s.axle := rfl
@[simp] theorem setTm_site : (s.setTm x).site = s.site := rfl
@[simp] theorem setTm_cap : (s.setTm x).cap = s.cap := rfl
@[simp] theorem setTm_store : (s.setTm x).store = s.store := rfl
@[simp] theorem setTm_tm : (s.setTm x).tm = x := rfl
@[simp] theorem setTm_metro : (s.setTm x).metro = s.metro := rfl
@[simp] theorem setTm_cal : (s.setTm x).cal = s.cal := rfl
@[simp] theorem setTm_setTm (y : TxManager) : (s.setTm x).setTm y = s.setTm y := rfl

end

/-! ### setMetro -/

section
variable (s : State) (x : Metro)

@[simp] theorem setMetro_pending : (s.setMetro x).pending = s.pending := rfl
@[simp] theorem setMetro_mainSupply : (s.setMetro x).mainSupply = s.mainSupply := rfl
@[simp] theorem setMetro_link : (s.setMetro x).link = s.link := rfl
@[simp] theorem setMetro_acq : (s.setMetro x).acq = s.acq := rfl
@[simp] theorem setMetro_zm : (s.setMetro x).zm = s.zm := rfl
@[simp] theorem setMetro_axle : (s.setMetro x).axle = s.axle := rfl
@[simp] theorem setMetro_site : (s.setMetro x).site = s.site := rfl
@[simp] theorem setMetro_cap : (s.setMetro x).cap = s.cap := rfl
@[simp] theorem setMetro_store : (s.setMetro x).store = s.store := rfl
@[simp] theorem setMetro_tm : (s.setMetro x).tm = s.tm := rfl
@[simp] theorem setMetro_metro : (s.setMetro x).metro = x := rfl
@[simp] theorem setMetro_cal : (s.setMetro x).cal = s.cal := rfl
@[simp] theorem setMetro_setMetro (y : Metro) : (s.setMetro x).setMetro y = s.setMetro y := rfl

end

/-! ### setCal -/

section
variable (s : State) (x : Calendar)

@[simp] theorem setCal_pending : (s.setCal x).pending = s.pending := rfl
@[simp] theorem setCal_mainSupply : (s.setCal x).mainSupply = s.mainSupply := rfl
@[simp] theorem setCal_link : (s.setCal x).link = s.link := rfl
@[simp] theorem setCal_acq : (s.setCal x).acq = s.acq := rfl
@[simp] theorem setCal_zm : (s.setCal x).zm = s.zm := rfl
@[simp] theorem setCal_axle : (s.setCal x).axle = s.axle := rfl
@[simp] theorem setCal_site : (s.setCal x).site = s.site := rfl
@[simp] theorem setCal_cap : (s.setCal x).cap = s.cap := rfl
@[simp] theorem setCal_store : (s.setCal x).store = s.store := rfl
@[simp] theorem setCal_tm : (s.setCal x).tm = s.tm := rfl
@[simp] theorem setCal_metro : (s.setCal x).metro = s.metro := rfl
@[simp] theorem setCal_cal : (s.setCal x).cal = x := rfl
@[simp] theorem setCal_setCal (y : Calendar) : (s.setCal x).setCal y = s.setCal y := rfl

end

end Sys2Proof.Machine.State
end

