-- ==== Sys2Proof/Laws/Ops.lean ====
section
/-! SUPPORT. What each shared operation of Machine/Ops.lean does, said once: the event record, the link port, the
restart, the store write, the lamps, the status, and the frames around events and requests. -/

namespace Sys2Proof.Machine

/-! ## The event record -/

namespace Ev

variable (e : Ev) (f : State → State) (n : Notice) (ns : List Notice) (m : Mark) (b : Bool) (g : Ev → Ev)

@[simp] theorem start_st (s : State) : (start s).st = s := rfl
@[simp] theorem start_notes (s : State) : (start s).notes = [] := rfl
@[simp] theorem start_marks (s : State) : (start s).marks = [] := rfl
@[simp] theorem upd_st : (e.upd f).st = f e.st := rfl
@[simp] theorem upd_notes : (e.upd f).notes = e.notes := rfl
@[simp] theorem upd_marks : (e.upd f).marks = e.marks := rfl
@[simp] theorem note_st : (e.note n).st = e.st := rfl
@[simp] theorem note_notes : (e.note n).notes = e.notes ++ [n] := rfl
@[simp] theorem note_marks : (e.note n).marks = e.marks := rfl
@[simp] theorem noteAll_st : (e.noteAll ns).st = e.st := rfl
@[simp] theorem noteAll_notes : (e.noteAll ns).notes = e.notes ++ ns := rfl
@[simp] theorem noteAll_marks : (e.noteAll ns).marks = e.marks := rfl
@[simp] theorem mark_st : (e.mark m).st = e.st := rfl
@[simp] theorem mark_notes : (e.mark m).notes = e.notes := rfl
@[simp] theorem mark_marks : (e.mark m).marks = m :: e.marks := rfl
@[simp] theorem when_true : e.when true g = g e := rfl
@[simp] theorem when_false : e.when false g = e := rfl

/-- A change made under a condition keeps what both of its outcomes have. -/
theorem when_keeps {P : Ev → Prop} (h : P e) (hg : P (g e)) : P (e.when b g) := by
  cases b
  · exact h
  · exact hg

/-- A conditional notice leaves the state. -/
@[simp] theorem when_note_st : (e.when b (·.note n)).st = e.st := by cases b <;> rfl

/-- Conditional notices leave the state. -/
@[simp] theorem when_noteAll_st : (e.when b (·.noteAll ns)).st = e.st := by cases b <;> rfl

end Ev

/-! ## The link port (R168, R170, R171) -/

namespace Link

variable (l : Link) (n : Notice) (ns : List Notice) (a : Answer)

@[simp] theorem hand_slots : (l.hand n).slots = l.slots := by unfold hand; split_ifs <;> rfl
@[simp] theorem hand_tx : (l.hand n).tx = l.tx := by unfold hand; split_ifs <;> rfl
@[simp] theorem hand_mask : (l.hand n).mask = l.mask := by unfold hand; split_ifs <;> rfl
@[simp] theorem hand_baud : (l.hand n).baud = l.baud := by unfold hand; split_ifs <;> rfl
@[simp] theorem hand_rxBuffer : (l.hand n).rxBuffer = l.rxBuffer := by unfold hand; split_ifs <;> rfl

/-- The queue never grows past 16 (R171). -/
theorem hand_queue_le (h : l.queue.length ≤ 16) : (l.hand n).queue.length ≤ 16 := by
  unfold hand
  split_ifs with h1 h2
  · exact h
  · simp only [List.length_append, List.length_singleton]; omega
  · exact h

@[simp] theorem handAll_nil : l.handAll [] = l := rfl
@[simp] theorem handAll_cons : l.handAll (n :: ns) = (l.hand n).handAll ns := rfl

theorem handAll_append (ms : List Notice) : l.handAll (ns ++ ms) = (l.handAll ns).handAll ms := by
  simp [handAll, List.foldl_append]

@[simp] theorem handAll_slots : (l.handAll ns).slots = l.slots := by
  induction ns generalizing l with
  | nil => rfl
  | cons n r ih => simp [ih]

@[simp] theorem handAll_tx : (l.handAll ns).tx = l.tx := by
  induction ns generalizing l with
  | nil => rfl
  | cons n r ih => simp [ih]

@[simp] theorem handAll_mask : (l.handAll ns).mask = l.mask := by
  induction ns generalizing l with
  | nil => rfl
  | cons n r ih => simp [ih]

@[simp] theorem handAll_baud : (l.handAll ns).baud = l.baud := by
  induction ns generalizing l with
  | nil => rfl
  | cons n r ih => simp [ih]

@[simp] theorem handAll_rxBuffer : (l.handAll ns).rxBuffer = l.rxBuffer := by
  induction ns generalizing l with
  | nil => rfl
  | cons n r ih => simp [ih]

theorem handAll_queue_le (h : l.queue.length ≤ 16) : (l.handAll ns).queue.length ≤ 16 := by
  induction ns generalizing l with
  | nil => exact h
  | cons n r ih => exact ih (l.hand n) (l.hand_queue_le n h)

@[simp] theorem transmit_slots : l.transmit.slots = l.slots := by unfold transmit; split <;> (try split) <;> rfl
@[simp] theorem transmit_mask : l.transmit.mask = l.mask := by unfold transmit; split <;> (try split) <;> rfl
@[simp] theorem transmit_baud : l.transmit.baud = l.baud := by unfold transmit; split <;> (try split) <;> rfl
@[simp] theorem transmit_rxBuffer : l.transmit.rxBuffer = l.rxBuffer := by
  unfold transmit; split <;> (try split) <;> rfl
@[simp] theorem transmit_noticeLoss : l.transmit.noticeLoss = l.noticeLoss := by
  unfold transmit; split <;> (try split) <;> rfl

/-- Starting a transmission takes at most one notice off the queue (R170). -/
theorem transmit_queue_le : l.transmit.queue.length ≤ l.queue.length := by
  unfold transmit
  split
  · exact Nat.le_refl _
  · split
    · exact Nat.le_refl _
    · rename_i h; simp [h]
    · exact Nat.le_refl _

/-- An answer in transmission is in a slot (R168). -/
theorem transmit_answer (h : l.tx = some .answer → l.slots ≠ []) :
    l.transmit.tx = some .answer → l.transmit.slots ≠ [] := by
  rw [transmit_slots]
  unfold transmit
  split
  · exact h
  · split
    · rename_i h1 _ _; intro _; simp_all
    · simp
    · simp_all

@[simp] theorem place_slots : (l.place a).slots = l.slots ++ [a] := rfl
@[simp] theorem place_queue : (l.place a).queue = l.queue := rfl
@[simp] theorem place_tx : (l.place a).tx = l.tx := rfl
@[simp] theorem place_mask : (l.place a).mask = l.mask := rfl
@[simp] theorem place_baud : (l.place a).baud = l.baud := rfl
@[simp] theorem place_rxBuffer : (l.place a).rxBuffer = l.rxBuffer := rfl

end Link

/-! ## The restart (R43) -/

section
variable (s : State)

@[simp] theorem restart_pending : (restart s).pending = s.pending := rfl
@[simp] theorem restart_mainSupply : (restart s).mainSupply = s.mainSupply := rfl
@[simp] theorem restart_link : (restart s).link = s.link := rfl
@[simp] theorem restart_acq : (restart s).acq = s.acq := rfl
@[simp] theorem restart_axle : (restart s).axle = s.axle := rfl
@[simp] theorem restart_site : (restart s).site = s.site := rfl
@[simp] theorem restart_store : (restart s).store = s.store := rfl
@[simp] theorem restart_tm : (restart s).tm = s.tm := rfl
@[simp] theorem restart_metro : (restart s).metro = s.metro := rfl
@[simp] theorem restart_cal : (restart s).cal = s.cal := rfl
@[simp] theorem restart_zm :
    (restart s).zm = { s.zm with window := [], clock := 0, decisions := notStable } := rfl
@[simp] theorem restart_cap : (restart s).cap = { s.cap with slot := s.cap.slot.clearCalWindow } := rfl

end

@[simp] theorem Slot.clearCalWindow_isAdjustment (x : Slot) : x.clearCalWindow.isAdjustment = x.isAdjustment := by
  cases x <;> rfl

@[simp] theorem Slot.clearCalWindow_isSession (x : Slot) : x.clearCalWindow.isSession = x.isSession := by
  cases x <;> rfl

/-! ## The store write (R112, R114) -/

section
variable (w : StoreWrite) (f : State → State) (e : Ev)

@[simp] theorem storeWrite_true : storeWrite true w f e = e.upd f := rfl
@[simp] theorem storeWrite_false : storeWrite false w f e = latchStoreFault w e := rfl

/-- A failed write latches STORE_FAULT and changes nothing else of the state (R112, R114). -/
theorem latchStoreFault_st : (latchStoreFault w e).st = e.st.setTm { e.st.tm with storeFault := true } := by
  unfold latchStoreFault
  split_ifs with h
  · have h2 : ({ e.st.tm with storeFault := true } : TxManager) = e.st.tm := by rw [← h]
    rw [h2]; rfl
  · rfl

/-- The one notice of a latch; none while the flag is latched already (R114). -/
theorem latchStoreFault_notes :
    (latchStoreFault w e).notes = e.notes ++ (if e.st.tm.storeFault then [] else [.storeFault w]) := by
  unfold latchStoreFault
  split_ifs <;> simp

@[simp] theorem latchStoreFault_marks : (latchStoreFault w e).marks = e.marks := by
  unfold latchStoreFault
  split_ifs <;> rfl

/-- A property that a latch and the write itself keep is kept by the store write. -/
theorem storeWrite_keeps {P : State → Prop} (ok : Bool) (h1 : P (f e.st))
    (h2 : P (e.st.setTm { e.st.tm with storeFault := true })) : P (storeWrite ok w f e).st := by
  cases ok
  · rw [storeWrite_false, latchStoreFault_st]; exact h2
  · exact h1

end

section
variable (st : Store) (k : TrailKind)

@[simp] theorem addTrail_config : (st.addTrail k).config = st.config := rfl
@[simp] theorem addTrail_checksum : (st.addTrail k).checksum = st.checksum := rfl
@[simp] theorem addTrail_eventCounter : (st.addTrail k).eventCounter = st.eventCounter := rfl
@[simp] theorem addTrail_audits : (st.addTrail k).audits = st.audits := rfl
@[simp] theorem addTrail_auditCounter : (st.addTrail k).auditCounter = st.auditCounter := rfl
@[simp] theorem addTrail_entries : (st.addTrail k).entries = st.entries := rfl
@[simp] theorem addTrail_tares : (st.addTrail k).tares = st.tares := rfl
@[simp] theorem addTrail_tickets : (st.addTrail k).tickets = st.tickets := rfl
@[simp] theorem addTrail_txCounter : (st.addTrail k).txCounter = st.txCounter := rfl
@[simp] theorem addTrail_ticketCounter : (st.addTrail k).ticketCounter = st.ticketCounter := rfl

/-- The trail never holds more than 48 entries (R146). -/
theorem addTrail_trail_le (h : st.trail.length ≤ 48) : (st.addTrail k).trail.length ≤ 48 := by
  unfold Store.addTrail
  dsimp only
  split_ifs with h1
  · simp only [List.length_append, List.length_drop, List.length_singleton]; omega
  · simp only [List.length_append, List.length_singleton]; omega

/-- A new entry stands last in the trail, with the next sequence number (R146). -/
theorem addTrail_last : (st.addTrail k).trail.getLast? = some { seq := st.nextSeq, kind := k } := by
  unfold Store.addTrail
  simp

end

/-! ## Shared effects -/

section
variable (e : Ev)

/-- The status after a recomputation (R147). -/
theorem recomputeStatus_st :
    (recomputeStatus e).st = e.st.setMetro { e.st.metro with
      status := statusReasons e.st.metro.valid e.st.cap.slot.isAdjustment e.st.store e.st.cal.value } := by
  unfold recomputeStatus
  simp

/-- A wake in a scale state other than STANDBY does nothing (R24). -/
theorem wake_of_ne (h : e.st.acq.scale ≠ .standby) : wake e = e := by simp [wake, h]

theorem wake_of_standby (h : e.st.acq.scale = .standby) : wake e = enterWarmup e := by simp [wake, h]

end

/-! ## Around a command -/

section
variable (s0 s : State) (e : Ev)

@[simp] theorem formEntryLamp_pending : (formEntryLamp s0 s).pending = s.pending := by
  unfold formEntryLamp; split_ifs <;> rfl
@[simp] theorem formEntryLamp_mainSupply : (formEntryLamp s0 s).mainSupply = s.mainSupply := by
  unfold formEntryLamp; split_ifs <;> rfl
@[simp] theorem formEntryLamp_link : (formEntryLamp s0 s).link = s.link := by unfold formEntryLamp; split_ifs <;> rfl
@[simp] theorem formEntryLamp_acq : (formEntryLamp s0 s).acq = s.acq := by unfold formEntryLamp; split_ifs <;> rfl
@[simp] theorem formEntryLamp_zm : (formEntryLamp s0 s).zm = s.zm := by unfold formEntryLamp; split_ifs <;> rfl
@[simp] theorem formEntryLamp_axle : (formEntryLamp s0 s).axle = s.axle := by unfold formEntryLamp; split_ifs <;> rfl
@[simp] theorem formEntryLamp_site : (formEntryLamp s0 s).site = s.site := by unfold formEntryLamp; split_ifs <;> rfl
@[simp] theorem formEntryLamp_store : (formEntryLamp s0 s).store = s.store := by
  unfold formEntryLamp; split_ifs <;> rfl
@[simp] theorem formEntryLamp_tm : (formEntryLamp s0 s).tm = s.tm := by unfold formEntryLamp; split_ifs <;> rfl
@[simp] theorem formEntryLamp_metro : (formEntryLamp s0 s).metro = s.metro := by
  unfold formEntryLamp; split_ifs <;> rfl
@[simp] theorem formEntryLamp_cal : (formEntryLamp s0 s).cal = s.cal := by unfold formEntryLamp; split_ifs <;> rfl
@[simp] theorem formEntryLamp_slot : (formEntryLamp s0 s).cap.slot = s.cap.slot := by
  unfold formEntryLamp; split_ifs <;> rfl
@[simp] theorem formEntryLamp_timeout : (formEntryLamp s0 s).cap.timeout = s.cap.timeout := by
  unfold formEntryLamp; split_ifs <;> rfl
@[simp] theorem formEntryLamp_opCounter : (formEntryLamp s0 s).cap.opCounter = s.cap.opCounter := by
  unfold formEntryLamp; split_ifs <;> rfl
@[simp] theorem formEntryLamp_exitLamp : (formEntryLamp s0 s).cap.exitLamp = s.cap.exitLamp := by
  unfold formEntryLamp; split_ifs <;> rfl
@[simp] theorem formEntryLamp_reworkHold : (formEntryLamp s0 s).cap.reworkHold = s.cap.reworkHold := by
  unfold formEntryLamp; split_ifs <;> rfl

/-- No input changed: the entry lamp stays (R108). -/
theorem formEntryLamp_same (h : s.lampInputs = s0.lampInputs) : formEntryLamp s0 s = s := by
  unfold formEntryLamp; rw [if_pos h]

/-- An input changed: the entry lamp is what its inputs give (R108). -/
theorem formEntryLamp_changed (h : s.lampInputs ≠ s0.lampInputs) :
    (formEntryLamp s0 s).cap.entryLamp = s.entryLampOf := by
  unfold formEntryLamp; rw [if_neg h]; rfl

/-- The state at the end of an event, but for its link port, is that of the lamps settled. -/
theorem settle_eq : settle s0 e = (formEntryLamp s0 e.st).setLink
    (e.st.link.handAll (e.notes ++ lampNotes s0 (formEntryLamp s0 e.st))) := by
  unfold settle; simp

@[simp] theorem settle_pending : (settle s0 e).pending = e.st.pending := by simp [settle_eq]
@[simp] theorem settle_mainSupply : (settle s0 e).mainSupply = e.st.mainSupply := by simp [settle_eq]
@[simp] theorem settle_acq : (settle s0 e).acq = e.st.acq := by simp [settle_eq]
@[simp] theorem settle_zm : (settle s0 e).zm = e.st.zm := by simp [settle_eq]
@[simp] theorem settle_axle : (settle s0 e).axle = e.st.axle := by simp [settle_eq]
@[simp] theorem settle_site : (settle s0 e).site = e.st.site := by simp [settle_eq]
@[simp] theorem settle_store : (settle s0 e).store = e.st.store := by simp [settle_eq]
@[simp] theorem settle_tm : (settle s0 e).tm = e.st.tm := by simp [settle_eq]
@[simp] theorem settle_metro : (settle s0 e).metro = e.st.metro := by simp [settle_eq]
@[simp] theorem settle_cal : (settle s0 e).cal = e.st.cal := by simp [settle_eq]
@[simp] theorem settle_slot : (settle s0 e).cap.slot = e.st.cap.slot := by simp [settle_eq]
@[simp] theorem settle_timeout : (settle s0 e).cap.timeout = e.st.cap.timeout := by simp [settle_eq]
@[simp] theorem settle_opCounter : (settle s0 e).cap.opCounter = e.st.cap.opCounter := by simp [settle_eq]
@[simp] theorem settle_exitLamp : (settle s0 e).cap.exitLamp = e.st.cap.exitLamp := by simp [settle_eq]
@[simp] theorem settle_reworkHold : (settle s0 e).cap.reworkHold = e.st.cap.reworkHold := by simp [settle_eq]
@[simp] theorem settle_slots : (settle s0 e).link.slots = e.st.link.slots := by simp [settle_eq]
@[simp] theorem settle_mask : (settle s0 e).link.mask = e.st.link.mask := by simp [settle_eq]

/-- An event that raised nothing and changed neither lamp nor an input of the entry lamp settles to its state. -/
theorem settle_quiet (hn : e.notes = []) (hl : e.st.lampInputs = s0.lampInputs)
    (h1 : e.st.cap.entryLamp = s0.cap.entryLamp) (h2 : e.st.cap.exitLamp = s0.cap.exitLamp) :
    settle s0 e = e.st := by
  rw [settle_eq, formEntryLamp_same s0 e.st hl, hn]
  simp [lampNotes, h1, h2]
  rfl

end

section
variable (f : Ev → Ev) (s : State)

/-- An event on the main supply (logs 10 and 13). -/
theorem event_on (h : s.mainSupply = true) : event f s = .next (serveLink (settle s (f (Ev.start s)))) := by
  simp [event, h]

/-- Nothing happens while the main supply is absent (log 10). -/
theorem event_off (h : s.mainSupply = false) : event f s = .next s := by simp [event, h]

theorem event_isNext : ∃ t, event f s = .next t := ⟨_, rfl⟩

/-- A property of states that the event, the settling and the link service keep is kept by the whole event. -/
theorem event_keeps {P : State → Prop} {t : State} (ht : event f s = .next t) (h0 : P s)
    (h : P (serveLink (settle s (f (Ev.start s))))) : P t := by
  simp only [event, Host.Outcome.next.injEq] at ht
  subst ht
  split_ifs
  · exact h
  · exact h0

end

section
variable (k : Byte) (f : Ev → Ev × Reply) (s : State)

theorem request_isNext : ∃ t, request k f s = .next t := ⟨_, rfl⟩

/-- Both answer slots empty: the request is executed and answered (R168). -/
theorem request_empty (h : s.mainSupply = true) (hs : s.link.slots = []) :
    request k f s = .next (serveLink (answer k (f (Ev.start (endFrame s))).2
      (settle (endFrame s) (f (Ev.start (endFrame s))).1))) := by
  have h1 : (endFrame s).link.slots = [] := hs
  simp [request, h, h1]

/-- One answer slot held: LINK_BUSY fills the other, and nothing is executed (R168). -/
theorem request_one (h : s.mainSupply = true) {a : Answer} (hs : s.link.slots = [a]) :
    request k f s = .next (serveLink (answer k (Reply.bare .linkBusy) (endFrame s))) := by
  have h1 : (endFrame s).link.slots = [a] := hs
  simp [request, h, h1]

/-- Both answer slots held: the frame is dropped (R168). -/
theorem request_full (h : s.mainSupply = true) (hs : 2 ≤ s.link.slots.length) :
    request k f s = .next (endFrame s) := by
  have h1 : (endFrame s).link.slots = s.link.slots := rfl
  match h2 : s.link.slots, hs with
  | a :: b :: r, _ => simp [request, h, h1, h2]

/-- Nothing happens while the main supply is absent (log 10). -/
theorem request_off (h : s.mainSupply = false) : request k f s = .next s := by simp [request, h]

theorem requestWith_isNext {α : Type} (p : Option α) (g : α → Ev → Ev × Reply) :
    ∃ t, requestWith k p g s = .next t := ⟨_, rfl⟩

/-- A payload that does not match is answered BAD_REQUEST and changes nothing (R168). -/
theorem requestWith_none {α : Type} (g : α → Ev → Ev × Reply) :
    requestWith k none g s = request k (fun e => (e, Reply.bare .badRequest)) s := rfl

theorem requestWith_some {α : Type} (x : α) (g : α → Ev → Ev × Reply) :
    requestWith k (some x) g s = request k (g x) s := rfl

end

section
variable (s : State)

@[simp] theorem endFrame_pending : (endFrame s).pending = s.pending := rfl
@[simp] theorem endFrame_mainSupply : (endFrame s).mainSupply = s.mainSupply := rfl
@[simp] theorem endFrame_acq : (endFrame s).acq = s.acq := rfl
@[simp] theorem endFrame_zm : (endFrame s).zm = s.zm := rfl
@[simp] theorem endFrame_axle : (endFrame s).axle = s.axle := rfl
@[simp] theorem endFrame_site : (endFrame s).site = s.site := rfl
@[simp] theorem endFrame_cap : (endFrame s).cap = s.cap := rfl
@[simp] theorem endFrame_store : (endFrame s).store = s.store := rfl
@[simp] theorem endFrame_tm : (endFrame s).tm = s.tm := rfl
@[simp] theorem endFrame_metro : (endFrame s).metro = s.metro := rfl
@[simp] theorem endFrame_cal : (endFrame s).cal = s.cal := rfl
@[simp] theorem endFrame_link : (endFrame s).link = { s.link with rxBuffer := [] } := rfl

variable (k : Byte) (r : Reply)

@[simp] theorem answer_pending : (answer k r s).pending = s.pending := rfl
@[simp] theorem answer_mainSupply : (answer k r s).mainSupply = s.mainSupply := rfl
@[simp] theorem answer_acq : (answer k r s).acq = s.acq := rfl
@[simp] theorem answer_zm : (answer k r s).zm = s.zm := rfl
@[simp] theorem answer_axle : (answer k r s).axle = s.axle := rfl
@[simp] theorem answer_site : (answer k r s).site = s.site := rfl
@[simp] theorem answer_cap : (answer k r s).cap = s.cap := rfl
@[simp] theorem answer_store : (answer k r s).store = s.store := rfl
@[simp] theorem answer_tm : (answer k r s).tm = s.tm := rfl
@[simp] theorem answer_metro : (answer k r s).metro = s.metro := rfl
@[simp] theorem answer_cal : (answer k r s).cal = s.cal := rfl
@[simp] theorem answer_link : (answer k r s).link = s.link.place { kind := k, reply := r } := rfl

@[simp] theorem serveLink_pending : (serveLink s).pending = s.pending := rfl
@[simp] theorem serveLink_mainSupply : (serveLink s).mainSupply = s.mainSupply := rfl
@[simp] theorem serveLink_acq : (serveLink s).acq = s.acq := rfl
@[simp] theorem serveLink_zm : (serveLink s).zm = s.zm := rfl
@[simp] theorem serveLink_axle : (serveLink s).axle = s.axle := rfl
@[simp] theorem serveLink_site : (serveLink s).site = s.site := rfl
@[simp] theorem serveLink_cap : (serveLink s).cap = s.cap := rfl
@[simp] theorem serveLink_store : (serveLink s).store = s.store := rfl
@[simp] theorem serveLink_tm : (serveLink s).tm = s.tm := rfl
@[simp] theorem serveLink_metro : (serveLink s).metro = s.metro := rfl
@[simp] theorem serveLink_cal : (serveLink s).cal = s.cal := rfl
@[simp] theorem serveLink_link : (serveLink s).link = s.link.transmit := rfl

end

end Sys2Proof.Machine
end

