-- ==== Sys2Proof/Laws/Keeps.lean ====
section
/-! SUPPORT. One lemma per operation: the parts of the state that it leaves as they were. Each is a conjunction of
equations, tagged for the simplifier, so that a proof about a chain of operations needs none of their bodies. -/

namespace Sys2Proof.Machine

/-! ## Shared operations -/

/-- `restart` changes at most: zm, cap. -/
@[simp] theorem restart_keeps (s : State) :
    (restart s).pending = s.pending ∧ (restart s).mainSupply = s.mainSupply ∧ (restart s).link = s.link ∧
      (restart s).acq = s.acq ∧ (restart s).axle = s.axle ∧ (restart s).site = s.site ∧
      (restart s).store = s.store ∧ (restart s).tm = s.tm ∧ (restart s).metro = s.metro ∧
      (restart s).cal = s.cal ∧ (restart s).cap.timeout = s.cap.timeout ∧
      (restart s).cap.opCounter = s.cap.opCounter := by
  simp

/-- `latchStoreFault` changes at most: tm. -/
@[simp] theorem latchStoreFault_keeps (w : StoreWrite) (e : Ev) :
    (latchStoreFault w e).st.pending = e.st.pending ∧ (latchStoreFault w e).st.mainSupply = e.st.mainSupply ∧
      (latchStoreFault w e).st.link = e.st.link ∧ (latchStoreFault w e).st.acq = e.st.acq ∧
      (latchStoreFault w e).st.zm = e.st.zm ∧ (latchStoreFault w e).st.axle = e.st.axle ∧
      (latchStoreFault w e).st.site = e.st.site ∧ (latchStoreFault w e).st.cap = e.st.cap ∧
      (latchStoreFault w e).st.store = e.st.store ∧ (latchStoreFault w e).st.metro = e.st.metro ∧
      (latchStoreFault w e).st.cal = e.st.cal := by
  rw [latchStoreFault_st]; simp

/-- `recomputeStatus` changes at most: metro. -/
@[simp] theorem recomputeStatus_keeps (e : Ev) :
    (recomputeStatus e).st.pending = e.st.pending ∧ (recomputeStatus e).st.mainSupply = e.st.mainSupply ∧
      (recomputeStatus e).st.link = e.st.link ∧ (recomputeStatus e).st.acq = e.st.acq ∧
      (recomputeStatus e).st.zm = e.st.zm ∧ (recomputeStatus e).st.axle = e.st.axle ∧
      (recomputeStatus e).st.site = e.st.site ∧ (recomputeStatus e).st.cap = e.st.cap ∧
      (recomputeStatus e).st.store = e.st.store ∧ (recomputeStatus e).st.tm = e.st.tm ∧
      (recomputeStatus e).st.cal = e.st.cal ∧ (recomputeStatus e).st.metro.valid = e.st.metro.valid ∧
      (recomputeStatus e).st.metro.switchCal = e.st.metro.switchCal := by
  rw [recomputeStatus_st]; simp

/-- `exitGreen` changes at most: cap. -/
@[simp] theorem exitGreen_keeps (s : State) :
    (exitGreen s).pending = s.pending ∧ (exitGreen s).mainSupply = s.mainSupply ∧ (exitGreen s).link = s.link ∧
      (exitGreen s).acq = s.acq ∧ (exitGreen s).zm = s.zm ∧ (exitGreen s).axle = s.axle ∧
      (exitGreen s).site = s.site ∧ (exitGreen s).store = s.store ∧ (exitGreen s).tm = s.tm ∧
      (exitGreen s).metro = s.metro ∧ (exitGreen s).cal = s.cal ∧ (exitGreen s).cap.timeout = s.cap.timeout ∧
      (exitGreen s).cap.opCounter = s.cap.opCounter := by
  simp [exitGreen]

/-- `enterWarmup` changes at most: acq. -/
@[simp] theorem enterWarmup_keeps (e : Ev) :
    (enterWarmup e).st.pending = e.st.pending ∧ (enterWarmup e).st.mainSupply = e.st.mainSupply ∧
      (enterWarmup e).st.link = e.st.link ∧ (enterWarmup e).st.zm = e.st.zm ∧
      (enterWarmup e).st.axle = e.st.axle ∧ (enterWarmup e).st.site = e.st.site ∧
      (enterWarmup e).st.cap = e.st.cap ∧ (enterWarmup e).st.store = e.st.store ∧
      (enterWarmup e).st.tm = e.st.tm ∧ (enterWarmup e).st.metro = e.st.metro ∧
      (enterWarmup e).st.cal = e.st.cal ∧ (enterWarmup e).st.acq.spikeLimit = e.st.acq.spikeLimit ∧
      (enterWarmup e).st.acq.assign = e.st.acq.assign := by
  simp [enterWarmup]

/-- `wake` changes at most: acq. -/
@[simp] theorem wake_keeps (e : Ev) :
    (wake e).st.pending = e.st.pending ∧ (wake e).st.mainSupply = e.st.mainSupply ∧
      (wake e).st.link = e.st.link ∧ (wake e).st.zm = e.st.zm ∧ (wake e).st.axle = e.st.axle ∧
      (wake e).st.site = e.st.site ∧ (wake e).st.cap = e.st.cap ∧ (wake e).st.store = e.st.store ∧
      (wake e).st.tm = e.st.tm ∧ (wake e).st.metro = e.st.metro ∧ (wake e).st.cal = e.st.cal ∧
      (wake e).st.acq.spikeLimit = e.st.acq.spikeLimit ∧
      (wake e).st.acq.assign = e.st.acq.assign := by
  unfold wake; split_ifs <;> simp

/-! ## Channels (chapter 2) -/

/-- `acquireRun` changes at most: acq, zm, cap. -/
@[simp] theorem acquireRun_keeps (inp : SampleInput) (e : Ev) :
    (acquireRun inp e).ev.st.pending = e.st.pending ∧ (acquireRun inp e).ev.st.mainSupply = e.st.mainSupply ∧
      (acquireRun inp e).ev.st.link = e.st.link ∧ (acquireRun inp e).ev.st.axle = e.st.axle ∧
      (acquireRun inp e).ev.st.site = e.st.site ∧ (acquireRun inp e).ev.st.store = e.st.store ∧
      (acquireRun inp e).ev.st.tm = e.st.tm ∧ (acquireRun inp e).ev.st.metro = e.st.metro ∧
      (acquireRun inp e).ev.st.cal = e.st.cal ∧ (acquireRun inp e).ev.st.cap.timeout = e.st.cap.timeout ∧
      (acquireRun inp e).ev.st.cap.opCounter = e.st.cap.opCounter ∧
      (acquireRun inp e).ev.st.acq.spikeLimit = e.st.acq.spikeLimit ∧
      (acquireRun inp e).ev.st.acq.assign = e.st.acq.assign := by
  unfold acquireRun; (try dsimp only); split_ifs <;> simp

/-- `beginSample` changes at most: acq, and of it only the sample number and the health assignment in force. -/
@[simp] theorem beginSample_keeps (s : State) :
    (beginSample s).pending = s.pending ∧ (beginSample s).mainSupply = s.mainSupply ∧
      (beginSample s).link = s.link ∧ (beginSample s).zm = s.zm ∧ (beginSample s).axle = s.axle ∧
      (beginSample s).site = s.site ∧ (beginSample s).cap = s.cap ∧ (beginSample s).store = s.store ∧
      (beginSample s).tm = s.tm ∧ (beginSample s).metro = s.metro ∧ (beginSample s).cal = s.cal ∧
      (beginSample s).acq.channels = s.acq.channels ∧ (beginSample s).acq.faultCapture = s.acq.faultCapture ∧
      (beginSample s).acq.spikeLimit = s.acq.spikeLimit ∧ (beginSample s).acq.scale = s.acq.scale ∧
      (beginSample s).acq.warmCount = s.acq.warmCount ∧ (beginSample s).acq.warmLength = s.acq.warmLength ∧
      (beginSample s).acq.excitation = s.acq.excitation ∧
      (beginSample s).acq.sampleNumber = s.acq.sampleNumber + 1 := by
  simp [beginSample]

/-- After `beginSample` the health assignment in force is the one that was due (R26). -/
@[simp] theorem beginSample_healthAssign (s : State) : (beginSample s).healthAssign = s.assignmentDue := by
  funext i; simp [beginSample, State.healthAssign]

/-- `acquire` puts the health assignment in force that was due (R26). -/
theorem acquire_healthAssign (inp : SampleInput) (e : Ev) :
    (acquire inp e).ev.st.healthAssign = e.st.assignmentDue := by
  rw [← beginSample_healthAssign]
  unfold acquire State.healthAssign; (try dsimp only); split <;> simp

/-- `acquire` changes at most: acq, zm, cap. -/
@[simp] theorem acquire_keeps (inp : SampleInput) (e : Ev) :
    (acquire inp e).ev.st.pending = e.st.pending ∧ (acquire inp e).ev.st.mainSupply = e.st.mainSupply ∧
      (acquire inp e).ev.st.link = e.st.link ∧ (acquire inp e).ev.st.axle = e.st.axle ∧
      (acquire inp e).ev.st.site = e.st.site ∧ (acquire inp e).ev.st.store = e.st.store ∧
      (acquire inp e).ev.st.tm = e.st.tm ∧ (acquire inp e).ev.st.metro = e.st.metro ∧
      (acquire inp e).ev.st.cal = e.st.cal ∧ (acquire inp e).ev.st.cap.timeout = e.st.cap.timeout ∧
      (acquire inp e).ev.st.cap.opCounter = e.st.cap.opCounter ∧
      (acquire inp e).ev.st.acq.spikeLimit = e.st.acq.spikeLimit := by
  unfold acquire; (try dsimp only); split <;> simp

/-- `warmupEnd` changes at most: acq, zm, cap. -/
@[simp] theorem warmupEnd_keeps (e : Ev) :
    (warmupEnd e).st.pending = e.st.pending ∧ (warmupEnd e).st.mainSupply = e.st.mainSupply ∧
      (warmupEnd e).st.link = e.st.link ∧ (warmupEnd e).st.axle = e.st.axle ∧ (warmupEnd e).st.site = e.st.site ∧
      (warmupEnd e).st.store = e.st.store ∧ (warmupEnd e).st.tm = e.st.tm ∧ (warmupEnd e).st.metro = e.st.metro ∧
      (warmupEnd e).st.cal = e.st.cal ∧ (warmupEnd e).st.cap.timeout = e.st.cap.timeout ∧
      (warmupEnd e).st.cap.opCounter = e.st.cap.opCounter ∧ (warmupEnd e).st.acq.spikeLimit = e.st.acq.spikeLimit ∧
      (warmupEnd e).st.acq.assign = e.st.acq.assign := by
  unfold warmupEnd; split_ifs <;> simp

/-- `changeChannel` changes at most: acq, zm, cap. -/
@[simp] theorem changeChannel_keeps (i : Chan) (new : Channel) (e : Ev) :
    (changeChannel i new e).st.pending = e.st.pending ∧
      (changeChannel i new e).st.mainSupply = e.st.mainSupply ∧ (changeChannel i new e).st.link = e.st.link ∧
      (changeChannel i new e).st.axle = e.st.axle ∧ (changeChannel i new e).st.site = e.st.site ∧
      (changeChannel i new e).st.store = e.st.store ∧ (changeChannel i new e).st.tm = e.st.tm ∧
      (changeChannel i new e).st.metro = e.st.metro ∧ (changeChannel i new e).st.cal = e.st.cal ∧
      (changeChannel i new e).st.cap.timeout = e.st.cap.timeout ∧
      (changeChannel i new e).st.cap.opCounter = e.st.cap.opCounter ∧
      (changeChannel i new e).st.acq.spikeLimit = e.st.acq.spikeLimit ∧
      (changeChannel i new e).st.acq.assign = e.st.acq.assign := by
  unfold changeChannel; (try dsimp only); cases (e.st.onDeck i && ((e.st.acq.channels.get i).health.included != new.health.included)) <;> simp

/-- `enterStandby` changes at most: acq. -/
@[simp] theorem enterStandby_keeps (e : Ev) :
    (enterStandby e).1.st.pending = e.st.pending ∧ (enterStandby e).1.st.mainSupply = e.st.mainSupply ∧
      (enterStandby e).1.st.link = e.st.link ∧ (enterStandby e).1.st.zm = e.st.zm ∧
      (enterStandby e).1.st.axle = e.st.axle ∧ (enterStandby e).1.st.site = e.st.site ∧
      (enterStandby e).1.st.cap = e.st.cap ∧ (enterStandby e).1.st.store = e.st.store ∧
      (enterStandby e).1.st.tm = e.st.tm ∧ (enterStandby e).1.st.metro = e.st.metro ∧
      (enterStandby e).1.st.cal = e.st.cal ∧ (enterStandby e).1.st.acq.spikeLimit = e.st.acq.spikeLimit ∧
      (enterStandby e).1.st.acq.assign = e.st.acq.assign := by
  unfold enterStandby; (try dsimp only); split_ifs <;> simp

/-- `leaveStandby` changes at most: acq. -/
@[simp] theorem leaveStandby_keeps (e : Ev) :
    (leaveStandby e).1.st.pending = e.st.pending ∧ (leaveStandby e).1.st.mainSupply = e.st.mainSupply ∧
      (leaveStandby e).1.st.link = e.st.link ∧ (leaveStandby e).1.st.zm = e.st.zm ∧
      (leaveStandby e).1.st.axle = e.st.axle ∧ (leaveStandby e).1.st.site = e.st.site ∧
      (leaveStandby e).1.st.cap = e.st.cap ∧ (leaveStandby e).1.st.store = e.st.store ∧
      (leaveStandby e).1.st.tm = e.st.tm ∧ (leaveStandby e).1.st.metro = e.st.metro ∧
      (leaveStandby e).1.st.cal = e.st.cal ∧ (leaveStandby e).1.st.acq.spikeLimit = e.st.acq.spikeLimit ∧
      (leaveStandby e).1.st.acq.assign = e.st.acq.assign := by
  simp [leaveStandby]

/-- `writeChannelSettings` changes at most: acq. -/
@[simp] theorem writeChannelSettings_keeps (n : Nat) (e : Ev) :
    (writeChannelSettings n e).1.st.pending = e.st.pending ∧
      (writeChannelSettings n e).1.st.mainSupply = e.st.mainSupply ∧
      (writeChannelSettings n e).1.st.link = e.st.link ∧ (writeChannelSettings n e).1.st.zm = e.st.zm ∧
      (writeChannelSettings n e).1.st.axle = e.st.axle ∧ (writeChannelSettings n e).1.st.site = e.st.site ∧
      (writeChannelSettings n e).1.st.cap = e.st.cap ∧ (writeChannelSettings n e).1.st.store = e.st.store ∧
      (writeChannelSettings n e).1.st.tm = e.st.tm ∧ (writeChannelSettings n e).1.st.metro = e.st.metro ∧
      (writeChannelSettings n e).1.st.cal = e.st.cal ∧
      (writeChannelSettings n e).1.st.acq.assign = e.st.acq.assign := by
  unfold writeChannelSettings; split_ifs <;> simp

/-- `excludeChannel` changes at most: acq, zm, cap. -/
@[simp] theorem excludeChannel_keeps (n : Nat) (e : Ev) :
    (excludeChannel n e).1.st.pending = e.st.pending ∧ (excludeChannel n e).1.st.mainSupply = e.st.mainSupply ∧
      (excludeChannel n e).1.st.link = e.st.link ∧ (excludeChannel n e).1.st.axle = e.st.axle ∧
      (excludeChannel n e).1.st.site = e.st.site ∧ (excludeChannel n e).1.st.store = e.st.store ∧
      (excludeChannel n e).1.st.tm = e.st.tm ∧ (excludeChannel n e).1.st.metro = e.st.metro ∧
      (excludeChannel n e).1.st.cal = e.st.cal ∧ (excludeChannel n e).1.st.cap.timeout = e.st.cap.timeout ∧
      (excludeChannel n e).1.st.cap.opCounter = e.st.cap.opCounter ∧
      (excludeChannel n e).1.st.acq.spikeLimit = e.st.acq.spikeLimit ∧
      (excludeChannel n e).1.st.acq.assign = e.st.acq.assign := by
  unfold excludeChannel; split <;> (try dsimp only) <;> (try split_ifs) <;> simp

/-- `reinstateChannel` changes at most: acq, zm, cap. -/
@[simp] theorem reinstateChannel_keeps (n : Nat) (e : Ev) :
    (reinstateChannel n e).1.st.pending = e.st.pending ∧
      (reinstateChannel n e).1.st.mainSupply = e.st.mainSupply ∧ (reinstateChannel n e).1.st.link = e.st.link ∧
      (reinstateChannel n e).1.st.axle = e.st.axle ∧ (reinstateChannel n e).1.st.site = e.st.site ∧
      (reinstateChannel n e).1.st.store = e.st.store ∧ (reinstateChannel n e).1.st.tm = e.st.tm ∧
      (reinstateChannel n e).1.st.metro = e.st.metro ∧ (reinstateChannel n e).1.st.cal = e.st.cal ∧
      (reinstateChannel n e).1.st.cap.timeout = e.st.cap.timeout ∧
      (reinstateChannel n e).1.st.cap.opCounter = e.st.cap.opCounter ∧
      (reinstateChannel n e).1.st.acq.spikeLimit = e.st.acq.spikeLimit ∧
      (reinstateChannel n e).1.st.acq.assign = e.st.acq.assign := by
  unfold reinstateChannel; split <;> (try dsimp only) <;> (try split_ifs) <;> simp

/-- `readChannel` changes at most: acq. -/
@[simp] theorem readChannel_keeps (n : Nat) (e : Ev) :
    (readChannel n e).1.st.pending = e.st.pending ∧ (readChannel n e).1.st.mainSupply = e.st.mainSupply ∧
      (readChannel n e).1.st.link = e.st.link ∧ (readChannel n e).1.st.zm = e.st.zm ∧
      (readChannel n e).1.st.axle = e.st.axle ∧ (readChannel n e).1.st.site = e.st.site ∧
      (readChannel n e).1.st.cap = e.st.cap ∧ (readChannel n e).1.st.store = e.st.store ∧
      (readChannel n e).1.st.tm = e.st.tm ∧ (readChannel n e).1.st.metro = e.st.metro ∧
      (readChannel n e).1.st.cal = e.st.cal ∧ (readChannel n e).1.st.acq.spikeLimit = e.st.acq.spikeLimit ∧
      (readChannel n e).1.st.acq.assign = e.st.acq.assign := by
  unfold readChannel; split <;> simp

/-- `readFaultCapture` changes at most: acq. -/
@[simp] theorem readFaultCapture_keeps (e : Ev) :
    (readFaultCapture e).1.st.pending = e.st.pending ∧ (readFaultCapture e).1.st.mainSupply = e.st.mainSupply ∧
      (readFaultCapture e).1.st.link = e.st.link ∧ (readFaultCapture e).1.st.zm = e.st.zm ∧
      (readFaultCapture e).1.st.axle = e.st.axle ∧ (readFaultCapture e).1.st.site = e.st.site ∧
      (readFaultCapture e).1.st.cap = e.st.cap ∧ (readFaultCapture e).1.st.store = e.st.store ∧
      (readFaultCapture e).1.st.tm = e.st.tm ∧ (readFaultCapture e).1.st.metro = e.st.metro ∧
      (readFaultCapture e).1.st.cal = e.st.cal ∧ (readFaultCapture e).1.st.acq.spikeLimit = e.st.acq.spikeLimit ∧
      (readFaultCapture e).1.st.acq.assign = e.st.acq.assign := by
  unfold readFaultCapture; split <;> simp

/-! ## Zero and motion (chapter 3) -/

/-- `takeResult` changes at most: zm, cap. -/
@[simp] theorem takeResult_keeps (r : SampleResult) (s : State) :
    (takeResult r s).pending = s.pending ∧ (takeResult r s).mainSupply = s.mainSupply ∧
      (takeResult r s).link = s.link ∧ (takeResult r s).acq = s.acq ∧ (takeResult r s).axle = s.axle ∧
      (takeResult r s).site = s.site ∧ (takeResult r s).store = s.store ∧ (takeResult r s).tm = s.tm ∧
      (takeResult r s).metro = s.metro ∧ (takeResult r s).cal = s.cal ∧
      (takeResult r s).cap.timeout = s.cap.timeout ∧ (takeResult r s).cap.opCounter = s.cap.opCounter := by
  unfold takeResult; (try dsimp only); split <;> simp

/-- `setOffsets` changes at most: zm. -/
@[simp] theorem setOffsets_keeps (z : Bank Int 4) (s : State) :
    (setOffsets z s).pending = s.pending ∧ (setOffsets z s).mainSupply = s.mainSupply ∧
      (setOffsets z s).link = s.link ∧ (setOffsets z s).acq = s.acq ∧ (setOffsets z s).axle = s.axle ∧
      (setOffsets z s).site = s.site ∧ (setOffsets z s).cap = s.cap ∧ (setOffsets z s).store = s.store ∧
      (setOffsets z s).tm = s.tm ∧ (setOffsets z s).metro = s.metro ∧ (setOffsets z s).cal = s.cal := by
  simp [setOffsets]

/-- `takeInitialZero` changes at most: zm. -/
@[simp] theorem takeInitialZero_keeps (e : Ev) :
    (takeInitialZero e).st.pending = e.st.pending ∧ (takeInitialZero e).st.mainSupply = e.st.mainSupply ∧
      (takeInitialZero e).st.link = e.st.link ∧ (takeInitialZero e).st.acq = e.st.acq ∧
      (takeInitialZero e).st.axle = e.st.axle ∧ (takeInitialZero e).st.site = e.st.site ∧
      (takeInitialZero e).st.cap = e.st.cap ∧ (takeInitialZero e).st.store = e.st.store ∧
      (takeInitialZero e).st.tm = e.st.tm ∧ (takeInitialZero e).st.metro = e.st.metro ∧
      (takeInitialZero e).st.cal = e.st.cal := by
  simp [takeInitialZero]

/-- `initialZero` changes at most: zm. -/
@[simp] theorem initialZero_keeps (e : Ev) :
    (initialZero e).st.pending = e.st.pending ∧ (initialZero e).st.mainSupply = e.st.mainSupply ∧
      (initialZero e).st.link = e.st.link ∧ (initialZero e).st.acq = e.st.acq ∧
      (initialZero e).st.axle = e.st.axle ∧ (initialZero e).st.site = e.st.site ∧
      (initialZero e).st.cap = e.st.cap ∧ (initialZero e).st.store = e.st.store ∧
      (initialZero e).st.tm = e.st.tm ∧ (initialZero e).st.metro = e.st.metro ∧ (initialZero e).st.cal = e.st.cal := by
  unfold initialZero; (try dsimp only); split_ifs <;> simp

/-- `trackingStep` changes at most: zm. -/
@[simp] theorem trackingStep_keeps (e : Ev) :
    (trackingStep e).st.pending = e.st.pending ∧ (trackingStep e).st.mainSupply = e.st.mainSupply ∧
      (trackingStep e).st.link = e.st.link ∧ (trackingStep e).st.acq = e.st.acq ∧
      (trackingStep e).st.axle = e.st.axle ∧ (trackingStep e).st.site = e.st.site ∧
      (trackingStep e).st.cap = e.st.cap ∧ (trackingStep e).st.store = e.st.store ∧
      (trackingStep e).st.tm = e.st.tm ∧ (trackingStep e).st.metro = e.st.metro ∧
      (trackingStep e).st.cal = e.st.cal := by
  simp [trackingStep]

/-- `tracking` changes at most: zm. -/
@[simp] theorem tracking_keeps (e : Ev) :
    (tracking e).st.pending = e.st.pending ∧ (tracking e).st.mainSupply = e.st.mainSupply ∧
      (tracking e).st.link = e.st.link ∧ (tracking e).st.acq = e.st.acq ∧ (tracking e).st.axle = e.st.axle ∧
      (tracking e).st.site = e.st.site ∧ (tracking e).st.cap = e.st.cap ∧ (tracking e).st.store = e.st.store ∧
      (tracking e).st.tm = e.st.tm ∧ (tracking e).st.metro = e.st.metro ∧ (tracking e).st.cal = e.st.cal := by
  unfold tracking; split_ifs <;> simp

/-- `serveZero` changes at most: zm, cap. -/
@[simp] theorem serveZero_keeps (r : SampleResult) (e : Ev) :
    (serveZero r e).st.pending = e.st.pending ∧ (serveZero r e).st.mainSupply = e.st.mainSupply ∧
      (serveZero r e).st.link = e.st.link ∧ (serveZero r e).st.acq = e.st.acq ∧
      (serveZero r e).st.axle = e.st.axle ∧ (serveZero r e).st.site = e.st.site ∧
      (serveZero r e).st.store = e.st.store ∧ (serveZero r e).st.tm = e.st.tm ∧
      (serveZero r e).st.metro = e.st.metro ∧ (serveZero r e).st.cal = e.st.cal ∧
      (serveZero r e).st.cap.timeout = e.st.cap.timeout ∧ (serveZero r e).st.cap.opCounter = e.st.cap.opCounter := by
  unfold serveZero; (try dsimp only); split_ifs <;> simp

/-- `enterZeroPending` changes at most: zm. -/
@[simp] theorem enterZeroPending_keeps (e : Ev) :
    (enterZeroPending e).st.pending = e.st.pending ∧ (enterZeroPending e).st.mainSupply = e.st.mainSupply ∧
      (enterZeroPending e).st.link = e.st.link ∧ (enterZeroPending e).st.acq = e.st.acq ∧
      (enterZeroPending e).st.axle = e.st.axle ∧ (enterZeroPending e).st.site = e.st.site ∧
      (enterZeroPending e).st.cap = e.st.cap ∧ (enterZeroPending e).st.store = e.st.store ∧
      (enterZeroPending e).st.tm = e.st.tm ∧ (enterZeroPending e).st.metro = e.st.metro ∧
      (enterZeroPending e).st.cal = e.st.cal := by
  unfold enterZeroPending; simp

/-- `setZeroAgain` changes at most: zm. -/
@[simp] theorem setZeroAgain_keeps (e : Ev) :
    (setZeroAgain e).1.st.pending = e.st.pending ∧ (setZeroAgain e).1.st.mainSupply = e.st.mainSupply ∧
      (setZeroAgain e).1.st.link = e.st.link ∧ (setZeroAgain e).1.st.acq = e.st.acq ∧
      (setZeroAgain e).1.st.axle = e.st.axle ∧ (setZeroAgain e).1.st.site = e.st.site ∧
      (setZeroAgain e).1.st.cap = e.st.cap ∧ (setZeroAgain e).1.st.store = e.st.store ∧
      (setZeroAgain e).1.st.tm = e.st.tm ∧ (setZeroAgain e).1.st.metro = e.st.metro ∧
      (setZeroAgain e).1.st.cal = e.st.cal := by
  unfold setZeroAgain; (try dsimp only); split_ifs <;> simp

/-- `setZeroFirst` changes at most: zm. -/
@[simp] theorem setZeroFirst_keeps (e : Ev) :
    (setZeroFirst e).1.st.pending = e.st.pending ∧ (setZeroFirst e).1.st.mainSupply = e.st.mainSupply ∧
      (setZeroFirst e).1.st.link = e.st.link ∧ (setZeroFirst e).1.st.acq = e.st.acq ∧
      (setZeroFirst e).1.st.axle = e.st.axle ∧ (setZeroFirst e).1.st.site = e.st.site ∧
      (setZeroFirst e).1.st.cap = e.st.cap ∧ (setZeroFirst e).1.st.store = e.st.store ∧
      (setZeroFirst e).1.st.tm = e.st.tm ∧ (setZeroFirst e).1.st.metro = e.st.metro ∧
      (setZeroFirst e).1.st.cal = e.st.cal := by
  unfold setZeroFirst; (try dsimp only); split_ifs <;> simp

/-- `setZero` changes at most: zm. -/
@[simp] theorem setZero_keeps (e : Ev) :
    (setZero e).1.st.pending = e.st.pending ∧ (setZero e).1.st.mainSupply = e.st.mainSupply ∧
      (setZero e).1.st.link = e.st.link ∧ (setZero e).1.st.acq = e.st.acq ∧ (setZero e).1.st.axle = e.st.axle ∧
      (setZero e).1.st.site = e.st.site ∧ (setZero e).1.st.cap = e.st.cap ∧ (setZero e).1.st.store = e.st.store ∧
      (setZero e).1.st.tm = e.st.tm ∧ (setZero e).1.st.metro = e.st.metro ∧ (setZero e).1.st.cal = e.st.cal := by
  unfold setZero; (try dsimp only); split_ifs <;> (try split) <;> simp

/-- `readWeight` changes at most: nothing. -/
@[simp] theorem readWeight_keeps (e : Ev) :
    (readWeight e).1.st.pending = e.st.pending ∧ (readWeight e).1.st.mainSupply = e.st.mainSupply ∧
      (readWeight e).1.st.link = e.st.link ∧ (readWeight e).1.st.acq = e.st.acq ∧
      (readWeight e).1.st.zm = e.st.zm ∧ (readWeight e).1.st.axle = e.st.axle ∧
      (readWeight e).1.st.site = e.st.site ∧ (readWeight e).1.st.cap = e.st.cap ∧
      (readWeight e).1.st.store = e.st.store ∧ (readWeight e).1.st.tm = e.st.tm ∧
      (readWeight e).1.st.metro = e.st.metro ∧ (readWeight e).1.st.cal = e.st.cal := by
  simp [readWeight]

/-! ## Site tables (chapter 5) -/

/-- `writeGroupLimits` changes at most: site. -/
@[simp] theorem writeGroupLimits_keeps (ok : Bool) (l : GroupLimits) (e : Ev) :
    (writeGroupLimits ok l e).1.st.pending = e.st.pending ∧
      (writeGroupLimits ok l e).1.st.mainSupply = e.st.mainSupply ∧
      (writeGroupLimits ok l e).1.st.link = e.st.link ∧ (writeGroupLimits ok l e).1.st.acq = e.st.acq ∧
      (writeGroupLimits ok l e).1.st.zm = e.st.zm ∧ (writeGroupLimits ok l e).1.st.axle = e.st.axle ∧
      (writeGroupLimits ok l e).1.st.cap = e.st.cap ∧ (writeGroupLimits ok l e).1.st.store = e.st.store ∧
      (writeGroupLimits ok l e).1.st.tm = e.st.tm ∧ (writeGroupLimits ok l e).1.st.metro = e.st.metro ∧
      (writeGroupLimits ok l e).1.st.cal = e.st.cal := by
  unfold writeGroupLimits settingsWrite; split_ifs <;> simp

/-- `writeClass` changes at most: site. -/
@[simp] theorem writeClass_keeps (ok : Bool) (w : ClassWrite) (e : Ev) :
    (writeClass ok w e).1.st.pending = e.st.pending ∧ (writeClass ok w e).1.st.mainSupply = e.st.mainSupply ∧
      (writeClass ok w e).1.st.link = e.st.link ∧ (writeClass ok w e).1.st.acq = e.st.acq ∧
      (writeClass ok w e).1.st.zm = e.st.zm ∧ (writeClass ok w e).1.st.axle = e.st.axle ∧
      (writeClass ok w e).1.st.cap = e.st.cap ∧ (writeClass ok w e).1.st.store = e.st.store ∧
      (writeClass ok w e).1.st.tm = e.st.tm ∧ (writeClass ok w e).1.st.metro = e.st.metro ∧
      (writeClass ok w e).1.st.cal = e.st.cal := by
  unfold writeClass settingsWrite; split <;> (try split_ifs) <;> simp

/-- `readSiteTables` changes at most: nothing. -/
@[simp] theorem readSiteTables_keeps (e : Ev) :
    (readSiteTables e).1.st.pending = e.st.pending ∧ (readSiteTables e).1.st.mainSupply = e.st.mainSupply ∧
      (readSiteTables e).1.st.link = e.st.link ∧ (readSiteTables e).1.st.acq = e.st.acq ∧
      (readSiteTables e).1.st.zm = e.st.zm ∧ (readSiteTables e).1.st.axle = e.st.axle ∧
      (readSiteTables e).1.st.site = e.st.site ∧ (readSiteTables e).1.st.cap = e.st.cap ∧
      (readSiteTables e).1.st.store = e.st.store ∧ (readSiteTables e).1.st.tm = e.st.tm ∧
      (readSiteTables e).1.st.metro = e.st.metro ∧ (readSiteTables e).1.st.cal = e.st.cal := by
  simp [readSiteTables]

/-! ## Transactions (chapter 7) -/

/-- `setReserved` changes at most: tm. -/
@[simp] theorem setReserved_keeps (n : Nat) (s : State) :
    (setReserved n s).pending = s.pending ∧ (setReserved n s).mainSupply = s.mainSupply ∧
      (setReserved n s).link = s.link ∧ (setReserved n s).acq = s.acq ∧ (setReserved n s).zm = s.zm ∧
      (setReserved n s).axle = s.axle ∧ (setReserved n s).site = s.site ∧ (setReserved n s).cap = s.cap ∧
      (setReserved n s).store = s.store ∧ (setReserved n s).metro = s.metro ∧ (setReserved n s).cal = s.cal := by
  simp [setReserved]

/-- `openWrite` changes at most: store, tm. -/
@[simp] theorem openWrite_keeps (ok : Bool) (k : TxKind) (r : CaptureResult) (e : Ev) :
    (openWrite ok k r e).st.pending = e.st.pending ∧ (openWrite ok k r e).st.mainSupply = e.st.mainSupply ∧
      (openWrite ok k r e).st.link = e.st.link ∧ (openWrite ok k r e).st.acq = e.st.acq ∧
      (openWrite ok k r e).st.zm = e.st.zm ∧ (openWrite ok k r e).st.axle = e.st.axle ∧
      (openWrite ok k r e).st.site = e.st.site ∧ (openWrite ok k r e).st.cap = e.st.cap ∧
      (openWrite ok k r e).st.metro = e.st.metro ∧ (openWrite ok k r e).st.cal = e.st.cal ∧
      (openWrite ok k r e).st.store.config = e.st.store.config ∧
      (openWrite ok k r e).st.store.checksum = e.st.store.checksum ∧
      (openWrite ok k r e).st.store.eventCounter = e.st.store.eventCounter ∧
      (openWrite ok k r e).st.store.trail = e.st.store.trail ∧
      (openWrite ok k r e).st.store.nextSeq = e.st.store.nextSeq ∧
      (openWrite ok k r e).st.store.audits = e.st.store.audits ∧
      (openWrite ok k r e).st.store.auditCounter = e.st.store.auditCounter := by
  cases ok <;> simp [openWrite]

/-- `completeFirst` changes at most: store, tm. -/
@[simp] theorem completeFirst_keeps (ok : Bool) (r : CaptureResult) (e : Ev) :
    (completeFirst ok r e).1.st.pending = e.st.pending ∧
      (completeFirst ok r e).1.st.mainSupply = e.st.mainSupply ∧ (completeFirst ok r e).1.st.link = e.st.link ∧
      (completeFirst ok r e).1.st.acq = e.st.acq ∧ (completeFirst ok r e).1.st.zm = e.st.zm ∧
      (completeFirst ok r e).1.st.axle = e.st.axle ∧ (completeFirst ok r e).1.st.site = e.st.site ∧
      (completeFirst ok r e).1.st.cap = e.st.cap ∧ (completeFirst ok r e).1.st.metro = e.st.metro ∧
      (completeFirst ok r e).1.st.cal = e.st.cal ∧ (completeFirst ok r e).1.st.store.config = e.st.store.config ∧
      (completeFirst ok r e).1.st.store.checksum = e.st.store.checksum ∧
      (completeFirst ok r e).1.st.store.eventCounter = e.st.store.eventCounter ∧
      (completeFirst ok r e).1.st.store.trail = e.st.store.trail ∧
      (completeFirst ok r e).1.st.store.nextSeq = e.st.store.nextSeq ∧
      (completeFirst ok r e).1.st.store.audits = e.st.store.audits ∧
      (completeFirst ok r e).1.st.store.auditCounter = e.st.store.auditCounter := by
  simp [completeFirst]

/-- `issueWrite` changes at most the record store and the transaction manager, and of the store what `also` changes
beside the tickets and their counter. -/
theorem issueWrite_keeps (ok : Bool) (t : Ticket) (also : Store → Store) (e : Ev) :
    ∃ st tm, (issueWrite ok t also e).st = (e.st.setStore st).setTm tm ∧
      (st = e.st.store ∨
        st = also { e.st.store with tickets := e.st.store.tickets ++ [t], ticketCounter := t.number }) := by
  cases ok
  · exact ⟨e.st.store, _, by simp [issueWrite, latchStoreFault_st]; rfl, Or.inl rfl⟩
  · exact ⟨_, _, by simp [issueWrite, setReserved]; rfl, Or.inr rfl⟩

/-- `completeSecond` changes at most: store, tm. -/
@[simp] theorem completeSecond_keeps (ok : Bool) (r : CaptureResult) (e : Ev) :
    (completeSecond ok r e).1.st.pending = e.st.pending ∧
      (completeSecond ok r e).1.st.mainSupply = e.st.mainSupply ∧ (completeSecond ok r e).1.st.link = e.st.link ∧
      (completeSecond ok r e).1.st.acq = e.st.acq ∧ (completeSecond ok r e).1.st.zm = e.st.zm ∧
      (completeSecond ok r e).1.st.axle = e.st.axle ∧ (completeSecond ok r e).1.st.site = e.st.site ∧
      (completeSecond ok r e).1.st.cap = e.st.cap ∧ (completeSecond ok r e).1.st.metro = e.st.metro ∧
      (completeSecond ok r e).1.st.cal = e.st.cal ∧
      (completeSecond ok r e).1.st.store.config = e.st.store.config ∧
      (completeSecond ok r e).1.st.store.checksum = e.st.store.checksum ∧
      (completeSecond ok r e).1.st.store.eventCounter = e.st.store.eventCounter ∧
      (completeSecond ok r e).1.st.store.trail = e.st.store.trail ∧
      (completeSecond ok r e).1.st.store.nextSeq = e.st.store.nextSeq ∧
      (completeSecond ok r e).1.st.store.audits = e.st.store.audits ∧
      (completeSecond ok r e).1.st.store.auditCounter = e.st.store.auditCounter := by
  unfold completeSecond; split <;> (try split) <;> cases ok <;> simp [issueWrite, removeEntry, reworkEntry]

/-- `completeTare` changes at most: store, tm. -/
@[simp] theorem completeTare_keeps (ok : Bool) (r : CaptureResult) (e : Ev) :
    (completeTare ok r e).1.st.pending = e.st.pending ∧
      (completeTare ok r e).1.st.mainSupply = e.st.mainSupply ∧ (completeTare ok r e).1.st.link = e.st.link ∧
      (completeTare ok r e).1.st.acq = e.st.acq ∧ (completeTare ok r e).1.st.zm = e.st.zm ∧
      (completeTare ok r e).1.st.axle = e.st.axle ∧ (completeTare ok r e).1.st.site = e.st.site ∧
      (completeTare ok r e).1.st.cap = e.st.cap ∧ (completeTare ok r e).1.st.metro = e.st.metro ∧
      (completeTare ok r e).1.st.cal = e.st.cal ∧ (completeTare ok r e).1.st.store.config = e.st.store.config ∧
      (completeTare ok r e).1.st.store.checksum = e.st.store.checksum ∧
      (completeTare ok r e).1.st.store.eventCounter = e.st.store.eventCounter ∧
      (completeTare ok r e).1.st.store.trail = e.st.store.trail ∧
      (completeTare ok r e).1.st.store.nextSeq = e.st.store.nextSeq ∧
      (completeTare ok r e).1.st.store.audits = e.st.store.audits ∧
      (completeTare ok r e).1.st.store.auditCounter = e.st.store.auditCounter := by
  unfold completeTare; (try dsimp only); split <;> cases ok <;> simp

/-- `completeSinglePass` changes at most: store, tm. -/
@[simp] theorem completeSinglePass_keeps (ok : Bool) (r : CaptureResult) (e : Ev) :
    (completeSinglePass ok r e).1.st.pending = e.st.pending ∧
      (completeSinglePass ok r e).1.st.mainSupply = e.st.mainSupply ∧
      (completeSinglePass ok r e).1.st.link = e.st.link ∧ (completeSinglePass ok r e).1.st.acq = e.st.acq ∧
      (completeSinglePass ok r e).1.st.zm = e.st.zm ∧ (completeSinglePass ok r e).1.st.axle = e.st.axle ∧
      (completeSinglePass ok r e).1.st.site = e.st.site ∧ (completeSinglePass ok r e).1.st.cap = e.st.cap ∧
      (completeSinglePass ok r e).1.st.metro = e.st.metro ∧ (completeSinglePass ok r e).1.st.cal = e.st.cal ∧
      (completeSinglePass ok r e).1.st.store.config = e.st.store.config ∧
      (completeSinglePass ok r e).1.st.store.checksum = e.st.store.checksum ∧
      (completeSinglePass ok r e).1.st.store.eventCounter = e.st.store.eventCounter ∧
      (completeSinglePass ok r e).1.st.store.trail = e.st.store.trail ∧
      (completeSinglePass ok r e).1.st.store.nextSeq = e.st.store.nextSeq ∧
      (completeSinglePass ok r e).1.st.store.audits = e.st.store.audits ∧
      (completeSinglePass ok r e).1.st.store.auditCounter = e.st.store.auditCounter := by
  unfold completeSinglePass; (try dsimp only); split <;> cases ok <;> simp [issueWrite]

/-- `completeKind` changes at most: store, tm. -/
@[simp] theorem completeKind_keeps (ok : Bool) (r : CaptureResult) (e : Ev) :
    (completeKind ok r e).1.st.pending = e.st.pending ∧
      (completeKind ok r e).1.st.mainSupply = e.st.mainSupply ∧ (completeKind ok r e).1.st.link = e.st.link ∧
      (completeKind ok r e).1.st.acq = e.st.acq ∧ (completeKind ok r e).1.st.zm = e.st.zm ∧
      (completeKind ok r e).1.st.axle = e.st.axle ∧ (completeKind ok r e).1.st.site = e.st.site ∧
      (completeKind ok r e).1.st.cap = e.st.cap ∧ (completeKind ok r e).1.st.metro = e.st.metro ∧
      (completeKind ok r e).1.st.cal = e.st.cal ∧ (completeKind ok r e).1.st.store.config = e.st.store.config ∧
      (completeKind ok r e).1.st.store.checksum = e.st.store.checksum ∧
      (completeKind ok r e).1.st.store.eventCounter = e.st.store.eventCounter ∧
      (completeKind ok r e).1.st.store.trail = e.st.store.trail ∧
      (completeKind ok r e).1.st.store.nextSeq = e.st.store.nextSeq ∧
      (completeKind ok r e).1.st.store.audits = e.st.store.audits ∧
      (completeKind ok r e).1.st.store.auditCounter = e.st.store.auditCounter := by
  unfold completeKind; split <;> (try split_ifs) <;> simp

/-- `staleWrites` changes at most the record store and the transaction manager. -/
@[simp] theorem staleWrites_keeps (xs : List OpenEntry) (oks : List Bool) (e : Ev) :
    (staleWrites xs oks e).st.pending = e.st.pending ∧ (staleWrites xs oks e).st.mainSupply = e.st.mainSupply ∧
      (staleWrites xs oks e).st.link = e.st.link ∧ (staleWrites xs oks e).st.acq = e.st.acq ∧
      (staleWrites xs oks e).st.zm = e.st.zm ∧ (staleWrites xs oks e).st.axle = e.st.axle ∧
      (staleWrites xs oks e).st.site = e.st.site ∧ (staleWrites xs oks e).st.cap = e.st.cap ∧
      (staleWrites xs oks e).st.metro = e.st.metro ∧ (staleWrites xs oks e).st.cal = e.st.cal ∧
      (staleWrites xs oks e).st.store.config = e.st.store.config ∧
      (staleWrites xs oks e).st.store.checksum = e.st.store.checksum ∧
      (staleWrites xs oks e).st.store.eventCounter = e.st.store.eventCounter ∧
      (staleWrites xs oks e).st.store.trail = e.st.store.trail ∧
      (staleWrites xs oks e).st.store.nextSeq = e.st.store.nextSeq ∧
      (staleWrites xs oks e).st.store.audits = e.st.store.audits ∧
      (staleWrites xs oks e).st.store.auditCounter = e.st.store.auditCounter := by
  induction xs generalizing oks e with
  | nil => simp [staleWrites]
  | cons x r ih =>
    unfold staleWrites
    split_ifs
    · simp only [ih]; simp [markStale]
    · simp

/-- `hourEvent` changes at most: store, tm. -/
@[simp] theorem hourEvent_keeps (oks : List Bool) (now : DateTime) (e : Ev) :
    (hourEvent oks now e).st.pending = e.st.pending ∧ (hourEvent oks now e).st.mainSupply = e.st.mainSupply ∧
      (hourEvent oks now e).st.link = e.st.link ∧ (hourEvent oks now e).st.acq = e.st.acq ∧
      (hourEvent oks now e).st.zm = e.st.zm ∧ (hourEvent oks now e).st.axle = e.st.axle ∧
      (hourEvent oks now e).st.site = e.st.site ∧ (hourEvent oks now e).st.cap = e.st.cap ∧
      (hourEvent oks now e).st.metro = e.st.metro ∧ (hourEvent oks now e).st.cal = e.st.cal ∧
      (hourEvent oks now e).st.store.config = e.st.store.config ∧
      (hourEvent oks now e).st.store.checksum = e.st.store.checksum ∧
      (hourEvent oks now e).st.store.eventCounter = e.st.store.eventCounter ∧
      (hourEvent oks now e).st.store.trail = e.st.store.trail ∧
      (hourEvent oks now e).st.store.nextSeq = e.st.store.nextSeq ∧
      (hourEvent oks now e).st.store.audits = e.st.store.audits ∧
      (hourEvent oks now e).st.store.auditCounter = e.st.store.auditCounter := by
  unfold hourEvent; split_ifs <;> simp

/-- `readTransaction` changes at most: nothing. -/
@[simp] theorem readTransaction_keeps (n : Nat) (e : Ev) :
    (readTransaction n e).1.st.pending = e.st.pending ∧
      (readTransaction n e).1.st.mainSupply = e.st.mainSupply ∧ (readTransaction n e).1.st.link = e.st.link ∧
      (readTransaction n e).1.st.acq = e.st.acq ∧ (readTransaction n e).1.st.zm = e.st.zm ∧
      (readTransaction n e).1.st.axle = e.st.axle ∧ (readTransaction n e).1.st.site = e.st.site ∧
      (readTransaction n e).1.st.cap = e.st.cap ∧ (readTransaction n e).1.st.store = e.st.store ∧
      (readTransaction n e).1.st.tm = e.st.tm ∧ (readTransaction n e).1.st.metro = e.st.metro ∧
      (readTransaction n e).1.st.cal = e.st.cal := by
  unfold readTransaction; (try dsimp only); (try split) <;> simp

/-- `listTransactions` changes at most: nothing. -/
@[simp] theorem listTransactions_keeps (n : Nat) (e : Ev) :
    (listTransactions n e).1.st.pending = e.st.pending ∧
      (listTransactions n e).1.st.mainSupply = e.st.mainSupply ∧ (listTransactions n e).1.st.link = e.st.link ∧
      (listTransactions n e).1.st.acq = e.st.acq ∧ (listTransactions n e).1.st.zm = e.st.zm ∧
      (listTransactions n e).1.st.axle = e.st.axle ∧ (listTransactions n e).1.st.site = e.st.site ∧
      (listTransactions n e).1.st.cap = e.st.cap ∧ (listTransactions n e).1.st.store = e.st.store ∧
      (listTransactions n e).1.st.tm = e.st.tm ∧ (listTransactions n e).1.st.metro = e.st.metro ∧
      (listTransactions n e).1.st.cal = e.st.cal := by
  unfold listTransactions; (try dsimp only); (try split) <;> simp

/-- `readStoredTare` changes at most: nothing. -/
@[simp] theorem readStoredTare_keeps (v : Text) (e : Ev) :
    (readStoredTare v e).1.st.pending = e.st.pending ∧ (readStoredTare v e).1.st.mainSupply = e.st.mainSupply ∧
      (readStoredTare v e).1.st.link = e.st.link ∧ (readStoredTare v e).1.st.acq = e.st.acq ∧
      (readStoredTare v e).1.st.zm = e.st.zm ∧ (readStoredTare v e).1.st.axle = e.st.axle ∧
      (readStoredTare v e).1.st.site = e.st.site ∧ (readStoredTare v e).1.st.cap = e.st.cap ∧
      (readStoredTare v e).1.st.store = e.st.store ∧ (readStoredTare v e).1.st.tm = e.st.tm ∧
      (readStoredTare v e).1.st.metro = e.st.metro ∧ (readStoredTare v e).1.st.cal = e.st.cal := by
  unfold readStoredTare; (try dsimp only); (try split) <;> simp

/-- `listStoredTares` changes at most: nothing. -/
@[simp] theorem listStoredTares_keeps (v : Text) (e : Ev) :
    (listStoredTares v e).1.st.pending = e.st.pending ∧
      (listStoredTares v e).1.st.mainSupply = e.st.mainSupply ∧ (listStoredTares v e).1.st.link = e.st.link ∧
      (listStoredTares v e).1.st.acq = e.st.acq ∧ (listStoredTares v e).1.st.zm = e.st.zm ∧
      (listStoredTares v e).1.st.axle = e.st.axle ∧ (listStoredTares v e).1.st.site = e.st.site ∧
      (listStoredTares v e).1.st.cap = e.st.cap ∧ (listStoredTares v e).1.st.store = e.st.store ∧
      (listStoredTares v e).1.st.tm = e.st.tm ∧ (listStoredTares v e).1.st.metro = e.st.metro ∧
      (listStoredTares v e).1.st.cal = e.st.cal := by
  unfold listStoredTares; (try dsimp only); (try split) <;> simp

/-- `fetchTicket` changes at most: nothing. -/
@[simp] theorem fetchTicket_keeps (e : Ev) :
    (fetchTicket e).1.st.pending = e.st.pending ∧ (fetchTicket e).1.st.mainSupply = e.st.mainSupply ∧
      (fetchTicket e).1.st.link = e.st.link ∧ (fetchTicket e).1.st.acq = e.st.acq ∧
      (fetchTicket e).1.st.zm = e.st.zm ∧ (fetchTicket e).1.st.axle = e.st.axle ∧
      (fetchTicket e).1.st.site = e.st.site ∧ (fetchTicket e).1.st.cap = e.st.cap ∧
      (fetchTicket e).1.st.store = e.st.store ∧ (fetchTicket e).1.st.tm = e.st.tm ∧
      (fetchTicket e).1.st.metro = e.st.metro ∧ (fetchTicket e).1.st.cal = e.st.cal := by
  unfold fetchTicket; (try dsimp only); (try split) <;> simp

/-- `cancelTransaction` changes at most: store, tm. -/
@[simp] theorem cancelTransaction_keeps (ok : Bool) (n : Nat) (e : Ev) :
    (cancelTransaction ok n e).1.st.pending = e.st.pending ∧
      (cancelTransaction ok n e).1.st.mainSupply = e.st.mainSupply ∧
      (cancelTransaction ok n e).1.st.link = e.st.link ∧ (cancelTransaction ok n e).1.st.acq = e.st.acq ∧
      (cancelTransaction ok n e).1.st.zm = e.st.zm ∧ (cancelTransaction ok n e).1.st.axle = e.st.axle ∧
      (cancelTransaction ok n e).1.st.site = e.st.site ∧ (cancelTransaction ok n e).1.st.cap = e.st.cap ∧
      (cancelTransaction ok n e).1.st.metro = e.st.metro ∧ (cancelTransaction ok n e).1.st.cal = e.st.cal ∧
      (cancelTransaction ok n e).1.st.store.config = e.st.store.config ∧
      (cancelTransaction ok n e).1.st.store.checksum = e.st.store.checksum ∧
      (cancelTransaction ok n e).1.st.store.eventCounter = e.st.store.eventCounter ∧
      (cancelTransaction ok n e).1.st.store.trail = e.st.store.trail ∧
      (cancelTransaction ok n e).1.st.store.nextSeq = e.st.store.nextSeq ∧
      (cancelTransaction ok n e).1.st.store.audits = e.st.store.audits ∧
      (cancelTransaction ok n e).1.st.store.auditCounter = e.st.store.auditCounter := by
  unfold cancelTransaction removalWrite; split_ifs <;> cases ok <;> simp [removeEntry]

/-- `deleteStoredTare` changes at most: store, tm. -/
@[simp] theorem deleteStoredTare_keeps (ok : Bool) (v : Text) (e : Ev) :
    (deleteStoredTare ok v e).1.st.pending = e.st.pending ∧
      (deleteStoredTare ok v e).1.st.mainSupply = e.st.mainSupply ∧
      (deleteStoredTare ok v e).1.st.link = e.st.link ∧ (deleteStoredTare ok v e).1.st.acq = e.st.acq ∧
      (deleteStoredTare ok v e).1.st.zm = e.st.zm ∧ (deleteStoredTare ok v e).1.st.axle = e.st.axle ∧
      (deleteStoredTare ok v e).1.st.site = e.st.site ∧ (deleteStoredTare ok v e).1.st.cap = e.st.cap ∧
      (deleteStoredTare ok v e).1.st.metro = e.st.metro ∧ (deleteStoredTare ok v e).1.st.cal = e.st.cal ∧
      (deleteStoredTare ok v e).1.st.store.config = e.st.store.config ∧
      (deleteStoredTare ok v e).1.st.store.checksum = e.st.store.checksum ∧
      (deleteStoredTare ok v e).1.st.store.eventCounter = e.st.store.eventCounter ∧
      (deleteStoredTare ok v e).1.st.store.trail = e.st.store.trail ∧
      (deleteStoredTare ok v e).1.st.store.nextSeq = e.st.store.nextSeq ∧
      (deleteStoredTare ok v e).1.st.store.audits = e.st.store.audits ∧
      (deleteStoredTare ok v e).1.st.store.auditCounter = e.st.store.auditCounter := by
  unfold deleteStoredTare removalWrite; split_ifs <;> (try split) <;> cases ok <;> simp

/-- `releaseTicket` changes at most: store, tm. -/
@[simp] theorem releaseTicket_keeps (ok : Bool) (n : Nat) (e : Ev) :
    (releaseTicket ok n e).1.st.pending = e.st.pending ∧
      (releaseTicket ok n e).1.st.mainSupply = e.st.mainSupply ∧ (releaseTicket ok n e).1.st.link = e.st.link ∧
      (releaseTicket ok n e).1.st.acq = e.st.acq ∧ (releaseTicket ok n e).1.st.zm = e.st.zm ∧
      (releaseTicket ok n e).1.st.axle = e.st.axle ∧ (releaseTicket ok n e).1.st.site = e.st.site ∧
      (releaseTicket ok n e).1.st.cap = e.st.cap ∧ (releaseTicket ok n e).1.st.metro = e.st.metro ∧
      (releaseTicket ok n e).1.st.cal = e.st.cal ∧ (releaseTicket ok n e).1.st.store.config = e.st.store.config ∧
      (releaseTicket ok n e).1.st.store.checksum = e.st.store.checksum ∧
      (releaseTicket ok n e).1.st.store.eventCounter = e.st.store.eventCounter ∧
      (releaseTicket ok n e).1.st.store.trail = e.st.store.trail ∧
      (releaseTicket ok n e).1.st.store.nextSeq = e.st.store.nextSeq ∧
      (releaseTicket ok n e).1.st.store.audits = e.st.store.audits ∧
      (releaseTicket ok n e).1.st.store.auditCounter = e.st.store.auditCounter := by
  unfold releaseTicket removalWrite; split_ifs <;> (try split) <;> (try split_ifs) <;> cases ok <;> simp

/-- `writeTicketSettings` changes at most: site. -/
@[simp] theorem writeTicketSettings_keeps (ok : Bool) (t : TicketSettings) (e : Ev) :
    (writeTicketSettings ok t e).1.st.pending = e.st.pending ∧
      (writeTicketSettings ok t e).1.st.mainSupply = e.st.mainSupply ∧
      (writeTicketSettings ok t e).1.st.link = e.st.link ∧ (writeTicketSettings ok t e).1.st.acq = e.st.acq ∧
      (writeTicketSettings ok t e).1.st.zm = e.st.zm ∧ (writeTicketSettings ok t e).1.st.axle = e.st.axle ∧
      (writeTicketSettings ok t e).1.st.cap = e.st.cap ∧ (writeTicketSettings ok t e).1.st.store = e.st.store ∧
      (writeTicketSettings ok t e).1.st.tm = e.st.tm ∧ (writeTicketSettings ok t e).1.st.metro = e.st.metro ∧
      (writeTicketSettings ok t e).1.st.cal = e.st.cal := by
  unfold writeTicketSettings settingsWrite; split_ifs <;> simp

/-! ## Capture operations (chapter 6) -/

/-- `setSlot` changes at most: cap. -/
@[simp] theorem setSlot_keeps (x : Slot) (s : State) :
    (setSlot x s).pending = s.pending ∧ (setSlot x s).mainSupply = s.mainSupply ∧ (setSlot x s).link = s.link ∧
      (setSlot x s).acq = s.acq ∧ (setSlot x s).zm = s.zm ∧ (setSlot x s).axle = s.axle ∧
      (setSlot x s).site = s.site ∧ (setSlot x s).store = s.store ∧ (setSlot x s).tm = s.tm ∧
      (setSlot x s).metro = s.metro ∧ (setSlot x s).cal = s.cal ∧ (setSlot x s).cap.timeout = s.cap.timeout ∧
      (setSlot x s).cap.opCounter = s.cap.opCounter := by
  simp [setSlot]

/-- `failOp` changes at most: cap, tm. -/
@[simp] theorem failOp_keeps (op : Operation) (r : FailReason) (e : Ev) :
    (failOp op r e).st.pending = e.st.pending ∧ (failOp op r e).st.mainSupply = e.st.mainSupply ∧
      (failOp op r e).st.link = e.st.link ∧ (failOp op r e).st.acq = e.st.acq ∧ (failOp op r e).st.zm = e.st.zm ∧
      (failOp op r e).st.axle = e.st.axle ∧ (failOp op r e).st.site = e.st.site ∧
      (failOp op r e).st.store = e.st.store ∧ (failOp op r e).st.metro = e.st.metro ∧
      (failOp op r e).st.cal = e.st.cal ∧ (failOp op r e).st.cap.timeout = e.st.cap.timeout ∧
      (failOp op r e).st.cap.opCounter = e.st.cap.opCounter := by
  simp [failOp]

/-- `completionLamps` changes at most: cap. -/
@[simp] theorem completionLamps_keeps (o : Completion) (s : State) :
    (completionLamps o s).pending = s.pending ∧ (completionLamps o s).mainSupply = s.mainSupply ∧
      (completionLamps o s).link = s.link ∧ (completionLamps o s).acq = s.acq ∧ (completionLamps o s).zm = s.zm ∧
      (completionLamps o s).axle = s.axle ∧ (completionLamps o s).site = s.site ∧
      (completionLamps o s).store = s.store ∧ (completionLamps o s).tm = s.tm ∧
      (completionLamps o s).metro = s.metro ∧ (completionLamps o s).cal = s.cal ∧
      (completionLamps o s).cap.timeout = s.cap.timeout ∧ (completionLamps o s).cap.opCounter = s.cap.opCounter := by
  unfold completionLamps; split <;> simp

/-- `completeOp` changes at most: cap, store, tm. -/
@[simp] theorem completeOp_keeps (ok : Bool) (op : Operation) (r : CaptureResult) (e : Ev) :
    (completeOp ok op r e).st.pending = e.st.pending ∧ (completeOp ok op r e).st.mainSupply = e.st.mainSupply ∧
      (completeOp ok op r e).st.link = e.st.link ∧ (completeOp ok op r e).st.acq = e.st.acq ∧
      (completeOp ok op r e).st.zm = e.st.zm ∧ (completeOp ok op r e).st.axle = e.st.axle ∧
      (completeOp ok op r e).st.site = e.st.site ∧ (completeOp ok op r e).st.metro = e.st.metro ∧
      (completeOp ok op r e).st.cal = e.st.cal ∧ (completeOp ok op r e).st.cap.timeout = e.st.cap.timeout ∧
      (completeOp ok op r e).st.cap.opCounter = e.st.cap.opCounter ∧
      (completeOp ok op r e).st.store.config = e.st.store.config ∧
      (completeOp ok op r e).st.store.checksum = e.st.store.checksum ∧
      (completeOp ok op r e).st.store.eventCounter = e.st.store.eventCounter ∧
      (completeOp ok op r e).st.store.trail = e.st.store.trail ∧
      (completeOp ok op r e).st.store.nextSeq = e.st.store.nextSeq ∧
      (completeOp ok op r e).st.store.audits = e.st.store.audits ∧
      (completeOp ok op r e).st.store.auditCounter = e.st.store.auditCounter := by
  unfold completeOp; (try dsimp only); split <;> simp

/-- `takeWhole` changes at most: cap, store, tm. -/
@[simp] theorem takeWhole_keeps (ok : Bool) (op : Operation) (e : Ev) :
    (takeWhole ok op e).st.pending = e.st.pending ∧ (takeWhole ok op e).st.mainSupply = e.st.mainSupply ∧
      (takeWhole ok op e).st.link = e.st.link ∧ (takeWhole ok op e).st.acq = e.st.acq ∧
      (takeWhole ok op e).st.zm = e.st.zm ∧ (takeWhole ok op e).st.axle = e.st.axle ∧
      (takeWhole ok op e).st.site = e.st.site ∧ (takeWhole ok op e).st.metro = e.st.metro ∧
      (takeWhole ok op e).st.cal = e.st.cal ∧ (takeWhole ok op e).st.cap.timeout = e.st.cap.timeout ∧
      (takeWhole ok op e).st.cap.opCounter = e.st.cap.opCounter ∧
      (takeWhole ok op e).st.store.config = e.st.store.config ∧
      (takeWhole ok op e).st.store.checksum = e.st.store.checksum ∧
      (takeWhole ok op e).st.store.eventCounter = e.st.store.eventCounter ∧
      (takeWhole ok op e).st.store.trail = e.st.store.trail ∧
      (takeWhole ok op e).st.store.nextSeq = e.st.store.nextSeq ∧
      (takeWhole ok op e).st.store.audits = e.st.store.audits ∧
      (takeWhole ok op e).st.store.auditCounter = e.st.store.auditCounter := by
  unfold takeWhole; (try dsimp only); split <;> simp

/-- `completeComposite` changes at most: cap, store, tm. -/
@[simp] theorem completeComposite_keeps (ok : Bool) (op : Operation) (e : Ev) :
    (completeComposite ok op e).st.pending = e.st.pending ∧
      (completeComposite ok op e).st.mainSupply = e.st.mainSupply ∧
      (completeComposite ok op e).st.link = e.st.link ∧ (completeComposite ok op e).st.acq = e.st.acq ∧
      (completeComposite ok op e).st.zm = e.st.zm ∧ (completeComposite ok op e).st.axle = e.st.axle ∧
      (completeComposite ok op e).st.site = e.st.site ∧ (completeComposite ok op e).st.metro = e.st.metro ∧
      (completeComposite ok op e).st.cal = e.st.cal ∧
      (completeComposite ok op e).st.cap.timeout = e.st.cap.timeout ∧
      (completeComposite ok op e).st.cap.opCounter = e.st.cap.opCounter ∧
      (completeComposite ok op e).st.store.config = e.st.store.config ∧
      (completeComposite ok op e).st.store.checksum = e.st.store.checksum ∧
      (completeComposite ok op e).st.store.eventCounter = e.st.store.eventCounter ∧
      (completeComposite ok op e).st.store.trail = e.st.store.trail ∧
      (completeComposite ok op e).st.store.nextSeq = e.st.store.nextSeq ∧
      (completeComposite ok op e).st.store.audits = e.st.store.audits ∧
      (completeComposite ok op e).st.store.auditCounter = e.st.store.auditCounter := by
  unfold completeComposite; (try dsimp only); split <;> simp

/-- `takePosition` changes at most: cap, store, tm. -/
@[simp] theorem takePosition_keeps (ok : Bool) (op : Operation) (cs : List Component) (e : Ev) :
    (takePosition ok op cs e).st.pending = e.st.pending ∧
      (takePosition ok op cs e).st.mainSupply = e.st.mainSupply ∧ (takePosition ok op cs e).st.link = e.st.link ∧
      (takePosition ok op cs e).st.acq = e.st.acq ∧ (takePosition ok op cs e).st.zm = e.st.zm ∧
      (takePosition ok op cs e).st.axle = e.st.axle ∧ (takePosition ok op cs e).st.site = e.st.site ∧
      (takePosition ok op cs e).st.metro = e.st.metro ∧ (takePosition ok op cs e).st.cal = e.st.cal ∧
      (takePosition ok op cs e).st.cap.timeout = e.st.cap.timeout ∧
      (takePosition ok op cs e).st.cap.opCounter = e.st.cap.opCounter ∧
      (takePosition ok op cs e).st.store.config = e.st.store.config ∧
      (takePosition ok op cs e).st.store.checksum = e.st.store.checksum ∧
      (takePosition ok op cs e).st.store.eventCounter = e.st.store.eventCounter ∧
      (takePosition ok op cs e).st.store.trail = e.st.store.trail ∧
      (takePosition ok op cs e).st.store.nextSeq = e.st.store.nextSeq ∧
      (takePosition ok op cs e).st.store.audits = e.st.store.audits ∧
      (takePosition ok op cs e).st.store.auditCounter = e.st.store.auditCounter := by
  unfold takePosition; (try dsimp only); split_ifs <;> simp

/-- A property that a position and its two failures keep is kept by a position sought. -/
theorem seekPosition_keeps {P : Ev → Prop} {ok : Bool} {op : Operation} {e e1 : Ev} (h : seekPosition ok op e = some e1)
    (hf : ∀ r, P (failOp op r e)) (ht : ∀ cs, P (takePosition ok op cs e)) : P e1 := by
  unfold seekPosition at h
  dsimp only at h
  split at h
  · injection h with h; subst h; exact hf _
  · injection h with h; subst h; exact hf _
  · split at h
    · exact absurd h (by simp)
    · injection h with h; subst h; exact ht _

/-- A property that a whole capture, a position and its failures keep is kept by what a stable sample event takes. -/
theorem tryCapture_keeps {P : Ev → Prop} {ok : Bool} {op : Operation} {e e1 : Ev} (h : tryCapture ok op e = some e1)
    (hf : ∀ r, P (failOp op r e)) (ht : ∀ cs, P (takePosition ok op cs e)) (hw : P (takeWhole ok op e)) : P e1 := by
  unfold tryCapture at h
  dsimp only at h
  repeat' split at h
  all_goals first
    | (injection h with h; subst h; exact hw)
    | exact seekPosition_keeps h hf ht
    | (simp at h; done)

/-- What a stable sample event takes changes at most: cap, store, tm. -/
theorem tryCapture_frame {ok : Bool} {op : Operation} {e e1 : Ev} (h : tryCapture ok op e = some e1) :
    e1.st.pending = e.st.pending ∧ e1.st.mainSupply = e.st.mainSupply ∧ e1.st.link = e.st.link ∧
      e1.st.acq = e.st.acq ∧ e1.st.zm = e.st.zm ∧ e1.st.axle = e.st.axle ∧ e1.st.site = e.st.site ∧
      e1.st.metro = e.st.metro ∧ e1.st.cal = e.st.cal ∧ e1.st.cap.timeout = e.st.cap.timeout ∧
      e1.st.cap.opCounter = e.st.cap.opCounter ∧ e1.st.store.config = e.st.store.config ∧
      e1.st.store.checksum = e.st.store.checksum ∧ e1.st.store.eventCounter = e.st.store.eventCounter ∧
      e1.st.store.trail = e.st.store.trail ∧ e1.st.store.nextSeq = e.st.store.nextSeq ∧
      e1.st.store.audits = e.st.store.audits ∧ e1.st.store.auditCounter = e.st.store.auditCounter := by
  refine tryCapture_keeps
    (P := fun e1 => e1.st.pending = e.st.pending ∧ e1.st.mainSupply = e.st.mainSupply ∧ e1.st.link = e.st.link ∧
      e1.st.acq = e.st.acq ∧ e1.st.zm = e.st.zm ∧ e1.st.axle = e.st.axle ∧ e1.st.site = e.st.site ∧
      e1.st.metro = e.st.metro ∧ e1.st.cal = e.st.cal ∧ e1.st.cap.timeout = e.st.cap.timeout ∧
      e1.st.cap.opCounter = e.st.cap.opCounter ∧ e1.st.store.config = e.st.store.config ∧
      e1.st.store.checksum = e.st.store.checksum ∧ e1.st.store.eventCounter = e.st.store.eventCounter ∧
      e1.st.store.trail = e.st.store.trail ∧ e1.st.store.nextSeq = e.st.store.nextSeq ∧
      e1.st.store.audits = e.st.store.audits ∧ e1.st.store.auditCounter = e.st.store.auditCounter) h ?_ ?_ ?_
  all_goals
    intros
    simp

/-- `serveOperation` changes at most: cap, store, tm. -/
@[simp] theorem serveOperation_keeps (ok : Bool) (r : SampleResult) (e : Ev) :
    (serveOperation ok r e).st.pending = e.st.pending ∧
      (serveOperation ok r e).st.mainSupply = e.st.mainSupply ∧ (serveOperation ok r e).st.link = e.st.link ∧
      (serveOperation ok r e).st.acq = e.st.acq ∧ (serveOperation ok r e).st.zm = e.st.zm ∧
      (serveOperation ok r e).st.axle = e.st.axle ∧ (serveOperation ok r e).st.site = e.st.site ∧
      (serveOperation ok r e).st.metro = e.st.metro ∧ (serveOperation ok r e).st.cal = e.st.cal ∧
      (serveOperation ok r e).st.cap.timeout = e.st.cap.timeout ∧
      (serveOperation ok r e).st.cap.opCounter = e.st.cap.opCounter ∧
      (serveOperation ok r e).st.store.config = e.st.store.config ∧
      (serveOperation ok r e).st.store.checksum = e.st.store.checksum ∧
      (serveOperation ok r e).st.store.eventCounter = e.st.store.eventCounter ∧
      (serveOperation ok r e).st.store.trail = e.st.store.trail ∧
      (serveOperation ok r e).st.store.nextSeq = e.st.store.nextSeq ∧
      (serveOperation ok r e).st.store.audits = e.st.store.audits ∧
      (serveOperation ok r e).st.store.auditCounter = e.st.store.auditCounter := by
  unfold serveOperation
  (try dsimp only)
  split
  · split
    · simp
    · split
      · rename_i h; exact tryCapture_frame h
      · split <;> simp
  all_goals simp

/-- `reportComposite` changes at most: cap, store, tm. -/
@[simp] theorem reportComposite_keeps (ok : Bool) (rep : MapReport) (op : Operation) (e : Ev) :
    (reportComposite ok rep op e).st.pending = e.st.pending ∧
      (reportComposite ok rep op e).st.mainSupply = e.st.mainSupply ∧
      (reportComposite ok rep op e).st.link = e.st.link ∧ (reportComposite ok rep op e).st.acq = e.st.acq ∧
      (reportComposite ok rep op e).st.zm = e.st.zm ∧ (reportComposite ok rep op e).st.axle = e.st.axle ∧
      (reportComposite ok rep op e).st.site = e.st.site ∧ (reportComposite ok rep op e).st.metro = e.st.metro ∧
      (reportComposite ok rep op e).st.cal = e.st.cal ∧
      (reportComposite ok rep op e).st.cap.timeout = e.st.cap.timeout ∧
      (reportComposite ok rep op e).st.cap.opCounter = e.st.cap.opCounter ∧
      (reportComposite ok rep op e).st.store.config = e.st.store.config ∧
      (reportComposite ok rep op e).st.store.checksum = e.st.store.checksum ∧
      (reportComposite ok rep op e).st.store.eventCounter = e.st.store.eventCounter ∧
      (reportComposite ok rep op e).st.store.trail = e.st.store.trail ∧
      (reportComposite ok rep op e).st.store.nextSeq = e.st.store.nextSeq ∧
      (reportComposite ok rep op e).st.store.audits = e.st.store.audits ∧
      (reportComposite ok rep op e).st.store.auditCounter = e.st.store.auditCounter := by
  unfold reportComposite; split_ifs <;> (try split) <;> (try split_ifs) <;> simp

/-- `reportWhole` changes at most: cap, store, tm. -/
@[simp] theorem reportWhole_keeps (rep : MapReport) (op : Operation) (e : Ev) :
    (reportWhole rep op e).st.pending = e.st.pending ∧ (reportWhole rep op e).st.mainSupply = e.st.mainSupply ∧
      (reportWhole rep op e).st.link = e.st.link ∧ (reportWhole rep op e).st.acq = e.st.acq ∧
      (reportWhole rep op e).st.zm = e.st.zm ∧ (reportWhole rep op e).st.axle = e.st.axle ∧
      (reportWhole rep op e).st.site = e.st.site ∧ (reportWhole rep op e).st.metro = e.st.metro ∧
      (reportWhole rep op e).st.cal = e.st.cal ∧ (reportWhole rep op e).st.cap.timeout = e.st.cap.timeout ∧
      (reportWhole rep op e).st.cap.opCounter = e.st.cap.opCounter ∧
      (reportWhole rep op e).st.store.config = e.st.store.config ∧
      (reportWhole rep op e).st.store.checksum = e.st.store.checksum ∧
      (reportWhole rep op e).st.store.eventCounter = e.st.store.eventCounter ∧
      (reportWhole rep op e).st.store.trail = e.st.store.trail ∧
      (reportWhole rep op e).st.store.nextSeq = e.st.store.nextSeq ∧
      (reportWhole rep op e).st.store.audits = e.st.store.audits ∧
      (reportWhole rep op e).st.store.auditCounter = e.st.store.auditCounter := by
  unfold reportWhole; (try dsimp only); split_ifs <;> simp

/-- The return to SETTLING changes at most the slot. -/
@[simp] theorem resumeSettling_keeps (b : Bool) (op : Operation) (e : Ev) :
    (resumeSettling b op e).2.st.pending = e.st.pending ∧
      (resumeSettling b op e).2.st.mainSupply = e.st.mainSupply ∧ (resumeSettling b op e).2.st.link = e.st.link ∧
      (resumeSettling b op e).2.st.acq = e.st.acq ∧ (resumeSettling b op e).2.st.zm = e.st.zm ∧
      (resumeSettling b op e).2.st.axle = e.st.axle ∧ (resumeSettling b op e).2.st.site = e.st.site ∧
      (resumeSettling b op e).2.st.store = e.st.store ∧ (resumeSettling b op e).2.st.tm = e.st.tm ∧
      (resumeSettling b op e).2.st.metro = e.st.metro ∧ (resumeSettling b op e).2.st.cal = e.st.cal ∧
      (resumeSettling b op e).2.st.cap.timeout = e.st.cap.timeout ∧
      (resumeSettling b op e).2.st.cap.opCounter = e.st.cap.opCounter := by
  unfold resumeSettling; dsimp only; split_ifs <;> simp

/-- `reportToCapture` changes at most: cap, store, tm. -/
@[simp] theorem reportToCapture_keeps (ok : Bool) (rep : MapReport) (e : Ev) :
    (reportToCapture ok rep e).st.pending = e.st.pending ∧
      (reportToCapture ok rep e).st.mainSupply = e.st.mainSupply ∧
      (reportToCapture ok rep e).st.link = e.st.link ∧ (reportToCapture ok rep e).st.acq = e.st.acq ∧
      (reportToCapture ok rep e).st.zm = e.st.zm ∧ (reportToCapture ok rep e).st.axle = e.st.axle ∧
      (reportToCapture ok rep e).st.site = e.st.site ∧ (reportToCapture ok rep e).st.metro = e.st.metro ∧
      (reportToCapture ok rep e).st.cal = e.st.cal ∧
      (reportToCapture ok rep e).st.cap.timeout = e.st.cap.timeout ∧
      (reportToCapture ok rep e).st.cap.opCounter = e.st.cap.opCounter ∧
      (reportToCapture ok rep e).st.store.config = e.st.store.config ∧
      (reportToCapture ok rep e).st.store.checksum = e.st.store.checksum ∧
      (reportToCapture ok rep e).st.store.eventCounter = e.st.store.eventCounter ∧
      (reportToCapture ok rep e).st.store.trail = e.st.store.trail ∧
      (reportToCapture ok rep e).st.store.nextSeq = e.st.store.nextSeq ∧
      (reportToCapture ok rep e).st.store.audits = e.st.store.audits ∧
      (reportToCapture ok rep e).st.store.auditCounter = e.st.store.auditCounter := by
  unfold reportToCapture; (try dsimp only); split <;> (try split) <;> simp

/-- `startCapture` changes at most: cap, tm. -/
@[simp] theorem startCapture_keeps (f : CaptureFields) (e : Ev) :
    (startCapture f e).1.st.pending = e.st.pending ∧ (startCapture f e).1.st.mainSupply = e.st.mainSupply ∧
      (startCapture f e).1.st.link = e.st.link ∧ (startCapture f e).1.st.acq = e.st.acq ∧
      (startCapture f e).1.st.zm = e.st.zm ∧ (startCapture f e).1.st.axle = e.st.axle ∧
      (startCapture f e).1.st.site = e.st.site ∧ (startCapture f e).1.st.store = e.st.store ∧
      (startCapture f e).1.st.metro = e.st.metro ∧ (startCapture f e).1.st.cal = e.st.cal ∧
      (startCapture f e).1.st.cap.timeout = e.st.cap.timeout := by
  unfold startCapture acceptCapture; split <;> (try split_ifs) <;> (try split) <;> (try dsimp only) <;> (try split_ifs) <;> simp

/-- `cancelOperation` changes at most: cap, tm. -/
@[simp] theorem cancelOperation_keeps (n : Nat) (e : Ev) :
    (cancelOperation n e).1.st.pending = e.st.pending ∧
      (cancelOperation n e).1.st.mainSupply = e.st.mainSupply ∧ (cancelOperation n e).1.st.link = e.st.link ∧
      (cancelOperation n e).1.st.acq = e.st.acq ∧ (cancelOperation n e).1.st.zm = e.st.zm ∧
      (cancelOperation n e).1.st.axle = e.st.axle ∧ (cancelOperation n e).1.st.site = e.st.site ∧
      (cancelOperation n e).1.st.store = e.st.store ∧ (cancelOperation n e).1.st.metro = e.st.metro ∧
      (cancelOperation n e).1.st.cal = e.st.cal ∧ (cancelOperation n e).1.st.cap.timeout = e.st.cap.timeout ∧
      (cancelOperation n e).1.st.cap.opCounter = e.st.cap.opCounter := by
  unfold cancelOperation; split <;> (try split_ifs) <;> simp

/-- `releaseVehicle` changes at most: cap. -/
@[simp] theorem releaseVehicle_keeps (e : Ev) :
    (releaseVehicle e).1.st.pending = e.st.pending ∧ (releaseVehicle e).1.st.mainSupply = e.st.mainSupply ∧
      (releaseVehicle e).1.st.link = e.st.link ∧ (releaseVehicle e).1.st.acq = e.st.acq ∧
      (releaseVehicle e).1.st.zm = e.st.zm ∧ (releaseVehicle e).1.st.axle = e.st.axle ∧
      (releaseVehicle e).1.st.site = e.st.site ∧ (releaseVehicle e).1.st.store = e.st.store ∧
      (releaseVehicle e).1.st.tm = e.st.tm ∧ (releaseVehicle e).1.st.metro = e.st.metro ∧
      (releaseVehicle e).1.st.cal = e.st.cal ∧ (releaseVehicle e).1.st.cap.timeout = e.st.cap.timeout ∧
      (releaseVehicle e).1.st.cap.opCounter = e.st.cap.opCounter := by
  simp [releaseVehicle]

/-- `writeCaptureSettings` changes at most: cap. -/
@[simp] theorem writeCaptureSettings_keeps (n : Nat) (e : Ev) :
    (writeCaptureSettings n e).1.st.pending = e.st.pending ∧
      (writeCaptureSettings n e).1.st.mainSupply = e.st.mainSupply ∧
      (writeCaptureSettings n e).1.st.link = e.st.link ∧ (writeCaptureSettings n e).1.st.acq = e.st.acq ∧
      (writeCaptureSettings n e).1.st.zm = e.st.zm ∧ (writeCaptureSettings n e).1.st.axle = e.st.axle ∧
      (writeCaptureSettings n e).1.st.site = e.st.site ∧ (writeCaptureSettings n e).1.st.store = e.st.store ∧
      (writeCaptureSettings n e).1.st.tm = e.st.tm ∧ (writeCaptureSettings n e).1.st.metro = e.st.metro ∧
      (writeCaptureSettings n e).1.st.cal = e.st.cal ∧
      (writeCaptureSettings n e).1.st.cap.opCounter = e.st.cap.opCounter := by
  unfold writeCaptureSettings; split_ifs <;> simp

/-! ## The axle map (chapter 4) -/

/-- `formOccupancy` changes at most: axle, cap, store, tm. -/
@[simp] theorem formOccupancy_keeps (ok : Bool) (m0 : AxleMap) (c : Bool) (l : Option LossCause) (e : Ev) :
    (formOccupancy ok m0 c l e).st.pending = e.st.pending ∧
      (formOccupancy ok m0 c l e).st.mainSupply = e.st.mainSupply ∧
      (formOccupancy ok m0 c l e).st.link = e.st.link ∧ (formOccupancy ok m0 c l e).st.acq = e.st.acq ∧
      (formOccupancy ok m0 c l e).st.zm = e.st.zm ∧ (formOccupancy ok m0 c l e).st.site = e.st.site ∧
      (formOccupancy ok m0 c l e).st.metro = e.st.metro ∧ (formOccupancy ok m0 c l e).st.cal = e.st.cal ∧
      (formOccupancy ok m0 c l e).st.cap.timeout = e.st.cap.timeout ∧
      (formOccupancy ok m0 c l e).st.cap.opCounter = e.st.cap.opCounter ∧
      (formOccupancy ok m0 c l e).st.store.config = e.st.store.config ∧
      (formOccupancy ok m0 c l e).st.store.checksum = e.st.store.checksum ∧
      (formOccupancy ok m0 c l e).st.store.eventCounter = e.st.store.eventCounter ∧
      (formOccupancy ok m0 c l e).st.store.trail = e.st.store.trail ∧
      (formOccupancy ok m0 c l e).st.store.nextSeq = e.st.store.nextSeq ∧
      (formOccupancy ok m0 c l e).st.store.audits = e.st.store.audits ∧
      (formOccupancy ok m0 c l e).st.store.auditCounter = e.st.store.auditCounter := by
  unfold formOccupancy; (try dsimp only); split_ifs <;> simp

/-- `loseCertainty` changes at most: axle. -/
@[simp] theorem loseCertainty_keeps (c : LossCause) (l : Option LineNo) (e : Ev) :
    (loseCertainty c l e).st.pending = e.st.pending ∧ (loseCertainty c l e).st.mainSupply = e.st.mainSupply ∧
      (loseCertainty c l e).st.link = e.st.link ∧ (loseCertainty c l e).st.acq = e.st.acq ∧
      (loseCertainty c l e).st.zm = e.st.zm ∧ (loseCertainty c l e).st.site = e.st.site ∧
      (loseCertainty c l e).st.cap = e.st.cap ∧ (loseCertainty c l e).st.store = e.st.store ∧
      (loseCertainty c l e).st.tm = e.st.tm ∧ (loseCertainty c l e).st.metro = e.st.metro ∧
      (loseCertainty c l e).st.cal = e.st.cal := by
  unfold loseCertainty; split_ifs <;> simp

/-- `phantomFault` changes at most: axle. -/
@[simp] theorem phantomFault_keeps (l : LineNo) (e : Ev) :
    (phantomFault l e).st.pending = e.st.pending ∧ (phantomFault l e).st.mainSupply = e.st.mainSupply ∧
      (phantomFault l e).st.link = e.st.link ∧ (phantomFault l e).st.acq = e.st.acq ∧
      (phantomFault l e).st.zm = e.st.zm ∧ (phantomFault l e).st.site = e.st.site ∧
      (phantomFault l e).st.cap = e.st.cap ∧ (phantomFault l e).st.store = e.st.store ∧
      (phantomFault l e).st.tm = e.st.tm ∧ (phantomFault l e).st.metro = e.st.metro ∧
      (phantomFault l e).st.cal = e.st.cal := by
  simp [phantomFault]

/-- A crossing applied changes at most the map. -/
@[simp] theorem applyCrossing_keeps (c : Crossing) (e : Ev) :
    (applyCrossing c e).1.st.pending = e.st.pending ∧ (applyCrossing c e).1.st.mainSupply = e.st.mainSupply ∧
      (applyCrossing c e).1.st.link = e.st.link ∧ (applyCrossing c e).1.st.acq = e.st.acq ∧
      (applyCrossing c e).1.st.zm = e.st.zm ∧ (applyCrossing c e).1.st.site = e.st.site ∧
      (applyCrossing c e).1.st.cap = e.st.cap ∧ (applyCrossing c e).1.st.store = e.st.store ∧
      (applyCrossing c e).1.st.tm = e.st.tm ∧ (applyCrossing c e).1.st.metro = e.st.metro ∧
      (applyCrossing c e).1.st.cal = e.st.cal := by
  unfold applyCrossing; dsimp only; split_ifs <;> (try split) <;> (try split_ifs) <;> simp

/-- `decodeCrossing` changes at most: axle, zm, cap, store, tm. -/
@[simp] theorem decodeCrossing_keeps (ok : Bool) (c : Crossing) (e : Ev) :
    (decodeCrossing ok c e).st.pending = e.st.pending ∧
      (decodeCrossing ok c e).st.mainSupply = e.st.mainSupply ∧ (decodeCrossing ok c e).st.link = e.st.link ∧
      (decodeCrossing ok c e).st.acq = e.st.acq ∧ (decodeCrossing ok c e).st.site = e.st.site ∧
      (decodeCrossing ok c e).st.metro = e.st.metro ∧ (decodeCrossing ok c e).st.cal = e.st.cal ∧
      (decodeCrossing ok c e).st.cap.timeout = e.st.cap.timeout ∧
      (decodeCrossing ok c e).st.cap.opCounter = e.st.cap.opCounter ∧
      (decodeCrossing ok c e).st.store.config = e.st.store.config ∧
      (decodeCrossing ok c e).st.store.checksum = e.st.store.checksum ∧
      (decodeCrossing ok c e).st.store.eventCounter = e.st.store.eventCounter ∧
      (decodeCrossing ok c e).st.store.trail = e.st.store.trail ∧
      (decodeCrossing ok c e).st.store.nextSeq = e.st.store.nextSeq ∧
      (decodeCrossing ok c e).st.store.audits = e.st.store.audits ∧
      (decodeCrossing ok c e).st.store.auditCounter = e.st.store.auditCounter := by
  simp [decodeCrossing]

/-- `decodeActivation` changes at most: axle, zm, cap, store, tm. -/
@[simp] theorem decodeActivation_keeps (ok : Bool) (l : LineNo) (el : Element) (t : Nat) (e : Ev) :
    (decodeActivation ok l el t e).st.pending = e.st.pending ∧
      (decodeActivation ok l el t e).st.mainSupply = e.st.mainSupply ∧
      (decodeActivation ok l el t e).st.link = e.st.link ∧ (decodeActivation ok l el t e).st.acq = e.st.acq ∧
      (decodeActivation ok l el t e).st.site = e.st.site ∧ (decodeActivation ok l el t e).st.metro = e.st.metro ∧
      (decodeActivation ok l el t e).st.cal = e.st.cal ∧
      (decodeActivation ok l el t e).st.cap.timeout = e.st.cap.timeout ∧
      (decodeActivation ok l el t e).st.cap.opCounter = e.st.cap.opCounter ∧
      (decodeActivation ok l el t e).st.store.config = e.st.store.config ∧
      (decodeActivation ok l el t e).st.store.checksum = e.st.store.checksum ∧
      (decodeActivation ok l el t e).st.store.eventCounter = e.st.store.eventCounter ∧
      (decodeActivation ok l el t e).st.store.trail = e.st.store.trail ∧
      (decodeActivation ok l el t e).st.store.nextSeq = e.st.store.nextSeq ∧
      (decodeActivation ok l el t e).st.store.audits = e.st.store.audits ∧
      (decodeActivation ok l el t e).st.store.auditCounter = e.st.store.auditCounter := by
  unfold decodeActivation; (try dsimp only); split <;> simp

/-- `activation` changes at most: axle, zm, acq, cap, store, tm. -/
@[simp] theorem activation_keeps (ok : Bool) (l : LineNo) (el : Element) (t : Nat) (e : Ev) :
    (activation ok l el t e).st.pending = e.st.pending ∧
      (activation ok l el t e).st.mainSupply = e.st.mainSupply ∧ (activation ok l el t e).st.link = e.st.link ∧
      (activation ok l el t e).st.site = e.st.site ∧ (activation ok l el t e).st.metro = e.st.metro ∧
      (activation ok l el t e).st.cal = e.st.cal ∧ (activation ok l el t e).st.cap.timeout = e.st.cap.timeout ∧
      (activation ok l el t e).st.cap.opCounter = e.st.cap.opCounter ∧
      (activation ok l el t e).st.acq.spikeLimit = e.st.acq.spikeLimit ∧
      (activation ok l el t e).st.acq.assign = e.st.acq.assign ∧
      (activation ok l el t e).st.store.config = e.st.store.config ∧
      (activation ok l el t e).st.store.checksum = e.st.store.checksum ∧
      (activation ok l el t e).st.store.eventCounter = e.st.store.eventCounter ∧
      (activation ok l el t e).st.store.trail = e.st.store.trail ∧
      (activation ok l el t e).st.store.nextSeq = e.st.store.nextSeq ∧
      (activation ok l el t e).st.store.audits = e.st.store.audits ∧
      (activation ok l el t e).st.store.auditCounter = e.st.store.auditCounter := by
  unfold activation
  (try dsimp only)
  split_ifs
  · simp
  · unfold Ev.when
    split_ifs <;> simp

/-- `elementClear` changes at most: axle. -/
@[simp] theorem elementClear_keeps (l : LineNo) (el : Element) (e : Ev) :
    (elementClear l el e).st.pending = e.st.pending ∧ (elementClear l el e).st.mainSupply = e.st.mainSupply ∧
      (elementClear l el e).st.link = e.st.link ∧ (elementClear l el e).st.acq = e.st.acq ∧
      (elementClear l el e).st.zm = e.st.zm ∧ (elementClear l el e).st.site = e.st.site ∧
      (elementClear l el e).st.cap = e.st.cap ∧ (elementClear l el e).st.store = e.st.store ∧
      (elementClear l el e).st.tm = e.st.tm ∧ (elementClear l el e).st.metro = e.st.metro ∧
      (elementClear l el e).st.cal = e.st.cal := by
  simp [elementClear]

/-- `pairingGuard` changes at most: axle. -/
@[simp] theorem pairingGuard_keeps (l : LineNo) (e : Ev) :
    (pairingGuard l e).st.pending = e.st.pending ∧ (pairingGuard l e).st.mainSupply = e.st.mainSupply ∧
      (pairingGuard l e).st.link = e.st.link ∧ (pairingGuard l e).st.acq = e.st.acq ∧
      (pairingGuard l e).st.zm = e.st.zm ∧ (pairingGuard l e).st.site = e.st.site ∧
      (pairingGuard l e).st.cap = e.st.cap ∧ (pairingGuard l e).st.store = e.st.store ∧
      (pairingGuard l e).st.tm = e.st.tm ∧ (pairingGuard l e).st.metro = e.st.metro ∧
      (pairingGuard l e).st.cal = e.st.cal := by
  unfold pairingGuard; (try dsimp only); split <;> simp

/-- `singleElementFault` changes at most: axle, cap, store, tm. -/
@[simp] theorem singleElementFault_keeps (l : LineNo) (e : Ev) :
    (singleElementFault l e).st.pending = e.st.pending ∧
      (singleElementFault l e).st.mainSupply = e.st.mainSupply ∧ (singleElementFault l e).st.link = e.st.link ∧
      (singleElementFault l e).st.acq = e.st.acq ∧ (singleElementFault l e).st.zm = e.st.zm ∧
      (singleElementFault l e).st.site = e.st.site ∧ (singleElementFault l e).st.metro = e.st.metro ∧
      (singleElementFault l e).st.cal = e.st.cal ∧ (singleElementFault l e).st.cap.timeout = e.st.cap.timeout ∧
      (singleElementFault l e).st.cap.opCounter = e.st.cap.opCounter ∧
      (singleElementFault l e).st.store.config = e.st.store.config ∧
      (singleElementFault l e).st.store.checksum = e.st.store.checksum ∧
      (singleElementFault l e).st.store.eventCounter = e.st.store.eventCounter ∧
      (singleElementFault l e).st.store.trail = e.st.store.trail ∧
      (singleElementFault l e).st.store.nextSeq = e.st.store.nextSeq ∧
      (singleElementFault l e).st.store.audits = e.st.store.audits ∧
      (singleElementFault l e).st.store.auditCounter = e.st.store.auditCounter := by
  unfold singleElementFault; (try dsimp only); split <;> simp

/-- `loopChange` changes at most: axle, zm, acq, cap, store, tm. -/
@[simp] theorem loopChange_keeps (ok : Bool) (lp : Loop) (b : Bool) (e : Ev) :
    (loopChange ok lp b e).st.pending = e.st.pending ∧ (loopChange ok lp b e).st.mainSupply = e.st.mainSupply ∧
      (loopChange ok lp b e).st.link = e.st.link ∧ (loopChange ok lp b e).st.site = e.st.site ∧
      (loopChange ok lp b e).st.metro = e.st.metro ∧ (loopChange ok lp b e).st.cal = e.st.cal ∧
      (loopChange ok lp b e).st.cap.timeout = e.st.cap.timeout ∧
      (loopChange ok lp b e).st.cap.opCounter = e.st.cap.opCounter ∧
      (loopChange ok lp b e).st.acq.spikeLimit = e.st.acq.spikeLimit ∧
      (loopChange ok lp b e).st.acq.assign = e.st.acq.assign ∧
      (loopChange ok lp b e).st.store.config = e.st.store.config ∧
      (loopChange ok lp b e).st.store.checksum = e.st.store.checksum ∧
      (loopChange ok lp b e).st.store.eventCounter = e.st.store.eventCounter ∧
      (loopChange ok lp b e).st.store.trail = e.st.store.trail ∧
      (loopChange ok lp b e).st.store.nextSeq = e.st.store.nextSeq ∧
      (loopChange ok lp b e).st.store.audits = e.st.store.audits ∧
      (loopChange ok lp b e).st.store.auditCounter = e.st.store.auditCounter := by
  unfold loopChange
  (try dsimp only)
  split_ifs
  · simp
  · unfold Ev.when
    split_ifs <;> simp

/-- The hidden-load count changes at most the map. -/
@[simp] theorem serveHiddenLoad_keeps (r : SampleResult) (e : Ev) :
    (serveHiddenLoad r e).1.st.pending = e.st.pending ∧
      (serveHiddenLoad r e).1.st.mainSupply = e.st.mainSupply ∧ (serveHiddenLoad r e).1.st.link = e.st.link ∧
      (serveHiddenLoad r e).1.st.acq = e.st.acq ∧ (serveHiddenLoad r e).1.st.zm = e.st.zm ∧
      (serveHiddenLoad r e).1.st.site = e.st.site ∧ (serveHiddenLoad r e).1.st.cap = e.st.cap ∧
      (serveHiddenLoad r e).1.st.store = e.st.store ∧ (serveHiddenLoad r e).1.st.tm = e.st.tm ∧
      (serveHiddenLoad r e).1.st.metro = e.st.metro ∧ (serveHiddenLoad r e).1.st.cal = e.st.cal := by
  unfold serveHiddenLoad; dsimp only; split_ifs <;> simp

/-- `serveRecovery` changes at most: axle. -/
@[simp] theorem serveRecovery_keeps (r : SampleResult) (e : Ev) :
    (serveRecovery r e).st.pending = e.st.pending ∧ (serveRecovery r e).st.mainSupply = e.st.mainSupply ∧
      (serveRecovery r e).st.link = e.st.link ∧ (serveRecovery r e).st.acq = e.st.acq ∧
      (serveRecovery r e).st.zm = e.st.zm ∧ (serveRecovery r e).st.site = e.st.site ∧
      (serveRecovery r e).st.cap = e.st.cap ∧ (serveRecovery r e).st.store = e.st.store ∧
      (serveRecovery r e).st.tm = e.st.tm ∧ (serveRecovery r e).st.metro = e.st.metro ∧
      (serveRecovery r e).st.cal = e.st.cal := by
  unfold serveRecovery; (try dsimp only); split_ifs <;> simp

/-- `serveMap` changes at most: axle, cap, store, tm. -/
@[simp] theorem serveMap_keeps (ok : Bool) (r : SampleResult) (e : Ev) :
    (serveMap ok r e).st.pending = e.st.pending ∧ (serveMap ok r e).st.mainSupply = e.st.mainSupply ∧
      (serveMap ok r e).st.link = e.st.link ∧ (serveMap ok r e).st.acq = e.st.acq ∧
      (serveMap ok r e).st.zm = e.st.zm ∧ (serveMap ok r e).st.site = e.st.site ∧
      (serveMap ok r e).st.metro = e.st.metro ∧ (serveMap ok r e).st.cal = e.st.cal ∧
      (serveMap ok r e).st.cap.timeout = e.st.cap.timeout ∧
      (serveMap ok r e).st.cap.opCounter = e.st.cap.opCounter ∧
      (serveMap ok r e).st.store.config = e.st.store.config ∧
      (serveMap ok r e).st.store.checksum = e.st.store.checksum ∧
      (serveMap ok r e).st.store.eventCounter = e.st.store.eventCounter ∧
      (serveMap ok r e).st.store.trail = e.st.store.trail ∧
      (serveMap ok r e).st.store.nextSeq = e.st.store.nextSeq ∧
      (serveMap ok r e).st.store.audits = e.st.store.audits ∧
      (serveMap ok r e).st.store.auditCounter = e.st.store.auditCounter := by
  unfold serveMap; (try dsimp only); split_ifs <;> simp

/-- `commitMap` changes at most: axle, cap, store, tm. -/
@[simp] theorem commitMap_keeps (e : Ev) :
    (commitMap e).st.pending = e.st.pending ∧ (commitMap e).st.mainSupply = e.st.mainSupply ∧
      (commitMap e).st.link = e.st.link ∧ (commitMap e).st.acq = e.st.acq ∧ (commitMap e).st.zm = e.st.zm ∧
      (commitMap e).st.site = e.st.site ∧ (commitMap e).st.metro = e.st.metro ∧ (commitMap e).st.cal = e.st.cal ∧
      (commitMap e).st.cap.timeout = e.st.cap.timeout ∧ (commitMap e).st.cap.opCounter = e.st.cap.opCounter ∧
      (commitMap e).st.store.config = e.st.store.config ∧ (commitMap e).st.store.checksum = e.st.store.checksum ∧
      (commitMap e).st.store.eventCounter = e.st.store.eventCounter ∧
      (commitMap e).st.store.trail = e.st.store.trail ∧ (commitMap e).st.store.nextSeq = e.st.store.nextSeq ∧
      (commitMap e).st.store.audits = e.st.store.audits ∧
      (commitMap e).st.store.auditCounter = e.st.store.auditCounter := by
  unfold commitMap; (try dsimp only); split_ifs <;> simp

/-- `writeTreadleSettings` changes at most: site. -/
@[simp] theorem writeTreadleSettings_keeps (ok : Bool) (t : TreadleSettings) (e : Ev) :
    (writeTreadleSettings ok t e).1.st.pending = e.st.pending ∧
      (writeTreadleSettings ok t e).1.st.mainSupply = e.st.mainSupply ∧
      (writeTreadleSettings ok t e).1.st.link = e.st.link ∧ (writeTreadleSettings ok t e).1.st.acq = e.st.acq ∧
      (writeTreadleSettings ok t e).1.st.zm = e.st.zm ∧ (writeTreadleSettings ok t e).1.st.axle = e.st.axle ∧
      (writeTreadleSettings ok t e).1.st.cap = e.st.cap ∧ (writeTreadleSettings ok t e).1.st.store = e.st.store ∧
      (writeTreadleSettings ok t e).1.st.tm = e.st.tm ∧ (writeTreadleSettings ok t e).1.st.metro = e.st.metro ∧
      (writeTreadleSettings ok t e).1.st.cal = e.st.cal := by
  unfold writeTreadleSettings settingsWrite; split_ifs <;> simp

/-- `readTreadles` changes at most: axle. -/
@[simp] theorem readTreadles_keeps (e : Ev) :
    (readTreadles e).1.st.pending = e.st.pending ∧ (readTreadles e).1.st.mainSupply = e.st.mainSupply ∧
      (readTreadles e).1.st.link = e.st.link ∧ (readTreadles e).1.st.acq = e.st.acq ∧
      (readTreadles e).1.st.zm = e.st.zm ∧ (readTreadles e).1.st.site = e.st.site ∧
      (readTreadles e).1.st.cap = e.st.cap ∧ (readTreadles e).1.st.store = e.st.store ∧
      (readTreadles e).1.st.tm = e.st.tm ∧ (readTreadles e).1.st.metro = e.st.metro ∧
      (readTreadles e).1.st.cal = e.st.cal := by
  simp [readTreadles]

/-- `readAxleMap` changes at most: nothing. -/
@[simp] theorem readAxleMap_keeps (e : Ev) :
    (readAxleMap e).1.st.pending = e.st.pending ∧ (readAxleMap e).1.st.mainSupply = e.st.mainSupply ∧
      (readAxleMap e).1.st.link = e.st.link ∧ (readAxleMap e).1.st.acq = e.st.acq ∧
      (readAxleMap e).1.st.zm = e.st.zm ∧ (readAxleMap e).1.st.axle = e.st.axle ∧
      (readAxleMap e).1.st.site = e.st.site ∧ (readAxleMap e).1.st.cap = e.st.cap ∧
      (readAxleMap e).1.st.store = e.st.store ∧ (readAxleMap e).1.st.tm = e.st.tm ∧
      (readAxleMap e).1.st.metro = e.st.metro ∧ (readAxleMap e).1.st.cal = e.st.cal := by
  simp [readAxleMap]

/-! ## Metrology (chapter 8) -/

/-- `setSession` changes at most: cap. -/
@[simp] theorem setSession_keeps (x : AdjustSession) (s : State) :
    (setSession x s).pending = s.pending ∧ (setSession x s).mainSupply = s.mainSupply ∧
      (setSession x s).link = s.link ∧ (setSession x s).acq = s.acq ∧ (setSession x s).zm = s.zm ∧
      (setSession x s).axle = s.axle ∧ (setSession x s).site = s.site ∧ (setSession x s).store = s.store ∧
      (setSession x s).tm = s.tm ∧ (setSession x s).metro = s.metro ∧ (setSession x s).cal = s.cal ∧
      (setSession x s).cap.timeout = s.cap.timeout ∧ (setSession x s).cap.opCounter = s.cap.opCounter := by
  simp [setSession]

/-- `endAdjustment` changes at most: cap, metro. -/
@[simp] theorem endAdjustment_keeps (e : Ev) :
    (endAdjustment e).st.pending = e.st.pending ∧ (endAdjustment e).st.mainSupply = e.st.mainSupply ∧
      (endAdjustment e).st.link = e.st.link ∧ (endAdjustment e).st.acq = e.st.acq ∧
      (endAdjustment e).st.zm = e.st.zm ∧ (endAdjustment e).st.axle = e.st.axle ∧
      (endAdjustment e).st.site = e.st.site ∧ (endAdjustment e).st.store = e.st.store ∧
      (endAdjustment e).st.tm = e.st.tm ∧ (endAdjustment e).st.cal = e.st.cal ∧
      (endAdjustment e).st.cap.timeout = e.st.cap.timeout ∧
      (endAdjustment e).st.cap.opCounter = e.st.cap.opCounter ∧
      (endAdjustment e).st.metro.valid = e.st.metro.valid ∧
      (endAdjustment e).st.metro.switchCal = e.st.metro.switchCal := by
  simp [endAdjustment]

/-- `abortAdjustment` changes at most: cap, metro. -/
@[simp] theorem abortAdjustment_keeps (c : AbortCause) (e : Ev) :
    (abortAdjustment c e).st.pending = e.st.pending ∧ (abortAdjustment c e).st.mainSupply = e.st.mainSupply ∧
      (abortAdjustment c e).st.link = e.st.link ∧ (abortAdjustment c e).st.acq = e.st.acq ∧
      (abortAdjustment c e).st.zm = e.st.zm ∧ (abortAdjustment c e).st.axle = e.st.axle ∧
      (abortAdjustment c e).st.site = e.st.site ∧ (abortAdjustment c e).st.store = e.st.store ∧
      (abortAdjustment c e).st.tm = e.st.tm ∧ (abortAdjustment c e).st.cal = e.st.cal ∧
      (abortAdjustment c e).st.cap.timeout = e.st.cap.timeout ∧
      (abortAdjustment c e).st.cap.opCounter = e.st.cap.opCounter ∧
      (abortAdjustment c e).st.metro.valid = e.st.metro.valid ∧
      (abortAdjustment c e).st.metro.switchCal = e.st.metro.switchCal := by
  simp [abortAdjustment]

/-- `switchState` changes at most: cap, metro. -/
@[simp] theorem switchState_keeps (b : Bool) (e : Ev) :
    (switchState b e).st.pending = e.st.pending ∧ (switchState b e).st.mainSupply = e.st.mainSupply ∧
      (switchState b e).st.link = e.st.link ∧ (switchState b e).st.acq = e.st.acq ∧
      (switchState b e).st.zm = e.st.zm ∧ (switchState b e).st.axle = e.st.axle ∧
      (switchState b e).st.site = e.st.site ∧ (switchState b e).st.store = e.st.store ∧
      (switchState b e).st.tm = e.st.tm ∧ (switchState b e).st.cal = e.st.cal ∧
      (switchState b e).st.cap.timeout = e.st.cap.timeout ∧
      (switchState b e).st.cap.opCounter = e.st.cap.opCounter ∧
      (switchState b e).st.metro.valid = e.st.metro.valid := by
  unfold switchState
  (try dsimp only)
  split_ifs
  · simp
  · unfold Ev.when
    split_ifs <;> simp

/-- `openAdjustment` changes at most: cap, metro. -/
@[simp] theorem openAdjustment_keeps (e : Ev) :
    (openAdjustment e).1.st.pending = e.st.pending ∧ (openAdjustment e).1.st.mainSupply = e.st.mainSupply ∧
      (openAdjustment e).1.st.link = e.st.link ∧ (openAdjustment e).1.st.acq = e.st.acq ∧
      (openAdjustment e).1.st.zm = e.st.zm ∧ (openAdjustment e).1.st.axle = e.st.axle ∧
      (openAdjustment e).1.st.site = e.st.site ∧ (openAdjustment e).1.st.store = e.st.store ∧
      (openAdjustment e).1.st.tm = e.st.tm ∧ (openAdjustment e).1.st.cal = e.st.cal ∧
      (openAdjustment e).1.st.cap.timeout = e.st.cap.timeout ∧
      (openAdjustment e).1.st.cap.opCounter = e.st.cap.opCounter ∧
      (openAdjustment e).1.st.metro.valid = e.st.metro.valid ∧
      (openAdjustment e).1.st.metro.switchCal = e.st.metro.switchCal := by
  unfold openAdjustment; (try dsimp only); split_ifs <;> (try split) <;> simp

/-- `abandonAdjustment` changes at most: cap, metro. -/
@[simp] theorem abandonAdjustment_keeps (e : Ev) :
    (abandonAdjustment e).1.st.pending = e.st.pending ∧
      (abandonAdjustment e).1.st.mainSupply = e.st.mainSupply ∧ (abandonAdjustment e).1.st.link = e.st.link ∧
      (abandonAdjustment e).1.st.acq = e.st.acq ∧ (abandonAdjustment e).1.st.zm = e.st.zm ∧
      (abandonAdjustment e).1.st.axle = e.st.axle ∧ (abandonAdjustment e).1.st.site = e.st.site ∧
      (abandonAdjustment e).1.st.store = e.st.store ∧ (abandonAdjustment e).1.st.tm = e.st.tm ∧
      (abandonAdjustment e).1.st.cal = e.st.cal ∧ (abandonAdjustment e).1.st.cap.timeout = e.st.cap.timeout ∧
      (abandonAdjustment e).1.st.cap.opCounter = e.st.cap.opCounter ∧
      (abandonAdjustment e).1.st.metro.valid = e.st.metro.valid ∧
      (abandonAdjustment e).1.st.metro.switchCal = e.st.metro.switchCal := by
  unfold abandonAdjustment; split_ifs <;> simp

/-- `stageParameter` changes at most: cap. -/
@[simp] theorem stageParameter_keeps (f : StageFields) (e : Ev) :
    (stageParameter f e).1.st.pending = e.st.pending ∧ (stageParameter f e).1.st.mainSupply = e.st.mainSupply ∧
      (stageParameter f e).1.st.link = e.st.link ∧ (stageParameter f e).1.st.acq = e.st.acq ∧
      (stageParameter f e).1.st.zm = e.st.zm ∧ (stageParameter f e).1.st.axle = e.st.axle ∧
      (stageParameter f e).1.st.site = e.st.site ∧ (stageParameter f e).1.st.store = e.st.store ∧
      (stageParameter f e).1.st.tm = e.st.tm ∧ (stageParameter f e).1.st.metro = e.st.metro ∧
      (stageParameter f e).1.st.cal = e.st.cal ∧ (stageParameter f e).1.st.cap.timeout = e.st.cap.timeout ∧
      (stageParameter f e).1.st.cap.opCounter = e.st.cap.opCounter := by
  unfold stageParameter; split <;> (try dsimp only) <;> (try split_ifs) <;> (try split) <;> simp

/-- `calibrate` changes at most: cap. -/
@[simp] theorem calibrate_keeps (k : CalKind) (d n : Nat) (e : Ev) :
    (calibrate k d n e).1.st.pending = e.st.pending ∧ (calibrate k d n e).1.st.mainSupply = e.st.mainSupply ∧
      (calibrate k d n e).1.st.link = e.st.link ∧ (calibrate k d n e).1.st.acq = e.st.acq ∧
      (calibrate k d n e).1.st.zm = e.st.zm ∧ (calibrate k d n e).1.st.axle = e.st.axle ∧
      (calibrate k d n e).1.st.site = e.st.site ∧ (calibrate k d n e).1.st.store = e.st.store ∧
      (calibrate k d n e).1.st.tm = e.st.tm ∧ (calibrate k d n e).1.st.metro = e.st.metro ∧
      (calibrate k d n e).1.st.cal = e.st.cal ∧ (calibrate k d n e).1.st.cap.timeout = e.st.cap.timeout ∧
      (calibrate k d n e).1.st.cap.opCounter = e.st.cap.opCounter := by
  unfold calibrate; split <;> (try dsimp only) <;> (try split_ifs) <;> (try split) <;> (try split_ifs) <;> simp

/-- `serveCalibration` changes at most: cap. -/
@[simp] theorem serveCalibration_keeps (r : SampleResult) (v : Chan → Int) (t : Nat) (e : Ev) :
    (serveCalibration r v t e).st.pending = e.st.pending ∧
      (serveCalibration r v t e).st.mainSupply = e.st.mainSupply ∧
      (serveCalibration r v t e).st.link = e.st.link ∧ (serveCalibration r v t e).st.acq = e.st.acq ∧
      (serveCalibration r v t e).st.zm = e.st.zm ∧ (serveCalibration r v t e).st.axle = e.st.axle ∧
      (serveCalibration r v t e).st.site = e.st.site ∧ (serveCalibration r v t e).st.store = e.st.store ∧
      (serveCalibration r v t e).st.tm = e.st.tm ∧ (serveCalibration r v t e).st.metro = e.st.metro ∧
      (serveCalibration r v t e).st.cal = e.st.cal ∧
      (serveCalibration r v t e).st.cap.timeout = e.st.cap.timeout ∧
      (serveCalibration r v t e).st.cap.opCounter = e.st.cap.opCounter := by
  unfold serveCalibration; split <;> (try split) <;> (try dsimp only) <;> (try split) <;> (try split) <;> (try split) <;> simp

/-- `serveAdjustIdle` changes at most: cap, metro. -/
@[simp] theorem serveAdjustIdle_keeps (e : Ev) :
    (serveAdjustIdle e).st.pending = e.st.pending ∧ (serveAdjustIdle e).st.mainSupply = e.st.mainSupply ∧
      (serveAdjustIdle e).st.link = e.st.link ∧ (serveAdjustIdle e).st.acq = e.st.acq ∧
      (serveAdjustIdle e).st.zm = e.st.zm ∧ (serveAdjustIdle e).st.axle = e.st.axle ∧
      (serveAdjustIdle e).st.site = e.st.site ∧ (serveAdjustIdle e).st.store = e.st.store ∧
      (serveAdjustIdle e).st.tm = e.st.tm ∧ (serveAdjustIdle e).st.cal = e.st.cal ∧
      (serveAdjustIdle e).st.cap.timeout = e.st.cap.timeout ∧
      (serveAdjustIdle e).st.cap.opCounter = e.st.cap.opCounter ∧
      (serveAdjustIdle e).st.metro.valid = e.st.metro.valid ∧
      (serveAdjustIdle e).st.metro.switchCal = e.st.metro.switchCal := by
  unfold serveAdjustIdle; split <;> (try split_ifs) <;> simp

/-- `afterCommit` changes at most: metro, zm, axle, cap, store, tm. -/
@[simp] theorem afterCommit_keeps (e : Ev) :
    (afterCommit e).st.pending = e.st.pending ∧ (afterCommit e).st.mainSupply = e.st.mainSupply ∧
      (afterCommit e).st.link = e.st.link ∧ (afterCommit e).st.acq = e.st.acq ∧
      (afterCommit e).st.site = e.st.site ∧ (afterCommit e).st.cal = e.st.cal ∧
      (afterCommit e).st.cap.timeout = e.st.cap.timeout ∧ (afterCommit e).st.cap.opCounter = e.st.cap.opCounter ∧
      (afterCommit e).st.store.config = e.st.store.config ∧
      (afterCommit e).st.store.checksum = e.st.store.checksum ∧
      (afterCommit e).st.store.eventCounter = e.st.store.eventCounter ∧
      (afterCommit e).st.store.trail = e.st.store.trail ∧ (afterCommit e).st.store.nextSeq = e.st.store.nextSeq ∧
      (afterCommit e).st.store.audits = e.st.store.audits ∧
      (afterCommit e).st.store.auditCounter = e.st.store.auditCounter ∧
      (afterCommit e).st.metro.switchCal = e.st.metro.switchCal := by
  simp [afterCommit]

/-- `commitAdjustment` changes at most: metro, zm, axle, cap, store, tm. -/
@[simp] theorem commitAdjustment_keeps (ok : Bool) (e : Ev) :
    (commitAdjustment ok e).1.st.pending = e.st.pending ∧
      (commitAdjustment ok e).1.st.mainSupply = e.st.mainSupply ∧ (commitAdjustment ok e).1.st.link = e.st.link ∧
      (commitAdjustment ok e).1.st.acq = e.st.acq ∧ (commitAdjustment ok e).1.st.site = e.st.site ∧
      (commitAdjustment ok e).1.st.cal = e.st.cal ∧ (commitAdjustment ok e).1.st.cap.timeout = e.st.cap.timeout ∧
      (commitAdjustment ok e).1.st.cap.opCounter = e.st.cap.opCounter ∧
      (commitAdjustment ok e).1.st.store.audits = e.st.store.audits ∧
      (commitAdjustment ok e).1.st.store.auditCounter = e.st.store.auditCounter ∧
      (commitAdjustment ok e).1.st.metro.switchCal = e.st.metro.switchCal := by
  cases ok <;> unfold commitAdjustment <;> split
  any_goals (simp; done)
  all_goals
    repeat' split
    all_goals first
      | (simp [commitStore]; done)
      | (exfalso; simp_all; done)

/-- `readMetrologyStatus` changes at most: nothing. -/
@[simp] theorem readMetrologyStatus_keeps (e : Ev) :
    (readMetrologyStatus e).1.st.pending = e.st.pending ∧
      (readMetrologyStatus e).1.st.mainSupply = e.st.mainSupply ∧ (readMetrologyStatus e).1.st.link = e.st.link ∧
      (readMetrologyStatus e).1.st.acq = e.st.acq ∧ (readMetrologyStatus e).1.st.zm = e.st.zm ∧
      (readMetrologyStatus e).1.st.axle = e.st.axle ∧ (readMetrologyStatus e).1.st.site = e.st.site ∧
      (readMetrologyStatus e).1.st.cap = e.st.cap ∧ (readMetrologyStatus e).1.st.store = e.st.store ∧
      (readMetrologyStatus e).1.st.tm = e.st.tm ∧ (readMetrologyStatus e).1.st.metro = e.st.metro ∧
      (readMetrologyStatus e).1.st.cal = e.st.cal := by
  unfold readMetrologyStatus; (try dsimp only); (try split) <;> (try split) <;> simp

/-- `readConfiguration` changes at most: nothing. -/
@[simp] theorem readConfiguration_keeps (x : ConfigSelector) (e : Ev) :
    (readConfiguration x e).1.st.pending = e.st.pending ∧
      (readConfiguration x e).1.st.mainSupply = e.st.mainSupply ∧ (readConfiguration x e).1.st.link = e.st.link ∧
      (readConfiguration x e).1.st.acq = e.st.acq ∧ (readConfiguration x e).1.st.zm = e.st.zm ∧
      (readConfiguration x e).1.st.axle = e.st.axle ∧ (readConfiguration x e).1.st.site = e.st.site ∧
      (readConfiguration x e).1.st.cap = e.st.cap ∧ (readConfiguration x e).1.st.store = e.st.store ∧
      (readConfiguration x e).1.st.tm = e.st.tm ∧ (readConfiguration x e).1.st.metro = e.st.metro ∧
      (readConfiguration x e).1.st.cal = e.st.cal := by
  unfold readConfiguration; (try dsimp only); (try split) <;> (try split) <;> simp

/-- `readAuditTrail` changes at most: nothing. -/
@[simp] theorem readAuditTrail_keeps (n : Nat) (e : Ev) :
    (readAuditTrail n e).1.st.pending = e.st.pending ∧ (readAuditTrail n e).1.st.mainSupply = e.st.mainSupply ∧
      (readAuditTrail n e).1.st.link = e.st.link ∧ (readAuditTrail n e).1.st.acq = e.st.acq ∧
      (readAuditTrail n e).1.st.zm = e.st.zm ∧ (readAuditTrail n e).1.st.axle = e.st.axle ∧
      (readAuditTrail n e).1.st.site = e.st.site ∧ (readAuditTrail n e).1.st.cap = e.st.cap ∧
      (readAuditTrail n e).1.st.store = e.st.store ∧ (readAuditTrail n e).1.st.tm = e.st.tm ∧
      (readAuditTrail n e).1.st.metro = e.st.metro ∧ (readAuditTrail n e).1.st.cal = e.st.cal := by
  unfold readAuditTrail; (try dsimp only); (try split) <;> (try split) <;> simp

/-! ## Audits (chapter 9) -/

/-- `setAudit` changes at most: cap. -/
@[simp] theorem setAudit_keeps (x : AuditSession) (s : State) :
    (setAudit x s).pending = s.pending ∧ (setAudit x s).mainSupply = s.mainSupply ∧
      (setAudit x s).link = s.link ∧ (setAudit x s).acq = s.acq ∧ (setAudit x s).zm = s.zm ∧
      (setAudit x s).axle = s.axle ∧ (setAudit x s).site = s.site ∧ (setAudit x s).store = s.store ∧
      (setAudit x s).tm = s.tm ∧ (setAudit x s).metro = s.metro ∧ (setAudit x s).cal = s.cal ∧
      (setAudit x s).cap.timeout = s.cap.timeout ∧ (setAudit x s).cap.opCounter = s.cap.opCounter := by
  simp [setAudit]

/-- `openAudit` changes at most: cap. -/
@[simp] theorem openAudit_keeps (e : Ev) :
    (openAudit e).1.st.pending = e.st.pending ∧ (openAudit e).1.st.mainSupply = e.st.mainSupply ∧
      (openAudit e).1.st.link = e.st.link ∧ (openAudit e).1.st.acq = e.st.acq ∧ (openAudit e).1.st.zm = e.st.zm ∧
      (openAudit e).1.st.axle = e.st.axle ∧ (openAudit e).1.st.site = e.st.site ∧
      (openAudit e).1.st.store = e.st.store ∧ (openAudit e).1.st.tm = e.st.tm ∧
      (openAudit e).1.st.metro = e.st.metro ∧ (openAudit e).1.st.cal = e.st.cal ∧
      (openAudit e).1.st.cap.timeout = e.st.cap.timeout ∧ (openAudit e).1.st.cap.opCounter = e.st.cap.opCounter := by
  unfold openAudit; (try dsimp only); split <;> simp

/-- `abandonSession` changes at most: cap. -/
@[simp] theorem abandonSession_keeps (c : AbandonCause) (e : Ev) :
    (abandonSession c e).st.pending = e.st.pending ∧ (abandonSession c e).st.mainSupply = e.st.mainSupply ∧
      (abandonSession c e).st.link = e.st.link ∧ (abandonSession c e).st.acq = e.st.acq ∧
      (abandonSession c e).st.zm = e.st.zm ∧ (abandonSession c e).st.axle = e.st.axle ∧
      (abandonSession c e).st.site = e.st.site ∧ (abandonSession c e).st.store = e.st.store ∧
      (abandonSession c e).st.tm = e.st.tm ∧ (abandonSession c e).st.metro = e.st.metro ∧
      (abandonSession c e).st.cal = e.st.cal ∧ (abandonSession c e).st.cap.timeout = e.st.cap.timeout ∧
      (abandonSession c e).st.cap.opCounter = e.st.cap.opCounter := by
  simp [abandonSession]

/-- `abandonAudit` changes at most: cap. -/
@[simp] theorem abandonAudit_keeps (e : Ev) :
    (abandonAudit e).1.st.pending = e.st.pending ∧ (abandonAudit e).1.st.mainSupply = e.st.mainSupply ∧
      (abandonAudit e).1.st.link = e.st.link ∧ (abandonAudit e).1.st.acq = e.st.acq ∧
      (abandonAudit e).1.st.zm = e.st.zm ∧ (abandonAudit e).1.st.axle = e.st.axle ∧
      (abandonAudit e).1.st.site = e.st.site ∧ (abandonAudit e).1.st.store = e.st.store ∧
      (abandonAudit e).1.st.tm = e.st.tm ∧ (abandonAudit e).1.st.metro = e.st.metro ∧
      (abandonAudit e).1.st.cal = e.st.cal ∧ (abandonAudit e).1.st.cap.timeout = e.st.cap.timeout ∧
      (abandonAudit e).1.st.cap.opCounter = e.st.cap.opCounter := by
  unfold abandonAudit; split <;> simp

/-- `serveAuditIdle` changes at most: cap. -/
@[simp] theorem serveAuditIdle_keeps (e : Ev) :
    (serveAuditIdle e).st.pending = e.st.pending ∧ (serveAuditIdle e).st.mainSupply = e.st.mainSupply ∧
      (serveAuditIdle e).st.link = e.st.link ∧ (serveAuditIdle e).st.acq = e.st.acq ∧
      (serveAuditIdle e).st.zm = e.st.zm ∧ (serveAuditIdle e).st.axle = e.st.axle ∧
      (serveAuditIdle e).st.site = e.st.site ∧ (serveAuditIdle e).st.store = e.st.store ∧
      (serveAuditIdle e).st.tm = e.st.tm ∧ (serveAuditIdle e).st.metro = e.st.metro ∧
      (serveAuditIdle e).st.cal = e.st.cal ∧ (serveAuditIdle e).st.cap.timeout = e.st.cap.timeout ∧
      (serveAuditIdle e).st.cap.opCounter = e.st.cap.opCounter := by
  unfold serveAuditIdle; split <;> (try split_ifs) <;> simp

/-- `stepInSession` changes at most: cap. -/
@[simp] theorem stepInSession_keeps (x : AuditSession) (f : StepFields) (e : Ev) :
    (stepInSession x f e).1.st.pending = e.st.pending ∧
      (stepInSession x f e).1.st.mainSupply = e.st.mainSupply ∧ (stepInSession x f e).1.st.link = e.st.link ∧
      (stepInSession x f e).1.st.acq = e.st.acq ∧ (stepInSession x f e).1.st.zm = e.st.zm ∧
      (stepInSession x f e).1.st.axle = e.st.axle ∧ (stepInSession x f e).1.st.site = e.st.site ∧
      (stepInSession x f e).1.st.store = e.st.store ∧ (stepInSession x f e).1.st.tm = e.st.tm ∧
      (stepInSession x f e).1.st.metro = e.st.metro ∧ (stepInSession x f e).1.st.cal = e.st.cal ∧
      (stepInSession x f e).1.st.cap.timeout = e.st.cap.timeout ∧
      (stepInSession x f e).1.st.cap.opCounter = e.st.cap.opCounter := by
  unfold stepInSession; (try dsimp only); split_ifs <;> (try split) <;> (try split_ifs) <;> simp

/-- `auditStep` changes at most: cap. -/
@[simp] theorem auditStep_keeps (f : StepFields) (e : Ev) :
    (auditStep f e).1.st.pending = e.st.pending ∧ (auditStep f e).1.st.mainSupply = e.st.mainSupply ∧
      (auditStep f e).1.st.link = e.st.link ∧ (auditStep f e).1.st.acq = e.st.acq ∧
      (auditStep f e).1.st.zm = e.st.zm ∧ (auditStep f e).1.st.axle = e.st.axle ∧
      (auditStep f e).1.st.site = e.st.site ∧ (auditStep f e).1.st.store = e.st.store ∧
      (auditStep f e).1.st.tm = e.st.tm ∧ (auditStep f e).1.st.metro = e.st.metro ∧
      (auditStep f e).1.st.cal = e.st.cal ∧ (auditStep f e).1.st.cap.timeout = e.st.cap.timeout ∧
      (auditStep f e).1.st.cap.opCounter = e.st.cap.opCounter := by
  unfold auditStep; split <;> simp

/-- `serveStep` changes at most: cap. -/
@[simp] theorem serveStep_keeps (e : Ev) :
    (serveStep e).st.pending = e.st.pending ∧ (serveStep e).st.mainSupply = e.st.mainSupply ∧
      (serveStep e).st.link = e.st.link ∧ (serveStep e).st.acq = e.st.acq ∧ (serveStep e).st.zm = e.st.zm ∧
      (serveStep e).st.axle = e.st.axle ∧ (serveStep e).st.site = e.st.site ∧
      (serveStep e).st.store = e.st.store ∧ (serveStep e).st.tm = e.st.tm ∧ (serveStep e).st.metro = e.st.metro ∧
      (serveStep e).st.cal = e.st.cal ∧ (serveStep e).st.cap.timeout = e.st.cap.timeout ∧
      (serveStep e).st.cap.opCounter = e.st.cap.opCounter := by
  unfold serveStep; split <;> (try split) <;> (try dsimp only) <;> (try split) <;> (try split) <;> (try split) <;> simp

/-- `closeSession` changes at most: cap, store, tm, metro. -/
@[simp] theorem closeSession_keeps (ok : Bool) (x : AuditSession) (t : DateTime) (e : Ev) :
    (closeSession ok x t e).1.st.pending = e.st.pending ∧
      (closeSession ok x t e).1.st.mainSupply = e.st.mainSupply ∧ (closeSession ok x t e).1.st.link = e.st.link ∧
      (closeSession ok x t e).1.st.acq = e.st.acq ∧ (closeSession ok x t e).1.st.zm = e.st.zm ∧
      (closeSession ok x t e).1.st.axle = e.st.axle ∧ (closeSession ok x t e).1.st.site = e.st.site ∧
      (closeSession ok x t e).1.st.cal = e.st.cal ∧ (closeSession ok x t e).1.st.cap.timeout = e.st.cap.timeout ∧
      (closeSession ok x t e).1.st.cap.opCounter = e.st.cap.opCounter ∧
      (closeSession ok x t e).1.st.store.config = e.st.store.config ∧
      (closeSession ok x t e).1.st.store.checksum = e.st.store.checksum ∧
      (closeSession ok x t e).1.st.store.eventCounter = e.st.store.eventCounter ∧
      (closeSession ok x t e).1.st.metro.valid = e.st.metro.valid ∧
      (closeSession ok x t e).1.st.metro.switchCal = e.st.metro.switchCal := by
  unfold closeSession; cases ok <;> simp [auditCloseStore]

/-- `closeAudit` changes at most: cap, store, tm, metro. -/
@[simp] theorem closeAudit_keeps (ok : Bool) (e : Ev) :
    (closeAudit ok e).1.st.pending = e.st.pending ∧ (closeAudit ok e).1.st.mainSupply = e.st.mainSupply ∧
      (closeAudit ok e).1.st.link = e.st.link ∧ (closeAudit ok e).1.st.acq = e.st.acq ∧
      (closeAudit ok e).1.st.zm = e.st.zm ∧ (closeAudit ok e).1.st.axle = e.st.axle ∧
      (closeAudit ok e).1.st.site = e.st.site ∧ (closeAudit ok e).1.st.cal = e.st.cal ∧
      (closeAudit ok e).1.st.cap.timeout = e.st.cap.timeout ∧
      (closeAudit ok e).1.st.cap.opCounter = e.st.cap.opCounter ∧
      (closeAudit ok e).1.st.store.config = e.st.store.config ∧
      (closeAudit ok e).1.st.store.checksum = e.st.store.checksum ∧
      (closeAudit ok e).1.st.store.eventCounter = e.st.store.eventCounter ∧
      (closeAudit ok e).1.st.metro.valid = e.st.metro.valid ∧
      (closeAudit ok e).1.st.metro.switchCal = e.st.metro.switchCal := by
  unfold closeAudit; split <;> (try split) <;> simp

/-- `readAuditRecord` changes at most: nothing. -/
@[simp] theorem readAuditRecord_keeps (x : AuditSelector) (e : Ev) :
    (readAuditRecord x e).1.st.pending = e.st.pending ∧
      (readAuditRecord x e).1.st.mainSupply = e.st.mainSupply ∧ (readAuditRecord x e).1.st.link = e.st.link ∧
      (readAuditRecord x e).1.st.acq = e.st.acq ∧ (readAuditRecord x e).1.st.zm = e.st.zm ∧
      (readAuditRecord x e).1.st.axle = e.st.axle ∧ (readAuditRecord x e).1.st.site = e.st.site ∧
      (readAuditRecord x e).1.st.cap = e.st.cap ∧ (readAuditRecord x e).1.st.store = e.st.store ∧
      (readAuditRecord x e).1.st.tm = e.st.tm ∧ (readAuditRecord x e).1.st.metro = e.st.metro ∧
      (readAuditRecord x e).1.st.cal = e.st.cal := by
  unfold readAuditRecord; (try dsimp only); split <;> (try split) <;> simp

/-! ## The calendar (chapter 10) -/

/-- `setCalValue` changes at most: cal. -/
@[simp] theorem setCalValue_keeps (v : Option DateTime) (s : State) :
    (setCalValue v s).pending = s.pending ∧ (setCalValue v s).mainSupply = s.mainSupply ∧
      (setCalValue v s).link = s.link ∧ (setCalValue v s).acq = s.acq ∧ (setCalValue v s).zm = s.zm ∧
      (setCalValue v s).axle = s.axle ∧ (setCalValue v s).site = s.site ∧ (setCalValue v s).cap = s.cap ∧
      (setCalValue v s).store = s.store ∧ (setCalValue v s).tm = s.tm ∧ (setCalValue v s).metro = s.metro := by
  simp [setCalValue]

/-- `dayEvent` changes at most: metro. -/
@[simp] theorem dayEvent_keeps (t : DateTime) (e : Ev) :
    (dayEvent t e).st.pending = e.st.pending ∧ (dayEvent t e).st.mainSupply = e.st.mainSupply ∧
      (dayEvent t e).st.link = e.st.link ∧ (dayEvent t e).st.acq = e.st.acq ∧ (dayEvent t e).st.zm = e.st.zm ∧
      (dayEvent t e).st.axle = e.st.axle ∧ (dayEvent t e).st.site = e.st.site ∧ (dayEvent t e).st.cap = e.st.cap ∧
      (dayEvent t e).st.store = e.st.store ∧ (dayEvent t e).st.tm = e.st.tm ∧ (dayEvent t e).st.cal = e.st.cal ∧
      (dayEvent t e).st.metro.valid = e.st.metro.valid ∧ (dayEvent t e).st.metro.switchCal = e.st.metro.switchCal := by
  simp [dayEvent]

/-- `secondCarry` changes at most: cal, store, tm, metro. -/
@[simp] theorem secondCarry_keeps (oks : List Bool) (e : Ev) :
    (secondCarry oks e).st.pending = e.st.pending ∧ (secondCarry oks e).st.mainSupply = e.st.mainSupply ∧
      (secondCarry oks e).st.link = e.st.link ∧ (secondCarry oks e).st.acq = e.st.acq ∧
      (secondCarry oks e).st.zm = e.st.zm ∧ (secondCarry oks e).st.axle = e.st.axle ∧
      (secondCarry oks e).st.site = e.st.site ∧ (secondCarry oks e).st.cap = e.st.cap ∧
      (secondCarry oks e).st.store.config = e.st.store.config ∧
      (secondCarry oks e).st.store.checksum = e.st.store.checksum ∧
      (secondCarry oks e).st.store.eventCounter = e.st.store.eventCounter ∧
      (secondCarry oks e).st.store.trail = e.st.store.trail ∧
      (secondCarry oks e).st.store.nextSeq = e.st.store.nextSeq ∧
      (secondCarry oks e).st.store.audits = e.st.store.audits ∧
      (secondCarry oks e).st.store.auditCounter = e.st.store.auditCounter ∧
      (secondCarry oks e).st.metro.valid = e.st.metro.valid ∧
      (secondCarry oks e).st.metro.switchCal = e.st.metro.switchCal := by
  unfold secondCarry
  split
  · simp
  · (try dsimp only)
    split
    · simp
    · unfold Ev.when
      split_ifs <;> simp

/-- `sourceNote` changes at most: nothing. -/
@[simp] theorem sourceNote_keeps (e : Ev) :
    (sourceNote e).st.pending = e.st.pending ∧ (sourceNote e).st.mainSupply = e.st.mainSupply ∧
      (sourceNote e).st.link = e.st.link ∧ (sourceNote e).st.acq = e.st.acq ∧ (sourceNote e).st.zm = e.st.zm ∧
      (sourceNote e).st.axle = e.st.axle ∧ (sourceNote e).st.site = e.st.site ∧ (sourceNote e).st.cap = e.st.cap ∧
      (sourceNote e).st.store = e.st.store ∧ (sourceNote e).st.tm = e.st.tm ∧
      (sourceNote e).st.metro = e.st.metro ∧ (sourceNote e).st.cal = e.st.cal := by
  simp [sourceNote]

/-- `crystalStop` changes at most: cal. -/
@[simp] theorem crystalStop_keeps (e : Ev) :
    (crystalStop e).st.pending = e.st.pending ∧ (crystalStop e).st.mainSupply = e.st.mainSupply ∧
      (crystalStop e).st.link = e.st.link ∧ (crystalStop e).st.acq = e.st.acq ∧ (crystalStop e).st.zm = e.st.zm ∧
      (crystalStop e).st.axle = e.st.axle ∧ (crystalStop e).st.site = e.st.site ∧
      (crystalStop e).st.cap = e.st.cap ∧ (crystalStop e).st.store = e.st.store ∧
      (crystalStop e).st.tm = e.st.tm ∧ (crystalStop e).st.metro = e.st.metro := by
  unfold crystalStop; split_ifs <;> simp

/-- `crystalReturn` changes at most: cal. -/
@[simp] theorem crystalReturn_keeps (e : Ev) :
    (crystalReturn e).st.pending = e.st.pending ∧ (crystalReturn e).st.mainSupply = e.st.mainSupply ∧
      (crystalReturn e).st.link = e.st.link ∧ (crystalReturn e).st.acq = e.st.acq ∧
      (crystalReturn e).st.zm = e.st.zm ∧ (crystalReturn e).st.axle = e.st.axle ∧
      (crystalReturn e).st.site = e.st.site ∧ (crystalReturn e).st.cap = e.st.cap ∧
      (crystalReturn e).st.store = e.st.store ∧ (crystalReturn e).st.tm = e.st.tm ∧
      (crystalReturn e).st.metro = e.st.metro := by
  unfold crystalReturn; split_ifs <;> simp

/-- `setCalendar` changes at most: cal, store, tm, metro. -/
@[simp] theorem setCalendar_keeps (ok : Bool) (t : DateTime) (e : Ev) :
    (setCalendar ok t e).1.st.pending = e.st.pending ∧ (setCalendar ok t e).1.st.mainSupply = e.st.mainSupply ∧
      (setCalendar ok t e).1.st.link = e.st.link ∧ (setCalendar ok t e).1.st.acq = e.st.acq ∧
      (setCalendar ok t e).1.st.zm = e.st.zm ∧ (setCalendar ok t e).1.st.axle = e.st.axle ∧
      (setCalendar ok t e).1.st.site = e.st.site ∧ (setCalendar ok t e).1.st.cap = e.st.cap ∧
      (setCalendar ok t e).1.st.store.config = e.st.store.config ∧
      (setCalendar ok t e).1.st.store.checksum = e.st.store.checksum ∧
      (setCalendar ok t e).1.st.store.eventCounter = e.st.store.eventCounter ∧
      (setCalendar ok t e).1.st.store.audits = e.st.store.audits ∧
      (setCalendar ok t e).1.st.store.auditCounter = e.st.store.auditCounter ∧
      (setCalendar ok t e).1.st.metro.valid = e.st.metro.valid ∧
      (setCalendar ok t e).1.st.metro.switchCal = e.st.metro.switchCal := by
  unfold setCalendar; split <;> (try dsimp only) <;> cases ok <;> simp

/-- `readCalendar` changes at most: nothing. -/
@[simp] theorem readCalendar_keeps (e : Ev) :
    (readCalendar e).1.st.pending = e.st.pending ∧ (readCalendar e).1.st.mainSupply = e.st.mainSupply ∧
      (readCalendar e).1.st.link = e.st.link ∧ (readCalendar e).1.st.acq = e.st.acq ∧
      (readCalendar e).1.st.zm = e.st.zm ∧ (readCalendar e).1.st.axle = e.st.axle ∧
      (readCalendar e).1.st.site = e.st.site ∧ (readCalendar e).1.st.cap = e.st.cap ∧
      (readCalendar e).1.st.store = e.st.store ∧ (readCalendar e).1.st.tm = e.st.tm ∧
      (readCalendar e).1.st.metro = e.st.metro ∧ (readCalendar e).1.st.cal = e.st.cal := by
  simp [readCalendar]

/-! ## The link port (chapter 11) -/

/-- `identify` changes at most: nothing. -/
@[simp] theorem identify_keeps (e : Ev) :
    (identify e).1.st.pending = e.st.pending ∧ (identify e).1.st.mainSupply = e.st.mainSupply ∧
      (identify e).1.st.link = e.st.link ∧ (identify e).1.st.acq = e.st.acq ∧ (identify e).1.st.zm = e.st.zm ∧
      (identify e).1.st.axle = e.st.axle ∧ (identify e).1.st.site = e.st.site ∧ (identify e).1.st.cap = e.st.cap ∧
      (identify e).1.st.store = e.st.store ∧ (identify e).1.st.tm = e.st.tm ∧
      (identify e).1.st.metro = e.st.metro ∧ (identify e).1.st.cal = e.st.cal := by
  simp [identify]

/-- `readStatus` changes at most: link. -/
@[simp] theorem readStatus_keeps (e : Ev) :
    (readStatus e).1.st.pending = e.st.pending ∧ (readStatus e).1.st.mainSupply = e.st.mainSupply ∧
      (readStatus e).1.st.acq = e.st.acq ∧ (readStatus e).1.st.zm = e.st.zm ∧
      (readStatus e).1.st.axle = e.st.axle ∧ (readStatus e).1.st.site = e.st.site ∧
      (readStatus e).1.st.cap = e.st.cap ∧ (readStatus e).1.st.store = e.st.store ∧
      (readStatus e).1.st.tm = e.st.tm ∧ (readStatus e).1.st.metro = e.st.metro ∧
      (readStatus e).1.st.cal = e.st.cal := by
  simp [readStatus]

/-- `askWarmReset` changes at most: nothing. -/
@[simp] theorem askWarmReset_keeps (e : Ev) :
    (askWarmReset e).1.st.pending = e.st.pending ∧ (askWarmReset e).1.st.mainSupply = e.st.mainSupply ∧
      (askWarmReset e).1.st.link = e.st.link ∧ (askWarmReset e).1.st.acq = e.st.acq ∧
      (askWarmReset e).1.st.zm = e.st.zm ∧ (askWarmReset e).1.st.axle = e.st.axle ∧
      (askWarmReset e).1.st.site = e.st.site ∧ (askWarmReset e).1.st.cap = e.st.cap ∧
      (askWarmReset e).1.st.store = e.st.store ∧ (askWarmReset e).1.st.tm = e.st.tm ∧
      (askWarmReset e).1.st.metro = e.st.metro ∧ (askWarmReset e).1.st.cal = e.st.cal := by
  simp [askWarmReset]

/-- `setNoticeMask` changes at most: link, site. -/
@[simp] theorem setNoticeMask_keeps (ok : Bool) (m : BitVec 32) (b : Bool) (e : Ev) :
    (setNoticeMask ok m b e).1.st.pending = e.st.pending ∧
      (setNoticeMask ok m b e).1.st.mainSupply = e.st.mainSupply ∧ (setNoticeMask ok m b e).1.st.acq = e.st.acq ∧
      (setNoticeMask ok m b e).1.st.zm = e.st.zm ∧ (setNoticeMask ok m b e).1.st.axle = e.st.axle ∧
      (setNoticeMask ok m b e).1.st.cap = e.st.cap ∧ (setNoticeMask ok m b e).1.st.store = e.st.store ∧
      (setNoticeMask ok m b e).1.st.tm = e.st.tm ∧ (setNoticeMask ok m b e).1.st.metro = e.st.metro ∧
      (setNoticeMask ok m b e).1.st.cal = e.st.cal := by
  unfold setNoticeMask settingsWrite; split_ifs <;> simp

/-! ## The sample event -/

/-- `serveResult` changes at most: zm, axle, metro, cap, store, tm. -/
@[simp] theorem serveResult_keeps (ok : Bool) (r : SampleResult) (v : Bank Int 16) (e : Ev) :
    (serveResult ok r v e).st.pending = e.st.pending ∧ (serveResult ok r v e).st.mainSupply = e.st.mainSupply ∧
      (serveResult ok r v e).st.link = e.st.link ∧ (serveResult ok r v e).st.acq = e.st.acq ∧
      (serveResult ok r v e).st.site = e.st.site ∧ (serveResult ok r v e).st.cal = e.st.cal ∧
      (serveResult ok r v e).st.cap.timeout = e.st.cap.timeout ∧
      (serveResult ok r v e).st.cap.opCounter = e.st.cap.opCounter ∧
      (serveResult ok r v e).st.store.config = e.st.store.config ∧
      (serveResult ok r v e).st.store.checksum = e.st.store.checksum ∧
      (serveResult ok r v e).st.store.eventCounter = e.st.store.eventCounter ∧
      (serveResult ok r v e).st.store.trail = e.st.store.trail ∧
      (serveResult ok r v e).st.store.nextSeq = e.st.store.nextSeq ∧
      (serveResult ok r v e).st.store.audits = e.st.store.audits ∧
      (serveResult ok r v e).st.store.auditCounter = e.st.store.auditCounter ∧
      (serveResult ok r v e).st.metro.valid = e.st.metro.valid ∧
      (serveResult ok r v e).st.metro.switchCal = e.st.metro.switchCal := by
  simp [serveResult]

/-- `sampleEvent` changes at most: acq, zm, axle, metro, cap, store, tm. -/
@[simp] theorem sampleEvent_keeps (inp : SampleInput) (e : Ev) :
    (sampleEvent inp e).st.pending = e.st.pending ∧ (sampleEvent inp e).st.mainSupply = e.st.mainSupply ∧
      (sampleEvent inp e).st.link = e.st.link ∧ (sampleEvent inp e).st.site = e.st.site ∧
      (sampleEvent inp e).st.cal = e.st.cal ∧ (sampleEvent inp e).st.cap.timeout = e.st.cap.timeout ∧
      (sampleEvent inp e).st.cap.opCounter = e.st.cap.opCounter ∧
      (sampleEvent inp e).st.acq.spikeLimit = e.st.acq.spikeLimit ∧
      (sampleEvent inp e).st.store.config = e.st.store.config ∧
      (sampleEvent inp e).st.store.checksum = e.st.store.checksum ∧
      (sampleEvent inp e).st.store.eventCounter = e.st.store.eventCounter ∧
      (sampleEvent inp e).st.store.trail = e.st.store.trail ∧
      (sampleEvent inp e).st.store.nextSeq = e.st.store.nextSeq ∧
      (sampleEvent inp e).st.store.audits = e.st.store.audits ∧
      (sampleEvent inp e).st.store.auditCounter = e.st.store.auditCounter ∧
      (sampleEvent inp e).st.metro.valid = e.st.metro.valid ∧
      (sampleEvent inp e).st.metro.switchCal = e.st.metro.switchCal := by
  simp [sampleEvent]

end Sys2Proof.Machine
end

