-- ==== Sys2Proof/Laws/Frames.lean ====
section
/-! SUPPORT. How a property of states goes through the frames around events and requests: enough for it not to speak of
the link port nor of the entry lamp, and to be kept by the effect itself. -/

namespace Sys2Proof.Machine

/-- A property that does not speak of the link port nor of the entry lamp. -/
structure Blind (P : State → Prop) : Prop where
  link : ∀ s l, P s → P (s.setLink l)
  lamp : ∀ s x, P s → P (s.setCap { s.cap with entryLamp := x })

namespace Blind

variable {P : State → Prop} (hb : Blind P)
include hb

theorem settle {s0 : State} {e : Ev} (h : P e.st) : P (Machine.settle s0 e) := by
  unfold Machine.settle formEntryLamp
  apply hb.link
  split_ifs
  · exact h
  · exact hb.lamp _ _ h

theorem serveLink {s : State} (h : P s) : P (Machine.serveLink s) := hb.link _ _ h

theorem answer {k : Byte} {r : Reply} {s : State} (h : P s) : P (Machine.answer k r s) := hb.link _ _ h

theorem endFrame {s : State} (h : P s) : P (Machine.endFrame s) := hb.link _ _ h

/-- An event keeps what its effect keeps. -/
theorem event {f : Ev → Ev} {s t : State} (ht : Machine.event f s = .next t) (h0 : P s)
    (h : P (f (Ev.start s)).st) : P t :=
  event_keeps f s ht h0 (hb.serveLink (hb.settle h))

/-- A request keeps what its effect keeps. -/
theorem request {k : Byte} {f : Ev → Ev × Reply} {s t : State} (ht : Machine.request k f s = .next t) (h0 : P s)
    (h : P (f (Ev.start (Machine.endFrame s))).1.st) : P t := by
  simp only [Machine.request, Host.Outcome.next.injEq] at ht
  subst ht
  split_ifs
  · split
    · exact hb.serveLink (hb.answer (hb.settle h))
    · exact hb.serveLink (hb.answer (hb.endFrame h0))
    · exact hb.endFrame h0
  · exact h0

/-- A request with a payload keeps what its effect keeps. -/
theorem requestWith {α : Type} {k : Byte} {p : Option α} {f : α → Ev → Ev × Reply} {s t : State}
    (ht : Machine.requestWith k p f s = .next t) (h0 : P s)
    (h : ∀ x, P (f x (Ev.start (Machine.endFrame s))).1.st) : P t := by
  cases p with
  | none => exact hb.request ht h0 (hb.endFrame h0)
  | some x => exact hb.request ht h0 (h x)

/-- A row that names a count keeps what the sample event keeps. -/
theorem sampleWhen {m : Mark} {inp : SampleInput} {s t : State} (ht : Machine.sampleWhen m inp s = .next t) (h0 : P s)
    (h : P (sampleEvent inp (Ev.start s)).st) : P t := by
  unfold Machine.sampleWhen at ht
  split_ifs at ht
  · exact hb.event ht h0 h
  · injection ht with ht; exact ht ▸ h0

/-- A link error keeps it. -/
theorem linkError {c : LinkCause} {k : Byte} {s : State} (h : P s) : P (Machine.linkError c k s) := by
  unfold Machine.linkError
  dsimp only
  split_ifs
  · exact hb.serveLink (hb.answer (hb.endFrame h))
  · exact hb.endFrame h

/-- The end of a transmission keeps what a warm reset keeps. -/
theorem transmitted {inputs : ResetInputs} {s : State} (h : P s) (hw : P (warmReset inputs s)) :
    P (Machine.transmitted inputs s) := by
  unfold Machine.transmitted
  split
  · exact h
  · exact hb.serveLink (hb.link _ _ h)
  · split_ifs
    · exact hw
    · exact hb.serveLink (hb.link _ _ h)

end Blind

end Sys2Proof.Machine
end

