-- ==== Sys2Proof/Laws/Slots.lean ====
section
/-! SUPPORT. What becomes of the operation slot: which operations leave an adjustment session as it is, and the course of
a capture operation through the events that serve it. -/

namespace Sys2Proof.Machine

/-- A conditional change relates as its two outcomes do. -/
theorem Ev.when_rel {R : State → State → Prop} (b : Bool) (g : Ev → Ev) (e : Ev) (h0 : R e.st e.st)
    (h : R e.st (g e).st) : R e.st (e.when b g).st := by
  cases b
  · exact h0
  · exact h

/-! ## The slot after each operation -/

@[simp] theorem setSlot_slot (x : Slot) (s : State) : (setSlot x s).cap.slot = x := rfl
@[simp] theorem setSession_slot (x : AdjustSession) (s : State) : (setSession x s).cap.slot = .adjustment x := rfl
@[simp] theorem setAudit_slot (x : AuditSession) (s : State) : (setAudit x s).cap.slot = .audit x := rfl

@[simp] theorem failOp_slot (op : Operation) (r : FailReason) (e : Ev) : (failOp op r e).st.cap.slot = .free := rfl

@[simp] theorem failOp_store (op : Operation) (r : FailReason) (e : Ev) : (failOp op r e).st.store = e.st.store := rfl

@[simp] theorem failOp_reserved (op : Operation) (r : FailReason) (e : Ev) : (failOp op r e).st.tm.reserved = 0 := rfl

@[simp] theorem completionLamps_slot (o : Completion) (s : State) : (completionLamps o s).cap.slot = s.cap.slot := by
  unfold completionLamps; split <;> rfl

@[simp] theorem completeOp_slot (ok : Bool) (op : Operation) (r : CaptureResult) (e : Ev) :
    (completeOp ok op r e).st.cap.slot = .free := by
  unfold completeOp; dsimp only; split <;> simp

@[simp] theorem completeOp_reserved (ok : Bool) (op : Operation) (r : CaptureResult) (e : Ev) :
    (completeOp ok op r e).st.tm.reserved = 0 := by
  unfold completeOp; dsimp only; split <;> simp [setReserved]

@[simp] theorem completeOp_store (ok : Bool) (op : Operation) (r : CaptureResult) (e : Ev) :
    (completeOp ok op r e).st.store = (completeKind ok r e).1.st.store := by
  unfold completeOp; dsimp only; split <;> simp

@[simp] theorem completeComposite_slot (ok : Bool) (op : Operation) (e : Ev) :
    (completeComposite ok op e).st.cap.slot = .free := by
  unfold completeComposite; dsimp only; split <;> simp

@[simp] theorem takeWhole_slot (ok : Bool) (op : Operation) (e : Ev) : (takeWhole ok op e).st.cap.slot = .free := by
  unfold takeWhole; dsimp only; split <;> simp

/-! ## An adjustment session stays (R93, R145) -/

theorem takePosition_adjusting (ok : Bool) (op : Operation) (cs : List Component) (e : Ev) :
    (takePosition ok op cs e).st.cap.slot.isAdjustment = false := by
  unfold takePosition; dsimp only; split_ifs <;> simp <;> rfl

/-- The capture controller at a sample event leaves a session as it is. -/
@[simp] theorem serveOperation_adjusting (ok : Bool) (r : SampleResult) (e : Ev) :
    (serveOperation ok r e).st.cap.slot.isAdjustment = e.st.cap.slot.isAdjustment := by
  unfold serveOperation
  split
  · rename_i op h
    rw [h]
    dsimp only
    split
    · rfl
    · split
      · rename_i h2
        refine tryCapture_keeps (P := fun e1 => e1.st.cap.slot.isAdjustment = _) h2 ?_ ?_ ?_
        · intro r; rfl
        · intro cs; rw [takePosition_adjusting]; rfl
        · rw [takeWhole_slot]; rfl
      · split <;> rfl
  all_goals rfl

theorem reportComposite_adjusting (ok : Bool) (rep : MapReport) (op : Operation) (e : Ev)
    (h : e.st.cap.slot.isAdjustment = false) : (reportComposite ok rep op e).st.cap.slot.isAdjustment = false := by
  unfold reportComposite
  repeat' split
  all_goals first
    | exact h
    | (rw [completeComposite_slot]; rfl)
    | rfl

/-- A report to the capture controller leaves a session as it is. -/
@[simp] theorem reportToCapture_adjusting (ok : Bool) (rep : MapReport) (e : Ev) :
    (reportToCapture ok rep e).st.cap.slot.isAdjustment = e.st.cap.slot.isAdjustment := by
  unfold reportToCapture
  split
  · rename_i op h
    rw [h]
    have h2 : (resumeSettling rep.crossing op e).2.st.cap.slot.isAdjustment = false := by
      unfold resumeSettling; dsimp only; split_ifs
      · rfl
      · rw [h]; rfl
    dsimp only
    split
    · exact reportComposite_adjusting _ _ _ _ h2
    · unfold reportWhole
      dsimp only
      split_ifs <;> first | exact h2 | rfl
  all_goals rfl

@[simp] theorem formOccupancy_adjusting (ok : Bool) (m : AxleMap) (c : Bool) (l : Option LossCause) (e : Ev) :
    (formOccupancy ok m c l e).st.cap.slot.isAdjustment = e.st.cap.slot.isAdjustment := by
  unfold formOccupancy; dsimp only
  rw [reportToCapture_adjusting]
  simp only [Ev.when_note_st, Ev.upd_st]
  split_ifs <;> rfl

@[simp] theorem takeResult_adjusting (r : SampleResult) (s : State) :
    (takeResult r s).cap.slot.isAdjustment = s.cap.slot.isAdjustment := by
  unfold takeResult; dsimp only; split <;> simp

@[simp] theorem serveZero_adjusting (r : SampleResult) (e : Ev) :
    (serveZero r e).st.cap.slot.isAdjustment = e.st.cap.slot.isAdjustment := by
  unfold serveZero; dsimp only; split_ifs <;> simp

@[simp] theorem serveMap_adjusting (ok : Bool) (r : SampleResult) (e : Ev) :
    (serveMap ok r e).st.cap.slot.isAdjustment = e.st.cap.slot.isAdjustment := by
  unfold serveMap; dsimp only; split_ifs <;> simp

@[simp] theorem serveCalibration_adjusting (r : SampleResult) (v : Chan → Int) (t : Nat) (e : Ev) :
    (serveCalibration r v t e).st.cap.slot.isAdjustment = e.st.cap.slot.isAdjustment := by
  unfold serveCalibration
  split
  · rename_i sess h; rw [h]; dsimp only
    split
    · rw [h]
    · repeat' split
      all_goals rfl
  all_goals rfl

@[simp] theorem serveStep_adjusting (e : Ev) :
    (serveStep e).st.cap.slot.isAdjustment = e.st.cap.slot.isAdjustment := by
  unfold serveStep
  cases h : e.st.cap.slot <;> simp only [Slot.auditSession, h]
  rename_i x
  cases hf : x.flight <;> simp only [h]
  split_ifs <;> rfl

@[simp] theorem serveAuditIdle_adjusting (e : Ev) :
    (serveAuditIdle e).st.cap.slot.isAdjustment = e.st.cap.slot.isAdjustment := by
  unfold serveAuditIdle
  cases h : e.st.cap.slot <;> simp only [Slot.auditSession, h]
  split_ifs <;> rfl

@[simp] theorem acquire_adjusting (inp : SampleInput) (e : Ev) :
    (acquire inp e).ev.st.cap.slot.isAdjustment = e.st.cap.slot.isAdjustment := by
  unfold acquire acquireRun; dsimp only; split <;> dsimp only <;> (try split_ifs) <;> simp

@[simp] theorem warmupEnd_adjusting (e : Ev) :
    (warmupEnd e).st.cap.slot.isAdjustment = e.st.cap.slot.isAdjustment := by
  unfold warmupEnd; split_ifs <;> simp

@[simp] theorem changeChannel_adjusting (i : Chan) (n : Channel) (e : Ev) :
    (changeChannel i n e).st.cap.slot.isAdjustment = e.st.cap.slot.isAdjustment := by
  unfold changeChannel; dsimp only; unfold Ev.when; split_ifs <;> simp

@[simp] theorem decodeCrossing_adjusting (ok : Bool) (c : Crossing) (e : Ev) :
    (decodeCrossing ok c e).st.cap.slot.isAdjustment = e.st.cap.slot.isAdjustment := by
  simp [decodeCrossing]

@[simp] theorem decodeActivation_adjusting (ok : Bool) (l : LineNo) (el : Element) (t : Nat) (e : Ev) :
    (decodeActivation ok l el t e).st.cap.slot.isAdjustment = e.st.cap.slot.isAdjustment := by
  unfold decodeActivation; dsimp only; split <;> simp

@[simp] theorem activation_adjusting (ok : Bool) (l : LineNo) (el : Element) (t : Nat) (e : Ev) :
    (activation ok l el t e).st.cap.slot.isAdjustment = e.st.cap.slot.isAdjustment := by
  unfold activation; dsimp only
  split_ifs
  · rfl
  · unfold Ev.when; split_ifs <;> simp

@[simp] theorem singleElementFault_adjusting (l : LineNo) (e : Ev) :
    (singleElementFault l e).st.cap.slot.isAdjustment = e.st.cap.slot.isAdjustment := by
  unfold singleElementFault; dsimp only; split <;> simp

@[simp] theorem loopChange_adjusting (ok : Bool) (lp : Loop) (b : Bool) (e : Ev) :
    (loopChange ok lp b e).st.cap.slot.isAdjustment = e.st.cap.slot.isAdjustment := by
  unfold loopChange; dsimp only
  split_ifs
  · rfl
  · unfold Ev.when; split_ifs <;> simp

@[simp] theorem commitMap_adjusting (e : Ev) :
    (commitMap e).st.cap.slot.isAdjustment = e.st.cap.slot.isAdjustment := by
  unfold commitMap; dsimp only; split_ifs <;> simp

@[simp] theorem stageParameter_adjusting (f : StageFields) (e : Ev) :
    (stageParameter f e).1.st.cap.slot.isAdjustment = e.st.cap.slot.isAdjustment := by
  unfold stageParameter
  split
  · rename_i sess h
    rw [h]
    dsimp only
    repeat' split
    all_goals rfl
  all_goals rfl

@[simp] theorem calibrate_adjusting (k : CalKind) (d n : Nat) (e : Ev) :
    (calibrate k d n e).1.st.cap.slot.isAdjustment = e.st.cap.slot.isAdjustment := by
  unfold calibrate
  split
  · rename_i sess h
    rw [h]
    dsimp only
    repeat' split
    all_goals rfl
  all_goals rfl

@[simp] theorem auditStep_adjusting (f : StepFields) (e : Ev) :
    (auditStep f e).1.st.cap.slot.isAdjustment = e.st.cap.slot.isAdjustment := by
  unfold auditStep stepInSession
  cases h : e.st.cap.slot <;> simp only [Slot.auditSession, h]
  repeat' split
  all_goals rfl

@[simp] theorem abandonAudit_adjusting (e : Ev) :
    (abandonAudit e).1.st.cap.slot.isAdjustment = e.st.cap.slot.isAdjustment := by
  unfold abandonAudit
  cases h : e.st.cap.slot <;> simp only [Slot.auditSession, h]
  rfl

@[simp] theorem cancelOperation_adjusting (n : Nat) (e : Ev) :
    (cancelOperation n e).1.st.cap.slot.isAdjustment = e.st.cap.slot.isAdjustment := by
  unfold cancelOperation
  split
  · rename_i op h
    rw [h]
    split_ifs
    · rfl
    · exact congrArg Slot.isAdjustment h
  all_goals rfl

/-! ## The course of a capture operation (R97, R104, R107) -/

/-- The record store of `b` is that of `a`, or that of `a` after the completion of a request by the transaction
manager. -/
def StoreAfter (req : CaptureRequest) (a b : State) : Prop :=
  b.store = a.store ∨
    ∃ ok r, ∃ e : Ev, r.request = req ∧ e.st.store = a.store ∧ e.st.tm = a.tm ∧
      b.store = (completeKind ok r e).1.st.store

/-- What an event makes of a capture operation: it goes on with its request, or it ends, with its reservation released
and the slot FREE. -/
inductive Course (a b : State) : Prop where
  | goesOn : b.store = a.store → b.tm = a.tm →
      (∀ op', b.cap.slot = .capture op' → ∃ op, a.cap.slot = .capture op ∧ op'.request = op.request) → Course a b
  | ends (op : Operation) : a.cap.slot = .capture op → (∀ op', b.cap.slot ≠ .capture op') → b.tm.reserved = 0 →
      StoreAfter op.request a b → Course a b

namespace Course

theorem refl (a : State) : Course a a := .goesOn rfl rfl fun op h => ⟨op, h, rfl⟩

theorem ofSlot {a b : State} (h1 : b.store = a.store) (h2 : b.tm = a.tm) (h3 : b.cap.slot = a.cap.slot) :
    Course a b := .goesOn h1 h2 fun op h => ⟨op, h3 ▸ h, rfl⟩

/-- A slot that is no capture operation has no course to follow. -/
theorem ofOther {a b : State} (h1 : b.store = a.store) (h2 : b.tm = a.tm) (h3 : ∀ op, b.cap.slot ≠ .capture op) :
    Course a b := .goesOn h1 h2 fun op h => absurd h (h3 op)

theorem trans {a b c : State} (h : Course a b) (k : Course b c) : Course a c := by
  cases h with
  | goesOn h1 h2 h3 =>
    cases k with
    | goesOn k1 k2 k3 =>
      refine .goesOn (k1.trans h1) (k2.trans h2) fun op'' h => ?_
      obtain ⟨op', h', hr'⟩ := k3 op'' h
      obtain ⟨op, h'', hr''⟩ := h3 op' h'
      exact ⟨op, h'', hr'.trans hr''⟩
    | ends op' k1 k2 k3 k4 =>
      obtain ⟨op, h'', hr''⟩ := h3 op' k1
      refine .ends op h'' k2 k3 ?_
      rcases k4 with k4 | ⟨ok, r, e, e1, e2, e3, e4⟩
      · exact Or.inl (k4.trans h1)
      · exact Or.inr ⟨ok, r, e, e1.trans hr'', e2.trans h1, e3.trans h2, e4⟩
  | ends op h1 h2 h3 h4 =>
    cases k with
    | goesOn k1 k2 k3 =>
      refine .ends op h1 (fun op' hc => ?_) (by rw [k2]; exact h3) ?_
      · obtain ⟨op0, h', _⟩ := k3 op' hc
        exact h2 op0 h'
      · rcases h4 with h4 | ⟨ok, r, e, e1, e2, e3, e4⟩
        · exact Or.inl (k1.trans h4)
        · exact Or.inr ⟨ok, r, e, e1, e2, e3, k1.trans e4⟩
    | ends op' k1 => exact absurd k1 (h2 op')

/-- A failure ends the operation with the store as it was (R104). -/
theorem failOp {op op1 : Operation} {r : FailReason} {e : Ev} (h : e.st.cap.slot = .capture op) :
    Course e.st (Machine.failOp op1 r e).st :=
  .ends op h (fun _ => by simp) rfl (Or.inl rfl)

/-- A completion ends the operation by its kind (R107). -/
theorem completeOp {ok : Bool} {op op1 : Operation} {r : CaptureResult} {e : Ev} (h : e.st.cap.slot = .capture op)
    (hr : r.request = op.request) : Course e.st (Machine.completeOp ok op1 r e).st :=
  .ends op h (fun _ => by simp) (by simp) (Or.inr ⟨ok, r, e, hr, rfl, rfl, by simp⟩)

theorem completeComposite {ok : Bool} {op op1 : Operation} {e : Ev} (h : e.st.cap.slot = .capture op)
    (hr : op1.request = op.request) : Course e.st (Machine.completeComposite ok op1 e).st := by
  unfold Machine.completeComposite
  dsimp only
  split
  · exact failOp h
  · exact failOp h
  · exact completeOp h hr

theorem takeWhole {ok : Bool} {op op1 : Operation} {e : Ev} (h : e.st.cap.slot = .capture op)
    (hr : op1.request = op.request) : Course e.st (Machine.takeWhole ok op1 e).st := by
  unfold Machine.takeWhole
  dsimp only
  split
  · exact failOp h
  · exact failOp h
  · exact completeOp h hr

/-- The slot given the same operation with other counts goes on (R97). -/
theorem setCapture {op op1 : Operation} {s : State} (h : s.cap.slot = .capture op) (hr : op1.request = op.request) :
    Course s (setSlot (.capture op1) s) :=
  .goesOn rfl rfl fun op' h' => ⟨op, h, by simp at h'; rw [← h']; exact hr⟩

theorem takePosition {ok : Bool} {op op1 : Operation} {cs : List Component} {e : Ev}
    (h : e.st.cap.slot = .capture op) (hr : op1.request = op.request) :
    Course e.st (Machine.takePosition ok op1 cs e).st := by
  unfold Machine.takePosition
  dsimp only
  refine Course.trans (setCapture (op1 := op1.credit cs) h hr) ?_
  split_ifs
  · refine Course.trans ?_ (completeComposite (op := op1.credit cs) (by simp) rfl)
    exact Course.refl _
  · refine Course.trans ?_ (failOp (op := op1.credit cs) (by simp))
    exact Course.refl _
  · exact setCapture (op := op1.credit cs) rfl rfl

theorem serveOperation (ok : Bool) (r : SampleResult) (e : Ev) : Course e.st (Machine.serveOperation ok r e).st := by
  unfold Machine.serveOperation
  split
  · rename_i op h
    dsimp only
    split
    · exact failOp h
    · split
      · rename_i h2
        refine tryCapture_keeps (P := fun e1 => Course e.st e1.st) h2 (fun _ => failOp h)
          (fun _ => takePosition h rfl) (takeWhole h rfl)
      · split
        · exact failOp (e := e) (op1 := { op with timeoutCount := op.timeoutCount + 1 }) (r := .unstableTimeout) h
        · exact setCapture h rfl
  all_goals exact Course.refl _

theorem reportComposite {ok : Bool} {rep : MapReport} {op op1 : Operation} {e : Ev} (h : e.st.cap.slot = .capture op)
    (hr : op1.request = op.request) : Course e.st (Machine.reportComposite ok rep op1 e).st := by
  unfold Machine.reportComposite
  repeat' split
  all_goals first
    | exact Course.refl _
    | exact completeComposite h hr
    | exact failOp h

theorem reportWhole {rep : MapReport} {op op1 : Operation} {e : Ev} (h : e.st.cap.slot = .capture op)
    (hr : op1.request = op.request) : Course e.st (Machine.reportWhole rep op1 e).st := by
  unfold Machine.reportWhole
  dsimp only
  split_ifs
  · exact failOp h
  · exact Course.refl _
  · exact setCapture h hr
  · exact Course.refl _

theorem reportToCapture (ok : Bool) (rep : MapReport) (e : Ev) : Course e.st (Machine.reportToCapture ok rep e).st := by
  unfold Machine.reportToCapture
  split
  · rename_i op h
    dsimp only
    have h1 : ∃ op1, (resumeSettling rep.crossing op e).2.st.cap.slot = .capture op1 ∧
        (resumeSettling rep.crossing op e).1.request = op1.request := by
      unfold resumeSettling; dsimp only
      split_ifs
      · exact ⟨_, rfl, rfl⟩
      · exact ⟨op, h, rfl⟩
    have h2 : Course e.st (resumeSettling rep.crossing op e).2.st := by
      unfold resumeSettling; dsimp only
      split_ifs
      · exact setCapture h rfl
      · exact Course.refl _
    obtain ⟨op1, ha, hb⟩ := h1
    split
    · exact h2.trans (reportComposite ha hb)
    · exact h2.trans (reportWhole ha hb)
  all_goals exact Course.refl _

theorem formOccupancy (ok : Bool) (m : AxleMap) (c : Bool) (l : Option LossCause) (e : Ev) :
    Course e.st (Machine.formOccupancy ok m c l e).st := by
  unfold Machine.formOccupancy
  dsimp only
  refine Course.trans (ofSlot ?_ ?_ ?_) (reportToCapture _ _ _)
  all_goals
    simp only [Ev.when_note_st, Ev.upd_st]
    split_ifs <;> rfl

/-- A restart leaves a capture operation as it is (R43). -/
theorem restart (s : State) : Course s (Machine.restart s) :=
  .goesOn rfl rfl fun op h => ⟨op, by
    simp only [restart_cap] at h
    revert h
    cases s.cap.slot <;> simp [Slot.clearCalWindow], rfl⟩

theorem takeResult (r : SampleResult) (s : State) : Course s (Machine.takeResult r s) := by
  unfold Machine.takeResult
  dsimp only
  split
  · exact ofSlot rfl rfl rfl
  all_goals exact (restart s).trans (ofSlot rfl rfl rfl)

theorem serveZero (r : SampleResult) (e : Ev) : Course e.st (Machine.serveZero r e).st := by
  refine (takeResult r e.st).trans ?_
  unfold Machine.serveZero
  dsimp only
  split_ifs
  · exact ofSlot (by simp) (by simp) (by simp)
  · exact Course.refl _

theorem serveMap (ok : Bool) (r : SampleResult) (e : Ev) : Course e.st (Machine.serveMap ok r e).st := by
  unfold Machine.serveMap
  dsimp only
  split_ifs
  · exact (ofSlot (by simp) (by simp) (by simp)).trans (formOccupancy _ _ _ _ _)
  · exact (ofSlot (by simp) (by simp) (by simp)).trans (formOccupancy _ _ _ _ _)

theorem serveCalibration (r : SampleResult) (v : Chan → Int) (t : Nat) (e : Ev) :
    Course e.st (Machine.serveCalibration r v t e).st := by
  unfold Machine.serveCalibration
  split
  · rename_i sess h
    split
    · exact Course.refl _
    · dsimp only
      repeat' split
      all_goals exact ofOther rfl rfl (fun op => by simp)
  all_goals exact Course.refl _

theorem serveAdjustIdle (e : Ev) : Course e.st (Machine.serveAdjustIdle e).st := by
  unfold Machine.serveAdjustIdle
  split
  · split_ifs
    · exact ofOther (by simp) (by simp) (fun op => by simp [abortAdjustment, endAdjustment, recomputeStatus_st])
    · exact ofOther rfl rfl (fun op => by simp)
  all_goals exact Course.refl _

theorem serveStep (e : Ev) : Course e.st (Machine.serveStep e).st := by
  unfold Machine.serveStep
  split
  · exact Course.refl _
  · split
    · exact Course.refl _
    · dsimp only
      split_ifs
      all_goals exact ofOther rfl rfl (fun op => by simp)

theorem serveAuditIdle (e : Ev) : Course e.st (Machine.serveAuditIdle e).st := by
  unfold Machine.serveAuditIdle
  split
  · exact Course.refl _
  · split_ifs
    all_goals exact ofOther rfl rfl (fun op => by simp [abandonSession])

theorem acquire (inp : SampleInput) (e : Ev) : Course e.st (Machine.acquire inp e).ev.st := by
  unfold Machine.acquire acquireRun
  dsimp only
  split
  · dsimp only
    split_ifs
    · refine Course.trans ?_ (restart _)
      exact ofSlot rfl rfl rfl
    · exact ofSlot rfl rfl rfl
  · exact ofSlot rfl rfl rfl
  · exact ofSlot rfl rfl rfl

theorem warmupEnd (e : Ev) : Course e.st (Machine.warmupEnd e).st := by
  unfold Machine.warmupEnd
  split_ifs
  · exact Course.trans (ofSlot (b := e.st.setAcq { e.st.acq with scale := .run, excitation := true }) rfl rfl rfl)
      (restart _)
  · exact Course.refl _

/-- The sample event follows the course of the operation (R25, R99 to R103). -/
theorem sampleEvent (inp : SampleInput) (e : Ev) : Course e.st (Machine.sampleEvent inp e).st := by
  unfold Machine.sampleEvent serveResult
  dsimp only
  exact (acquire _ _).trans ((serveZero _ _).trans ((serveMap _ _ _).trans ((serveOperation _ _ _).trans
    ((serveCalibration _ _ _ _).trans ((serveStep _).trans ((serveAdjustIdle _).trans ((serveAuditIdle _).trans
      (warmupEnd _))))))))

theorem decodeCrossing (ok : Bool) (c : Crossing) (e : Ev) : Course e.st (Machine.decodeCrossing ok c e).st := by
  unfold Machine.decodeCrossing
  dsimp only
  refine Course.trans ?_ (formOccupancy _ _ _ _ _)
  simp only [Ev.upd_st, Ev.note_st]
  refine Course.trans ?_ (restart _)
  exact ofSlot (by simp) (by simp) (by simp)

theorem decodeActivation (ok : Bool) (l : LineNo) (el : Element) (t : Nat) (e : Ev) :
    Course e.st (Machine.decodeActivation ok l el t e).st := by
  unfold Machine.decodeActivation
  dsimp only
  split
  · exact ofSlot rfl rfl rfl
  · refine Course.trans ?_ (decodeCrossing _ _ _)
    exact ofSlot (by simp) (by simp) (by simp)

/-- An activation follows the course of the operation (R58, R59). -/
theorem activation (ok : Bool) (l : LineNo) (el : Element) (t : Nat) (e : Ev) :
    Course e.st (Machine.activation ok l el t e).st := by
  unfold Machine.activation
  dsimp only
  split_ifs
  · exact Course.refl _
  · unfold Ev.when
    split_ifs
    · refine Course.trans (ofSlot ?_ ?_ ?_) (decodeActivation _ _ _ _ _)
      all_goals simp
    · exact ofSlot (by simp) (by simp) (by simp)
    · refine Course.trans (ofSlot ?_ ?_ ?_) (decodeActivation _ _ _ _ _)
      all_goals simp
    · exact ofSlot (by simp) (by simp) (by simp)

theorem singleElementFault (l : LineNo) (e : Ev) : Course e.st (Machine.singleElementFault l e).st := by
  unfold Machine.singleElementFault
  dsimp only
  split
  · exact Course.refl _
  · refine Course.trans (ofSlot ?_ ?_ ?_) (formOccupancy _ _ _ _ _)
    all_goals simp

theorem loopChange (ok : Bool) (lp : Loop) (b : Bool) (e : Ev) : Course e.st (Machine.loopChange ok lp b e).st := by
  unfold Machine.loopChange
  dsimp only
  split_ifs
  · exact Course.refl _
  · refine Course.trans ?_ (formOccupancy _ _ _ _ _)
    simp only [Ev.upd_st]
    refine Course.trans ?_ (restart _)
    unfold Ev.when
    split_ifs <;> exact ofSlot (by simp) (by simp) (by simp)

end Course

end Sys2Proof.Machine
end

