-- ==== Sys2Proof/Laws/AxleMap.lean ====
section
/-! SUPPORT. The axle map law under every change of the map: crossings, losses, clearings (R64 to R70). -/

namespace Sys2Proof.Machine

/-- A map with nothing on it is lawful. -/
theorem lawful_empty {n : Nat} {m : AxleMap} (h0 : m.entered = 0) (h1 : m.exited = []) (h2 : m.exitedCount = 0)
    (h3 : ∀ d, m.decks.get d = []) : m.lawful n := by
  refine ⟨?_, by omega, by rw [h1, h2]; rfl, fun d _ => h3 d, fun _ => h0⟩
  simp [AxleMap.numbers, h0, h1, h3]

/-- A lost map is lawful over any number of decks (R68). -/
theorem lawful_lose (n : Nat) (c : LossCause) (m : AxleMap) : (m.lose c).lawful n :=
  lawful_empty rfl rfl rfl fun d => by simp [AxleMap.lose]

/-- The map is empty when every list is (R64). -/
theorem AxleMap.isEmpty_iff (m : AxleMap) : m.isEmpty = true ↔ ∀ d, m.decks.get d = [] := by
  simp [AxleMap.isEmpty, allDecks, Fin.forall_fin_succ]

/-- An empty map whose vehicle record is cleared is lawful (R70). -/
theorem lawful_clear {n : Nat} {m : AxleMap} (h : m.isEmpty = true) : m.clearVehicle.lawful n :=
  lawful_empty rfl rfl rfl (m.isEmpty_iff.1 h)

/-- Clearing the vehicle record once the vehicle is gone keeps the law (R70). -/
theorem lawful_clearIfGone {n : Nat} {m : AxleMap} (h : m.lawful n) : m.clearIfGone.lawful n := by
  unfold AxleMap.clearIfGone
  split_ifs with h1
  · simp at h1; exact lawful_clear h1.1.2
  · exact h

/-- An axle added at line 0 keeps the law (R65). -/
theorem lawful_addAxle {n sep a : Nat} {c : Crossing} {m m' : AxleMap} (hn : 1 ≤ n) (h : m.lawful n)
    (hc : m.certain = true) (h24 : m.entered < 24) (he : addAxle sep c m = .moved m' a) : m'.lawful n := by
  unfold addAxle at he
  injection he with he _
  obtain ⟨h1, h2, h3, h4, h5⟩ := h
  subst he
  refine ⟨?_, by simp; omega, h3, ?_, by simp [hc]⟩
  · simp [AxleMap.numbers, Bank.get_set] at h1 ⊢
    rw [List.range'_concat, ← h1]; simp [newAxle, Nat.add_comm]
  · intro d hd
    have : (0 : Deck) ≠ d := by intro h; subst h; simp at hd; omega
    simp [Bank.get_set, this]; exact h4 d hd

/-- A list is what is left of it with its rear member. -/
theorem takeRear_eq {α : Type} {l r : List α} {a : α} (h : takeRear l = some (a, r)) : l = r ++ [a] := by
  unfold takeRear at h
  cases hg : l.getLast? with
  | none => simp [hg] at h
  | some y =>
    simp [hg] at h
    obtain ⟨ha, hr⟩ := h
    subst ha hr
    exact (List.dropLast_append_getLast? _ hg).symm

/-- A crossing of a decoded line that moves an axle keeps the law (R65, R66). -/
theorem lawful_crossing {n sep a : Nat} {c : Crossing} {m m' : AxleMap} (hn : c.line.val ≤ n) (h4n : n ≤ 4)
    (hn1 : 1 ≤ n) (h : m.lawful n) (hc : m.certain = true) (he : crossingEffect n sep c m = .moved m' a) :
    m'.lawful n := by
  have hcl := c.line.isLt
  unfold crossingEffect at he
  split at he
  · split_ifs at he with l0 ln
    · unfold enterAxle at he
      split_ifs at he with g1 g2 g3
      · exact lawful_addAxle hn1 (lawful_clear (by simp_all)) hc (by simp [AxleMap.clearVehicle]) he
      · exact lawful_addAxle hn1 h hc (by omega) he
    · unfold forwardJoint at he
      split at he
      · cases he
      · rename_i x r hx
        injection he with he _
        subst he
        obtain ⟨h1, h2, h3, h4, h5⟩ := h
        generalize hk : c.line.val = k at *
        have hkk : k = 1 ∨ k = 2 ∨ k = 3 := by omega
        refine ⟨?_, h2, h3, ?_, h5⟩
        · rcases hkk with rfl | rfl | rfl <;> simp [AxleMap.numbers, Bank.get_set, deckBefore, deckAfter, Fin.ofNat] at h1 hx ⊢ <;> simp [hx] at h1 <;> simpa using h1
        · intro d hd
          have hh := h4 d hd
          rcases hkk with rfl | rfl | rfl <;> fin_cases d <;> simp [Bank.get_set, deckBefore, deckAfter, Fin.ofNat] at * <;> omega
    · unfold forwardExit at he
      split at he
      · cases he
      · rename_i x r hx
        injection he with he _
        subst he
        obtain ⟨h1, h2, h3, h4, h5⟩ := h
        have hkk : n = 1 ∨ n = 2 ∨ n = 3 ∨ n = 4 := by omega
        refine ⟨?_, h2, by simp; omega, ?_, h5⟩
        · have e0 := h4 0; have e1 := h4 1; have e2 := h4 2; have e3 := h4 3
          rcases hkk with rfl | rfl | rfl | rfl <;> simp [AxleMap.numbers, Bank.get_set, deckBefore, Fin.ofNat] at * <;> simp_all
        · intro d hd
          have hh := h4 d hd
          rcases hkk with rfl | rfl | rfl | rfl <;> fin_cases d <;> simp [Bank.get_set, deckBefore, Fin.ofNat] at * <;> omega
  · split_ifs at he with l0 ln
    · unfold backwardEntry at he
      split at he
      · cases he
      · rename_i x r hx
        injection he with he _
        subst he
        have hl := takeRear_eq hx
        obtain ⟨h1, h2, h3, h4, h5⟩ := h
        have hlen : 1 ≤ m.entered := by
          have := congrArg List.length h1
          simp [AxleMap.numbers, hl] at this; omega
        obtain ⟨k, hk⟩ : ∃ k, m.entered = k + 1 := ⟨m.entered - 1, by omega⟩
        refine ⟨?_, by simp; omega, h3, ?_, by simp [hc]⟩
        · simp [AxleMap.numbers, Bank.get_set, hl] at h1 ⊢
          rw [hk, List.range'_concat] at h1
          rw [hk]
          simp at h1 ⊢
          have : ∀ (A B : List Nat) (a b : Nat), A ++ [a] = B ++ [b] → A = B := by
            intro A B a b h; exact (List.append_inj' h rfl).1
          refine this _ _ x.number (1+k) ?_
          simpa using h1
        · intro d hd
          have : (0 : Deck) ≠ d := by intro h; subst h; simp at hd; omega
          simp [Bank.get_set, this]; exact h4 d hd
    · unfold backwardJoint at he
      split at he
      · cases he
      · rename_i x r hx
        injection he with he _
        subst he
        have hl := takeRear_eq hx
        obtain ⟨h1, h2, h3, h4, h5⟩ := h
        generalize hk : c.line.val = k at *
        have hkk : k = 1 ∨ k = 2 ∨ k = 3 := by omega
        refine ⟨?_, h2, h3, ?_, h5⟩
        · rcases hkk with rfl | rfl | rfl <;> simp [AxleMap.numbers, Bank.get_set, deckBefore, deckAfter, Fin.ofNat] at h1 hl ⊢ <;> simp [hl] at h1 <;> simpa using h1
        · intro d hd
          have hh := h4 d hd
          rcases hkk with rfl | rfl | rfl <;> fin_cases d <;> simp [Bank.get_set, deckBefore, deckAfter, Fin.ofNat] at * <;> omega
    · unfold backwardExit at he
      split at he
      · cases he
      · rename_i x r hx
        injection he with he _
        subst he
        have hl := takeRear_eq hx
        obtain ⟨h1, h2, h3, h4, h5⟩ := h
        have hkk : n = 1 ∨ n = 2 ∨ n = 3 ∨ n = 4 := by omega
        refine ⟨?_, h2, by simp [hl] at h3 ⊢; omega, ?_, h5⟩
        · have e0 := h4 0; have e1 := h4 1; have e2 := h4 2; have e3 := h4 3
          rcases hkk with rfl | rfl | rfl | rfl <;> simp [AxleMap.numbers, Bank.get_set, deckBefore, Fin.ofNat] at * <;> simp_all
        · intro d hd
          have hh := h4 d hd
          rcases hkk with rfl | rfl | rfl | rfl <;> fin_cases d <;> simp [Bank.get_set, deckBefore, Fin.ofNat] at * <;> omega

end Sys2Proof.Machine
end

