-- ==== Sys2Proof/Laws/Dates.lean ====
section
/-! SUPPORT. The order of dates and the midnight carry (R160, R161). -/

namespace Sys2Proof.Machine

/-- The order of dates, field by field from the year down (R161). -/
theorem Date.before_iff (a b : Date) :
    a.before b = true ↔
      (a.year < b.year ∨ (a.year = b.year ∧ (a.month < b.month ∨ (a.month = b.month ∧ a.day < b.day)))) := by
  simp [Date.before]

/-- No date is before itself. -/
theorem Date.before_self (a : Date) : a.before a = false := by
  rw [Bool.eq_false_iff]; intro h; rw [Date.before_iff] at h; omega

/-- The midnight carry leaves a date not before what it was not before (R161). -/
theorem Date.next_notBefore (a b : Date) (h : a.before b = false) : a.next.before b = false := by
  rw [Bool.eq_false_iff] at *
  intro h2; apply h
  rw [Date.before_iff] at *
  unfold Date.next at h2
  split_ifs at h2 <;> simp only at h2 <;> omega

/-- A second carry leaves a date not before what it was not before (R161). -/
theorem DateTime.carry_notBefore (t v : DateTime) (b : Date) (h : t.date.before b = false)
    (hv : t.carry.value = some v) : v.date.before b = false := by
  unfold DateTime.carry at hv
  split_ifs at hv <;> simp only [Option.some.injEq] at hv
  · subst hv; exact h
  · subst hv; exact h
  · subst hv; exact h
  · split_ifs at hv
    simp only [Option.some.injEq] at hv
    subst hv; exact Date.next_notBefore _ _ h

end Sys2Proof.Machine
end

