-- ==== Sys2Proof/Laws/Requests.lean ====
section
/-! SUPPORT. What an executed request and an event answer, in the words in which the statements speak of them. -/

namespace Sys2Proof.Machine

/-- The reply, the notices and the state of an executed request say what it answers (R168). -/
theorem request_executed {k : Byte} {f : Ev → Ev × Reply} {s : State} (h : s.ready)
    (hx : (f (Ev.start (endFrame s))).1.st.link.rxBuffer = []) :
    request k f s = .next (executed k (f (Ev.start (endFrame s))).2 (f (Ev.start (endFrame s))).1.notes s
      (f (Ev.start (endFrame s))).1.st) := by
  rw [request_empty k f s h.1 h.2]
  generalize hr : f (Ev.start (endFrame s)) = r at hx ⊢
  obtain ⟨e, reply⟩ := r
  have hl : (formEntryLamp s e.st).link = e.st.link := by unfold formEntryLamp; split_ifs <;> rfl
  have hc : (formEntryLamp (endFrame s) e.st) = formEntryLamp s e.st := rfl
  have hn : ∀ t, lampNotes (endFrame s) t = lampNotes s t := fun _ => rfl
  have hb : ({ e.st.link with rxBuffer := [] } : Link) = e.st.link := by rw [← hx]
  simp only [executed, answered, settle, hc, hn, serveLink, answer]
  rw [hl, hb]
  rfl

/-- Nothing of the lamps changes when a state has the capture controller and the lamp inputs of another. -/
theorem executed_plain {k : Byte} {r : Reply} {ns : List Notice} {s0 s : State} (h : s.lampInputs = s0.lampInputs)
    (hc : s.cap.entryLamp = s0.cap.entryLamp) (hx : s.cap.exitLamp = s0.cap.exitLamp) :
    executed k r ns s0 s = answered k r ns s := by
  simp [executed, formEntryLamp, lampNotes, h, hc, hx]

/-- An event under supply, in the words of the statements. -/
theorem event_happened {f : Ev → Ev} {s : State} (h : s.mainSupply = true) :
    event f s = .next (happened (f (Ev.start s)).notes s (f (Ev.start s)).st) := by
  rw [event_on _ _ h]
  have hl : (formEntryLamp s (f (Ev.start s)).st).link = (f (Ev.start s)).st.link := by
    unfold formEntryLamp; split_ifs <;> rfl
  simp only [happened, notified, settle, serveLink, hl]
  rfl

/-- An event under supply whose own effect leaves the link port raises its notices. -/
theorem event_raised {f : Ev → Ev} {s : State} (h : s.mainSupply = true)
    (hl : (f (Ev.start s)).st.link = s.link) :
    ∃ t, event f s = .next t ∧ s.raised (f (Ev.start s)).notes t ∧
      t = happened (f (Ev.start s)).notes s (f (Ev.start s)).st :=
  ⟨_, event_happened h, ⟨_, hl, rfl⟩, rfl⟩

/-- The end of an event changes only the link port and the entry lamp (R108, R170, R171). -/
@[simp] theorem happened_keeps (ns : List Notice) (s0 s : State) :
    (happened ns s0 s).pending = s.pending ∧ (happened ns s0 s).mainSupply = s.mainSupply ∧
      (happened ns s0 s).acq = s.acq ∧ (happened ns s0 s).zm = s.zm ∧ (happened ns s0 s).axle = s.axle ∧
      (happened ns s0 s).site = s.site ∧ (happened ns s0 s).store = s.store ∧ (happened ns s0 s).tm = s.tm ∧
      (happened ns s0 s).metro = s.metro ∧ (happened ns s0 s).cal = s.cal ∧
      (happened ns s0 s).cap.slot = s.cap.slot ∧ (happened ns s0 s).cap.exitLamp = s.cap.exitLamp ∧
      (happened ns s0 s).cap.reworkHold = s.cap.reworkHold := by
  simp [happened, notified]

/-- Nothing of the lamps changes when a state has the capture controller and the lamp inputs of another. -/
theorem happened_plain {ns : List Notice} {s0 s : State} (h : s.lampInputs = s0.lampInputs)
    (hc : s.cap.entryLamp = s0.cap.entryLamp) (hx : s.cap.exitLamp = s0.cap.exitLamp) :
    happened ns s0 s = notified ns s := by
  simp [happened, formEntryLamp, lampNotes, h, hc, hx]

end Sys2Proof.Machine
end

