-- ==== Sys2Proof/Laws/Samples.lean ====
section
/-! SUPPORT. What a sample event makes of the acquisition unit (R25, R26), said once: the sample number, the health
assignment in force, each channel's record, the marks that the rows of the table wait for; and what it leaves of a slot
without an operation. -/

namespace Sys2Proof.Machine

/-- The end of a warm-up leaves the channels, the sample number and the health assignment in force. -/
theorem warmupEnd_acq (e : Ev) :
    (warmupEnd e).st.acq.channels = e.st.acq.channels ∧ (warmupEnd e).st.acq.sampleNumber = e.st.acq.sampleNumber ∧
      (warmupEnd e).st.acq.assign = e.st.acq.assign := by
  unfold warmupEnd; split_ifs <;> simp

/-- Every sample event raises the sample number by one (R25). -/
theorem sampleEvent_sampleNumber (inp : SampleInput) (s : State) :
    (sampleEvent inp (Ev.start s)).st.acq.sampleNumber = s.acq.sampleNumber + 1 := by
  unfold sampleEvent; simp only [warmupEnd_acq, serveResult_keeps]
  unfold acquire; dsimp only; split
  · unfold acquireRun; dsimp only; split <;> simp
  · simp
  · simp

/-- Every sample event puts the health assignment in force that was due (R26). -/
theorem sampleEvent_healthAssign (inp : SampleInput) (s : State) :
    (sampleEvent inp (Ev.start s)).st.healthAssign = s.assignmentDue := by
  have h := acquire_healthAssign inp (Ev.start s)
  unfold State.healthAssign at h ⊢
  unfold sampleEvent; simp only [warmupEnd_acq, serveResult_keeps]; simpa using h

/-- In RUN every channel is sampled, and evaluated when it has a deck in the assignment that was due (R25, R26). -/
theorem sampleEvent_run (inp : SampleInput) (s : State) (h : s.acq.scale = .run) (i : Chan) :
    (sampleEvent inp (Ev.start s)).st.acq.channels.get i =
      channelAfter s.assignmentDue s.acq.spikeLimit s.acq.channels inp i := by
  unfold sampleEvent; simp only [warmupEnd_acq, serveResult_keeps]
  unfold acquire acquireRun; simp [h]; split_ifs <;> simp

/-- In WARMUP every channel takes its raw sample and none is evaluated (R25). -/
theorem sampleEvent_warmup (inp : SampleInput) (s : State) (h : s.acq.scale = .warmup) (i : Chan) :
    (sampleEvent inp (Ev.start s)).st.acq.channels.get i =
      (s.acq.channels.get i).takeRaw (inp.raw.get i).toInt := by
  unfold sampleEvent; simp only [warmupEnd_acq, serveResult_keeps]
  unfold acquire; simp [h]

/-- In STANDBY no channel takes a raw sample and none is evaluated (R23). -/
theorem sampleEvent_standby (inp : SampleInput) (s : State) (h : s.acq.scale = .standby) (i : Chan) :
    (sampleEvent inp (Ev.start s)).st.acq.channels.get i = { s.acq.channels.get i with evaluated := false } := by
  unfold sampleEvent; simp only [warmupEnd_acq, serveResult_keeps]
  unfold acquire; simp [h]

/-- A row that names a count is the sample event that finds it (log 4). -/
theorem sampleWhen_found {m : Mark} {inp : SampleInput} {s : State} (h : finds m inp s = true) :
    sampleWhen m inp s = event (sampleEvent inp) s := by
  unfold sampleWhen; rw [if_pos h]

/-! ## The slot at a sample event -/

/-- Without an operation in the slot the capture controller takes no report. -/
theorem reportToCapture_of_no_capture {e : Ev} (h : ∀ op, e.st.cap.slot ≠ .capture op) (ok : Bool) (rep : MapReport) :
    reportToCapture ok rep e = e := by
  unfold reportToCapture; split
  · rename_i op hs; exact absurd hs (h op)
  · rfl
  · rfl
  · rfl

/-- Without an operation in the slot the capture controller does nothing at a sample event. -/
theorem serveOperation_of_no_capture {e : Ev} (h : ∀ op, e.st.cap.slot ≠ .capture op) (ok : Bool) (r : SampleResult) :
    serveOperation ok r e = e := by
  unfold serveOperation; split
  · rename_i op hs; exact absurd hs (h op)
  · rfl
  · rfl
  · rfl

/-- A slot without an operation is kept when occupancy is formed. -/
theorem formOccupancy_slot {e : Ev} (h : ∀ op, e.st.cap.slot ≠ .capture op) (ok : Bool) (m : AxleMap) (c : Bool)
    (l : Option LossCause) : (formOccupancy ok m c l e).st.cap.slot = e.st.cap.slot := by
  unfold formOccupancy; dsimp only
  rw [reportToCapture_of_no_capture]
  · simp only [Ev.when_note_st, Ev.upd_st]; split_ifs <;> rfl
  · simp only [Ev.when_note_st, Ev.upd_st]; split_ifs <;> exact h

/-- The loss by a hidden load keeps the slot. -/
theorem serveHiddenLoad_slot (r : SampleResult) (e : Ev) :
    (serveHiddenLoad r e).1.st.cap = e.st.cap := by
  unfold serveHiddenLoad; dsimp only; repeat' split
  all_goals simp

/-- The recovery of the map keeps the slot. -/
theorem serveRecovery_slot (r : SampleResult) (e : Ev) :
    (serveRecovery r e).st.cap = e.st.cap := by
  unfold serveRecovery; dsimp only; repeat' split
  all_goals simp

/-- A slot without an operation is kept by the axle map unit at a sample event. -/
theorem serveMap_slot {e : Ev} (h : ∀ op, e.st.cap.slot ≠ .capture op) (ok : Bool) (r : SampleResult) :
    (serveMap ok r e).st.cap.slot = e.st.cap.slot := by
  unfold serveMap; dsimp only; split
  · rw [formOccupancy_slot, serveHiddenLoad_slot]; rw [serveHiddenLoad_slot]; exact h
  · rw [formOccupancy_slot, serveRecovery_slot]; rw [serveRecovery_slot]; exact h

/-- The zero and motion unit changes of the slot a calibration window at most. -/
theorem serveZero_slot (r : SampleResult) (e : Ev) : (serveZero r e).st.cap.slot = e.st.cap.slot ∨
    (serveZero r e).st.cap.slot = e.st.cap.slot.clearCalWindow := by
  unfold serveZero takeResult; dsimp only; repeat' split
  all_goals simp

/-- The acquisition unit changes of the slot a calibration window at most. -/
theorem acquire_slot (inp : SampleInput) (e : Ev) : (acquire inp e).ev.st.cap.slot = e.st.cap.slot ∨
    (acquire inp e).ev.st.cap.slot = e.st.cap.slot.clearCalWindow := by
  unfold acquire acquireRun; dsimp only; split <;> dsimp only <;> (try split_ifs) <;> simp

/-- Outside WARMUP no warm-up ends. -/
theorem warmupEnd_of_not_warmup {e : Ev} (h : e.st.acq.scale ≠ .warmup) : warmupEnd e = e := by
  unfold warmupEnd; rw [if_neg (fun x => h x.1)]

/-- A result in VALUE is formed in RUN only. -/
theorem formedResult_isValue {s : State} {v : Bank Int 16} (h : (formedResult s v).isValue = true) : s.acq.scale = .run := by
  unfold formedResult sampleResult at h
  by_contra hn
  rw [if_pos hn] at h
  cases h

end Sys2Proof.Machine
end

