-- ==== Sys2Proof/Laws/Notes.lean ====
section
/-! SUPPORT. What the stages of a sample event add to its notices, said once: each adds at the rear (log 12), the axle map
unit nothing but notices of the codes from 7 on, the stages after it from 9 on (R171); and none takes back a mark, so that
the row of a count finds what a stage marked (log 4). -/

namespace Sys2Proof.Machine

/-- An event that adds at the rear notices with the codes from `k` on, and takes back no mark. -/
structure Ev.AddsFrom (k : Nat) (e e' : Ev) : Prop where
  notes : ∃ ns, e'.notes = e.notes ++ ns ∧ ∀ n ∈ ns, k ≤ n.code
  marks : e.marks ⊆ e'.marks

section
variable {k : Nat} {e e1 e2 : Ev}

theorem Ev.AddsFrom.refl (k : Nat) (e : Ev) : e.AddsFrom k e := ⟨⟨[], by simp, by simp⟩, List.Subset.refl _⟩

theorem Ev.AddsFrom.mono {j : Nat} (h : e.AddsFrom k e1) (hj : j ≤ k) : e.AddsFrom j e1 := by
  obtain ⟨⟨ns, hn, hc⟩, hm⟩ := h
  exact ⟨⟨ns, hn, fun n hm => hj.trans (hc n hm)⟩, hm⟩

theorem Ev.AddsFrom.trans (h1 : e.AddsFrom k e1) (h2 : e1.AddsFrom k e2) : e.AddsFrom k e2 := by
  obtain ⟨⟨ns, hn, hc⟩, hk⟩ := h1
  obtain ⟨⟨ms, hm, hd⟩, hl⟩ := h2
  refine ⟨⟨ns ++ ms, by rw [hm, hn, List.append_assoc], ?_⟩, List.Subset.trans hk hl⟩
  intro n h
  rcases List.mem_append.mp h with h | h
  · exact hc n h
  · exact hd n h

theorem Ev.AddsFrom.upd (h : e.AddsFrom k e1) (f : State → State) : e.AddsFrom k (e1.upd f) := ⟨h.notes, h.marks⟩

theorem Ev.AddsFrom.mark (h : e.AddsFrom k e1) (m : Mark) : e.AddsFrom k (e1.mark m) :=
  ⟨h.notes, fun _ hx => List.mem_cons_of_mem m (h.marks hx)⟩

theorem Ev.AddsFrom.noteAll (h : e.AddsFrom k e1) {ns : List Notice} (hn : ∀ n ∈ ns, k ≤ n.code) :
    e.AddsFrom k (e1.noteAll ns) := h.trans ⟨⟨ns, rfl, hn⟩, List.Subset.refl _⟩

theorem Ev.AddsFrom.note (h : e.AddsFrom k e1) {n : Notice} (hn : k ≤ n.code) : e.AddsFrom k (e1.note n) :=
  h.trans ⟨⟨[n], rfl, by simpa using hn⟩, List.Subset.refl _⟩

theorem Ev.AddsFrom.when (h : e.AddsFrom k e1) {f : Ev → Ev} (hf : e1.AddsFrom k (f e1)) (b : Bool) :
    e.AddsFrom k (e1.when b f) := by
  cases b
  · exact h
  · exact h.trans hf

end

/-! ## The transaction manager -/

theorem latchStoreFault_adds (w : StoreWrite) (e : Ev) : e.AddsFrom 9 (latchStoreFault w e) := by
  unfold latchStoreFault; split_ifs
  · exact .refl 9 e
  · exact ((Ev.AddsFrom.refl 9 e).upd _).note (Nat.le_of_ble_eq_true rfl)

theorem storeWrite_adds (ok : Bool) (w : StoreWrite) (f : State → State) (e : Ev) :
    e.AddsFrom 9 (storeWrite ok w f e) := by
  cases ok
  · exact latchStoreFault_adds w e
  · exact (Ev.AddsFrom.refl 9 e).upd f

theorem issueWrite_adds (ok : Bool) (t : Ticket) (f : Store → Store) (e : Ev) : e.AddsFrom 9 (issueWrite ok t f e) := by
  unfold issueWrite
  refine (storeWrite_adds _ _ _ _).when (Ev.AddsFrom.noteAll (.refl 9 _) ?_) _
  intro n hn
  simp only [ticketNotes, List.mem_append, List.mem_singleton] at hn
  rcases hn with (rfl | hn) | hn
  · exact (by decide : 9 ≤ 18)
  · split_ifs at hn <;> simp at hn; subst hn; exact Nat.le_of_ble_eq_true rfl
  · split_ifs at hn <;> simp at hn; subst hn; exact Nat.le_of_ble_eq_true rfl

theorem completeKind_adds (ok : Bool) (r : CaptureResult) (e : Ev) : e.AddsFrom 9 (completeKind ok r e).1 := by
  unfold completeKind completeFirst completeSecond completeSinglePass completeTare openWrite
  dsimp only
  repeat' split
  all_goals first
    | exact .refl 9 e
    | exact storeWrite_adds _ _ _ _
    | (dsimp only; exact issueWrite_adds _ _ _ _)

/-! ## The capture controller -/

theorem failOp_adds (op : Operation) (r : FailReason) (e : Ev) : e.AddsFrom 9 (failOp op r e) :=
  ((Ev.AddsFrom.refl 9 e).upd _).note (Nat.le_of_ble_eq_true rfl)

theorem completeOp_adds (ok : Bool) (op : Operation) (r : CaptureResult) (e : Ev) :
    e.AddsFrom 9 (completeOp ok op r e) := by
  unfold completeOp; dsimp only; split
  · exact (completeKind_adds ok r e).trans (failOp_adds _ _ _)
  · exact (((completeKind_adds ok r e).upd _).note (Nat.le_of_ble_eq_true rfl)).upd _

theorem completeComposite_adds (ok : Bool) (op : Operation) (e : Ev) : e.AddsFrom 9 (completeComposite ok op e) := by
  unfold completeComposite; dsimp only; split
  · exact failOp_adds _ _ _
  · exact failOp_adds _ _ _
  · exact completeOp_adds _ _ _ _

theorem takeWhole_adds (ok : Bool) (op : Operation) (e : Ev) : e.AddsFrom 9 (takeWhole ok op e) := by
  unfold takeWhole; dsimp only; split
  · exact failOp_adds _ _ _
  · exact failOp_adds _ _ _
  · exact completeOp_adds _ _ _ _

theorem takePosition_adds (ok : Bool) (op : Operation) (cs : List Component) (e : Ev) :
    e.AddsFrom 9 (takePosition ok op cs e) := by
  unfold takePosition; dsimp only
  split_ifs
  · exact (((Ev.AddsFrom.refl 9 e).upd _).note (Nat.le_of_ble_eq_true rfl)).trans (completeComposite_adds _ _ _)
  · exact (((Ev.AddsFrom.refl 9 e).upd _).note (Nat.le_of_ble_eq_true rfl)).trans (failOp_adds _ _ _)
  · exact ((((Ev.AddsFrom.refl 9 e).upd _).note (Nat.le_of_ble_eq_true rfl)).upd _).note (Nat.le_of_ble_eq_true rfl)

theorem tryCapture_adds (ok : Bool) (op : Operation) (e e1 : Ev) (h : tryCapture ok op e = some e1) :
    e.AddsFrom 9 e1 := by
  have seek : ∀ e1, seekPosition ok op e = some e1 → e.AddsFrom 9 e1 := by
    intro e1 h; unfold seekPosition at h; dsimp only at h
    repeat' split at h
    all_goals first
      | (cases h; exact failOp_adds _ _ _)
      | (cases h; exact takePosition_adds _ _ _ _)
      | cases h
  unfold tryCapture at h; dsimp only at h
  repeat' split at h
  all_goals first
    | exact seek _ h
    | (cases h; exact takeWhole_adds _ _ _)
    | cases h

/-- The capture controller at a sample event. -/
theorem serveOperation_adds (ok : Bool) (r : SampleResult) (e : Ev) : e.AddsFrom 9 (serveOperation ok r e) := by
  unfold serveOperation; dsimp only; split
  · repeat' split
    · exact failOp_adds _ _ _
    · rename_i h; exact tryCapture_adds _ _ _ _ h
    · exact (failOp_adds _ _ _).mark _
    · exact (Ev.AddsFrom.refl 9 e).upd _
  all_goals exact .refl 9 e

/-- The capture controller at a report of the axle map unit. -/
theorem reportToCapture_adds (ok : Bool) (rep : MapReport) (e : Ev) : e.AddsFrom 9 (reportToCapture ok rep e) := by
  unfold reportToCapture; split
  · rename_i op _
    have h1 : e.AddsFrom 9 (resumeSettling rep.crossing op e).2 := by
      unfold resumeSettling; split_ifs
      · exact ((Ev.AddsFrom.refl 9 e).upd _).note (Nat.le_of_ble_eq_true rfl)
      · exact .refl 9 e
    dsimp only; split
    · refine h1.trans ?_
      unfold reportComposite; repeat' split
      all_goals first
        | exact .refl 9 _
        | exact failOp_adds _ _ _
        | exact completeComposite_adds _ _ _
    · refine h1.trans ?_
      unfold reportWhole; dsimp only; split_ifs
      · exact failOp_adds _ _ _
      · exact .refl 9 _
      · exact ((Ev.AddsFrom.refl 9 _).upd _).note (Nat.le_of_ble_eq_true rfl)
      · exact .refl 9 _
  all_goals exact .refl 9 e

/-! ## The axle map unit, the sessions and the end of the warm-up -/

/-- Of the map before the event, occupancy formed anew looks at the occupancy and the certainty only. -/
theorem formOccupancy_congr {m m' : AxleMap} (ho : m.occupancy = m'.occupancy) (hc : m.certain = m'.certain) (ok c : Bool)
    (l : Option LossCause) (e : Ev) : formOccupancy ok m c l e = formOccupancy ok m' c l e := by
  unfold formOccupancy; rw [ho, hc]

/-- Occupancy formed anew in an event that began in `s`: OCCUPANCY where occupancy or certainty changed, then what its
report makes (R73). -/
theorem formOccupancy_notes (ok : Bool) (s : State) (c : Bool) (l : Option LossCause) (e : Ev) :
    ∃ ns, (∀ n ∈ ns, 9 ≤ n.code) ∧ (formOccupancy ok s.axle c l e).notes =
      e.notes ++ occupancyNotes s (formOccupancy ok s.axle c l e).st ++ ns := by
  have hocc : (formOccupancy ok s.axle c l e).st.axle.occupancy =
      occupancyOf e.st.axle e.st.zm.latest e.st.store.config.eHg := by
    unfold formOccupancy; dsimp only; simp; split_ifs <;> simp
  have hcert : (formOccupancy ok s.axle c l e).st.axle.certain = e.st.axle.certain := by
    unfold formOccupancy; dsimp only; simp; split_ifs <;> simp
  unfold occupancyNotes
  rw [hocc, hcert]
  unfold formOccupancy; dsimp only
  obtain ⟨⟨ns, hn, hc⟩, -⟩ := reportToCapture_adds ok
    { crossing := c, loss := l
      changed := occupancyOf e.st.axle e.st.zm.latest e.st.store.config.eHg != s.axle.occupancy ||
        e.st.axle.certain != s.axle.certain
      emptied := occupancyOf e.st.axle e.st.zm.latest e.st.store.config.eHg == .empty &&
        s.axle.occupancy != .empty } _
  refine ⟨ns, hc, hn.trans ?_⟩
  congr 1
  by_cases h1 : occupancyOf e.st.axle e.st.zm.latest e.st.store.config.eHg = s.axle.occupancy <;>
    by_cases h2 : e.st.axle.certain = s.axle.certain <;> simp [h1, h2, Ev.when]

/-- Occupancy formed anew, with the report that it makes. -/
theorem formOccupancy_adds (ok : Bool) (m : AxleMap) (c : Bool) (l : Option LossCause) (e : Ev) :
    e.AddsFrom 8 (formOccupancy ok m c l e) := by
  unfold formOccupancy; dsimp only
  exact (((Ev.AddsFrom.refl 8 e).upd _).when ((Ev.AddsFrom.refl 8 _).note (Nat.le_of_ble_eq_true rfl)) _).trans
    ((reportToCapture_adds _ _ _).mono (by decide))

/-- A loss of certainty: AXLE_INCONSISTENT while the map was CERTAIN (R68). -/
theorem loseCertainty_notes (c : LossCause) (line : Option LineNo) (e : Ev) :
    (loseCertainty c line e).notes = e.notes ++ if e.st.axle.certain = true then [.axleInconsistent c line] else [] := by
  unfold loseCertainty; split_ifs <;> simp

theorem loseCertainty_adds (c : LossCause) (line : Option LineNo) (e : Ev) : e.AddsFrom 7 (loseCertainty c line e) := by
  unfold loseCertainty; split_ifs
  · exact ((Ev.AddsFrom.refl 7 e).upd _).note (Nat.le_of_ble_eq_true rfl)
  · exact (Ev.AddsFrom.refl 7 e).upd _

/-- The axle map unit at a sample event. -/
theorem serveMap_adds (ok : Bool) (r : SampleResult) (e : Ev) : e.AddsFrom 7 (serveMap ok r e) := by
  unfold serveMap; dsimp only; split
  · refine Ev.AddsFrom.trans ?_ ((formOccupancy_adds _ _ _ _ _).mono (by decide))
    unfold serveHiddenLoad; dsimp only; repeat' split
    all_goals dsimp only
    all_goals first
      | exact (Ev.AddsFrom.refl 7 e).upd _
      | exact (loseCertainty_adds _ _ _).mark _
  · refine Ev.AddsFrom.trans ?_ ((formOccupancy_adds _ _ _ _ _).mono (by decide))
    unfold serveRecovery; dsimp only; repeat' split
    all_goals first
      | exact (Ev.AddsFrom.refl 7 e).upd _
      | exact ((Ev.AddsFrom.refl 7 e).upd _).mark _

/-- The calibration capture of a session. -/
theorem serveCalibration_adds (r : SampleResult) (value : Chan → Int) (t : Nat) (e : Ev) :
    e.AddsFrom 9 (serveCalibration r value t e) := by
  unfold serveCalibration; dsimp only; repeat' split
  all_goals first
    | exact .refl 9 e
    | exact (Ev.AddsFrom.refl 9 e).upd _
    | exact ((Ev.AddsFrom.refl 9 e).upd _).note (Nat.le_of_ble_eq_true rfl)
    | exact (((Ev.AddsFrom.refl 9 e).upd _).note (Nat.le_of_ble_eq_true rfl)).mark _

/-- The step in flight of an audit. -/
theorem serveStep_adds (e : Ev) : e.AddsFrom 9 (serveStep e) := by
  unfold serveStep; dsimp only; repeat' split
  all_goals first
    | exact .refl 9 e
    | exact (Ev.AddsFrom.refl 9 e).upd _
    | exact ((Ev.AddsFrom.refl 9 e).upd _).note (Nat.le_of_ble_eq_true rfl)
    | exact (((Ev.AddsFrom.refl 9 e).upd _).note (Nat.le_of_ble_eq_true rfl)).mark _

/-- The metrology status recomputed. -/
theorem recomputeStatus_adds (e : Ev) : e.AddsFrom 9 (recomputeStatus e) := by
  unfold recomputeStatus; dsimp only
  exact Ev.AddsFrom.when ((Ev.AddsFrom.refl 9 e).upd _) ((Ev.AddsFrom.refl 9 _).note (Nat.le_of_ble_eq_true rfl)) _

/-- The idle counts of the sessions. -/
theorem serveIdle_adds (e : Ev) : e.AddsFrom 9 (serveAuditIdle (serveAdjustIdle e)) := by
  have h1 : e.AddsFrom 9 (serveAdjustIdle e) := by
    unfold serveAdjustIdle abortAdjustment endAdjustment; repeat' split
    all_goals first
      | exact .refl 9 e
      | exact (Ev.AddsFrom.upd (.refl 9 e) _)
      | exact ((((Ev.AddsFrom.refl 9 e).note (Nat.le_of_ble_eq_true rfl)).upd _).trans (recomputeStatus_adds _)).mark _
  refine h1.trans ?_
  unfold serveAuditIdle abandonSession; repeat' split
  all_goals first
    | exact .refl 9 _
    | exact (Ev.AddsFrom.refl 9 _).upd _
    | exact (((Ev.AddsFrom.refl 9 _).upd _).note (Nat.le_of_ble_eq_true rfl)).mark _

/-- The end of a sample event adds SCALE_STATE at most. -/
theorem warmupEnd_notes (e : Ev) :
    (warmupEnd e).notes = e.notes ++
      if e.st.acq.scale = .warmup ∧ e.st.acq.warmLength ≤ e.st.acq.warmCount then [.scaleState .run .warmup] else [] := by
  unfold warmupEnd; split_ifs <;> simp

/-- Everything that waits on a sample result behind the axle map unit. -/
theorem serveResult_rest (ok : Bool) (r : SampleResult) (value : Bank Int 16) (e : Ev) :
    (serveMap ok r (serveZero r e)).AddsFrom 9 (serveResult ok r value e) := by
  unfold serveResult
  exact (((serveOperation_adds ok r _).trans (serveCalibration_adds _ _ _ _)).trans (serveStep_adds _)).trans
    (serveIdle_adds _)

/-- Everything that waits on a sample result behind the zero and motion unit. -/
theorem serveResult_adds (ok : Bool) (r : SampleResult) (value : Bank Int 16) (e : Ev) :
    (serveZero r e).AddsFrom 7 (serveResult ok r value e) :=
  (serveMap_adds ok r _).trans ((serveResult_rest ok r value e).mono (by decide))

/-- The end of a warm-up takes back no mark. -/
theorem warmupEnd_marks (e : Ev) : e.marks ⊆ (warmupEnd e).marks := by
  unfold warmupEnd; split_ifs
  · exact fun m h => List.mem_cons_of_mem _ h
  · exact List.Subset.refl _

/-- A mark that stands behind the zero and motion unit, the axle map unit or the capture controller is one that the row of
its count finds (log 4). -/
theorem finds_of_mark {m : Mark} {inp : SampleInput} {s : State} :
    let a := acquire inp (Ev.start s)
    let r := formedResult a.ev.st a.value
    let e := serveZero r a.ev
    let e1 := serveMap inp.storeOk r e
    (m ∈ e.marks ∨ m ∈ e1.marks ∨ m ∈ (serveOperation inp.storeOk r e1).marks ∨
      m ∈ (serveResult inp.storeOk r a.value a.ev).marks) → finds m inp s = true := by
  intro a r e e1 h
  have hall : m ∈ (serveResult inp.storeOk r a.value a.ev).marks := by
    rcases h with h | h | h | h
    · exact (serveResult_adds _ _ _ _).marks h
    · exact (serveResult_rest _ _ _ _).marks h
    · exact (((serveCalibration_adds _ _ _ _).trans (serveStep_adds _)).trans (serveIdle_adds _)).marks h
    · exact h
  exact List.contains_iff_mem.mpr (warmupEnd_marks _ hall)

end Sys2Proof.Machine
end

