-- ==== Sys2Proof/Laws/ExitLamp.lean ====
section
/-! SUPPORT. The exit lamp and the REWORK hold (R109) where occupancy is formed anew and nothing completes, and at a
sample event that takes nothing of an operation, said once. -/

namespace Sys2Proof.Machine

/-- Every axle of a complete vehicle has been credited (R102), spelled. -/
theorem allCredited_iff (m : AxleMap) (gs : List CreditedGroup) : allCredited m gs = true ↔
    m.entryComplete = true ∧ ∀ k, 1 ≤ k → k ≤ m.entered → ∃ g ∈ gs, g.firstAxle ≤ k ∧ k ≤ g.lastAxle := by
  unfold allCredited
  rw [Bool.and_eq_true, List.all_eq_true]
  refine and_congr_right fun _ => ⟨fun h k h1 h2 => ?_, fun h k hk => ?_⟩
  · simpa [Nat.sub_add_cancel h1] using h (k - 1) (List.mem_range.mpr (by omega))
  · simpa using h (k + 1) (by omega) (by simpa using hk)

/-- A failure leaves the exit lamp and the hold (R109). -/
theorem failOp_exit (op : Operation) (r : FailReason) (e : Ev) :
    (failOp op r e).st.cap.exit = e.st.cap.exit := by
  unfold failOp; simp [Capture.exit, setSlot, setReserved]

/-- A report that completes nothing leaves the exit lamp and the hold (R109). -/
theorem reportToCapture_exit {e : Ev} (h : ∀ op, e.st.cap.slot = .capture op → op.mode = .composite →
    allCredited e.st.axle op.credited = false) (ok : Bool) (rep : MapReport) :
    (reportToCapture ok rep e).st.cap.exit = e.st.cap.exit := by
  unfold reportToCapture; split
  · rename_i op hs
    have hr : (resumeSettling rep.crossing op e).2.st.cap.exit = e.st.cap.exit ∧
        (resumeSettling rep.crossing op e).2.st.axle = e.st.axle ∧
        (resumeSettling rep.crossing op e).1.mode = op.mode ∧
        (resumeSettling rep.crossing op e).1.credited = op.credited := by
      unfold resumeSettling; split_ifs <;> simp [Capture.exit, setSlot]
    generalize resumeSettling rep.crossing op e = q at hr ⊢
    obtain ⟨hx, ha, hmode, hcred⟩ := hr
    dsimp only; split
    · rename_i hm
      have hc := h op hs (hmode.symm.trans hm)
      unfold reportComposite
      rw [ha, hcred, hc]
      split
      · exact hx
      · rw [if_neg Bool.false_ne_true]
        split
        · exact (failOp_exit _ _ _).trans hx
        · exact (failOp_exit _ _ _).trans hx
        · split_ifs
          · exact (failOp_exit _ _ _).trans hx
          · exact hx
    · unfold reportWhole; dsimp only; split_ifs
      · exact (failOp_exit _ _ _).trans hx
      · exact hx
      · exact hx
      · exact hx
  all_goals rfl

/-- A report of nothing changes nothing. -/
theorem reportToCapture_nothing (ok : Bool) (emptied : Bool) (e : Ev) :
    reportToCapture ok { crossing := false, loss := none, changed := false, emptied := emptied } e = e := by
  unfold reportToCapture resumeSettling
  split
  · simp only [Bool.false_eq_true, false_and, if_false]
    split <;> simp [reportComposite, reportWhole]
  all_goals rfl

/-- What occupancy formed anew makes of the map. -/
theorem formOccupancy_axle (ok : Bool) (m : AxleMap) (c : Bool) (l : Option LossCause) (e : Ev) :
    (formOccupancy ok m c l e).st.axle =
      { e.st.axle with occupancy := occupancyOf e.st.axle e.st.zm.latest e.st.store.config.eHg } := by
  unfold formOccupancy; dsimp only; simp; split_ifs <;> simp

/-- Occupancy formed anew in an event that began in `s`, where nothing completes or nothing is reported (R109). -/
theorem formOccupancy_exit {s : State} {e : Ev} (ok c : Bool) (l : Option LossCause)
    (hx : e.st.cap.exit = s.cap.exit) (hs : ∀ op, e.st.cap.slot = .capture op → s.cap.slot = .capture op)
    (h : c = false ∧ l = none ∧ occupancyNotes s (formOccupancy ok s.axle c l e).st = [] ∨
      s.completesNone (formOccupancy ok s.axle c l e).st) :
    (formOccupancy ok s.axle c l e).st.cap.exit = exitByMap s (formOccupancy ok s.axle c l e).st := by
  have hax := formOccupancy_axle ok s.axle c l e
  set t := (formOccupancy ok s.axle c l e).st with ht
  set occ := occupancyOf e.st.axle e.st.zm.latest e.st.store.config.eHg
  have hocc : t.axle.occupancy = occ := by rw [hax]
  have hcert : t.axle.certain = e.st.axle.certain := by rw [hax]
  unfold exitByMap
  rw [hocc]
  rcases h with ⟨rfl, rfl, hn⟩ | h
  · have hsame : occ = s.axle.occupancy ∧ e.st.axle.certain = s.axle.certain := by
      unfold occupancyNotes at hn; rw [hocc, hcert] at hn; by_contra hc; rw [if_neg hc] at hn; cases hn
    rw [if_neg (fun x => x.2 (hsame.1.symm.trans x.1)), ht, ← hx]
    unfold formOccupancy; dsimp only
    rw [show (occupancyOf e.st.axle e.st.zm.latest e.st.store.config.eHg) = s.axle.occupancy from hsame.1, hsame.2]
    simp [Ev.when, reportToCapture_nothing]
  · rw [ht]
    unfold formOccupancy; dsimp only
    rw [reportToCapture_exit]
    · have hold : e.st.cap.reworkHold = s.cap.reworkHold := congrArg Prod.snd hx
      rw [Ev.when_note_st, Ev.upd_st, ← hx]
      change (if (occ == .empty && s.axle.occupancy != .empty) = true then _ else _ : State).cap.exit = _
      by_cases h1 : occ = .empty <;> by_cases h2 : s.axle.occupancy = .empty <;> simp [Capture.exit, h1, h2, hold]
    · intro op hop hm
      rw [Ev.when_note_st, Ev.upd_st] at hop ⊢
      have hop' : e.st.cap.slot = .capture op := by
        rw [← hop]; split_ifs <;> rfl
      have := h op (hs op hop') hm
      rw [hax, ← allCredited_iff, Bool.not_eq_true] at this
      rw [← this]; split_ifs <;> rfl

/-! ## At a sample event -/

/-- An emptied calibration window is no operation. -/
theorem clearCalWindow_capture {x : Slot} {op : Operation} (h : x.clearCalWindow = .capture op) : x = .capture op := by
  cases x <;> simp_all [Slot.clearCalWindow]

/-- Ahead of the axle map unit a sample event leaves the exit lamp and the hold, and puts no operation into the slot. -/
theorem serveZero_acquire_exit (inp : SampleInput) (r : SampleResult) (s : State) :
    let e := serveZero r (acquire inp (Ev.start s)).ev
    e.st.cap.exit = s.cap.exit ∧ ∀ op, e.st.cap.slot = .capture op → s.cap.slot = .capture op := by
  intro e
  have hacq : (acquire inp (Ev.start s)).ev.st.cap.exit = s.cap.exit := by
    unfold acquire acquireRun; dsimp only; split <;> dsimp only <;> (try split_ifs) <;>
      simp [Capture.exit, beginSample, restart]
  have htake : ∀ t : State, (takeResult r t).cap.exit = t.cap.exit := by
    intro t; unfold takeResult; dsimp only; split <;> rfl
  refine ⟨?_, fun op h => ?_⟩
  · rw [← hacq]
    change (serveZero r _).st.cap.exit = _
    unfold serveZero; dsimp only; split_ifs
    · simp [htake]
    · exact htake _
  · have h1 : (acquire inp (Ev.start s)).ev.st.cap.slot = .capture op := by
      rcases serveZero_slot r (acquire inp (Ev.start s)).ev with g | g <;> rw [show e.st.cap.slot = _ from g] at h
      · exact h
      · exact clearCalWindow_capture h
    rcases acquire_slot inp (Ev.start s) with g | g <;> rw [g] at h1
    · exact h1
    · exact clearCalWindow_capture h1

/-- The axle map unit at a sample event that began in `s` (R109). -/
theorem serveMap_exit {s : State} {e : Ev} (ok : Bool) (r : SampleResult) (ha : e.st.axle = s.axle)
    (hx : e.st.cap.exit = s.cap.exit) (hs : ∀ op, e.st.cap.slot = .capture op → s.cap.slot = .capture op)
    (h : occupancyNotes s (serveMap ok r e).st = [] ∨ s.completesNone (serveMap ok r e).st) :
    (serveMap ok r e).st.cap.exit = exitByMap s (serveMap ok r e).st := by
  unfold serveMap at h ⊢
  dsimp only at h ⊢
  rw [ha] at h ⊢
  split_ifs at h ⊢ with hc
  · refine formOccupancy_exit ok false _ (by rw [serveHiddenLoad_slot]; exact hx)
      (by rw [serveHiddenLoad_slot]; exact hs) ?_
    rcases h with h | h
    · refine .inl ⟨rfl, ?_, h⟩
      have hcert : (serveHiddenLoad r e).1.st.axle.certain = true := by
        unfold occupancyNotes at h
        rw [formOccupancy_axle] at h
        by_contra hn
        rw [if_neg (fun x => hn (x.2.trans hc))] at h
        cases h
      revert hcert
      unfold serveHiddenLoad; dsimp only; repeat' split
      all_goals simp [loseCertainty, ha, hc, AxleMap.lose]
    · exact .inr h
  · refine formOccupancy_exit ok false none (by rw [serveRecovery_slot]; exact hx)
      (by rw [serveRecovery_slot]; exact hs) ?_
    exact h.imp (fun x => ⟨rfl, rfl, x⟩) id

/-- The capture controller at a sample event that completes nothing (R109): the deck went down, no decision stands, or the
slot still holds an operation. -/
theorem serveOperation_exit {e : Ev} (ok : Bool) (r : SampleResult) (h : ∀ op, e.st.cap.slot = .capture op →
    r.isDeckDown = true ∨ e.st.zm.decisions.forProfile op.profile = false ∨
      ∃ op1, (serveOperation ok r e).st.cap.slot = .capture op1) :
    (serveOperation ok r e).st.cap.exit = e.st.cap.exit := by
  have hcomp : ∀ (op : Operation) (e1 : Ev) (op1 : Operation),
      (completeComposite ok op e1).st.cap.slot ≠ .capture op1 := by
    intro op e1 op1; unfold completeComposite; dsimp only; split <;> simp [failOp, setSlot]
  have hpos : ∀ (op : Operation) (cs : List Component), (∃ op1, (takePosition ok op cs e).st.cap.slot = .capture op1) →
      (takePosition ok op cs e).st.cap.exit = e.st.cap.exit := by
    rintro op cs ⟨op1, ho⟩
    unfold takePosition at ho ⊢
    dsimp only at ho ⊢
    split_ifs at ho ⊢
    · exact absurd ho (hcomp _ _ _)
    · exact absurd ho (by simp [failOp, setSlot])
    · simp [Capture.exit, setSlot]
  have hseek : ∀ (op : Operation) (e1 : Ev), seekPosition ok op e = some e1 →
      (∃ op1, e1.st.cap.slot = .capture op1) → e1.st.cap.exit = e.st.cap.exit := by
    intro op e1 hs ho
    unfold seekPosition at hs; dsimp only at hs
    repeat' split at hs
    all_goals first
      | (cases hs; exact failOp_exit _ _ _)
      | (cases hs; exact hpos _ _ ho)
      | cases hs
  have htry : ∀ (op : Operation) (e1 : Ev), tryCapture ok op e = some e1 →
      (e.st.zm.decisions.forProfile op.profile = false ∨ ∃ op1, e1.st.cap.slot = .capture op1) →
        e1.st.cap.exit = e.st.cap.exit := by
    intro op e1 ht ho
    unfold tryCapture at ht; dsimp only at ht
    split at ht
    · cases ht
    · rename_i hd
      have ho : ∃ op1, e1.st.cap.slot = .capture op1 := ho.resolve_left fun x => hd (.inr x)
      repeat' split at ht
      all_goals first
        | exact hseek _ _ ht ho
        | cases ht
      all_goals
        obtain ⟨op1, ho⟩ := ho
        unfold takeWhole at ho; dsimp only at ho
        split at ho <;> simp [failOp, setSlot] at ho
  cases hs : e.st.cap.slot with
  | capture op =>
    have hh := h op hs
    unfold serveOperation at hh ⊢
    rw [hs] at hh ⊢
    dsimp only at hh ⊢
    by_cases hd : r.isDeckDown = true
    · rw [if_pos hd]; exact failOp_exit op .deckDown e
    · rw [if_neg hd] at hh ⊢
      cases ht : tryCapture ok { op with timeoutCount := op.timeoutCount + 1 } e with
      | some e1 => rw [ht] at hh; exact htry _ _ ht (hh.resolve_left hd)
      | none =>
        dsimp only; split_ifs
        · exact failOp_exit { op with timeoutCount := op.timeoutCount + 1 } .unstableTimeout e
        · simp [Capture.exit, setSlot]
  | free => unfold serveOperation; rw [hs]
  | adjustment x => unfold serveOperation; rw [hs]
  | audit x => unfold serveOperation; rw [hs]

/-- Behind the capture controller a sample event leaves the exit lamp and the hold, and puts no operation into the slot. -/
theorem sampleEvent_exit (inp : SampleInput) (s : State) :
    let a := acquire inp (Ev.start s)
    let r := formedResult a.ev.st a.value
    let e := serveOperation inp.storeOk r (serveMap inp.storeOk r (serveZero r a.ev))
    (sampleEvent inp (Ev.start s)).st.cap.exit = e.st.cap.exit ∧
      ∀ op, (sampleEvent inp (Ev.start s)).st.cap.slot = .capture op → e.st.cap.slot = .capture op := by
  intro a r e
  have cal : ∀ (v : Chan → Int) (t : Nat) (e : Ev), (serveCalibration r v t e).st.cap.exit = e.st.cap.exit ∧
      ∀ op, (serveCalibration r v t e).st.cap.slot = .capture op → e.st.cap.slot = .capture op := by
    intro v t e; unfold serveCalibration; dsimp only; repeat' split
    all_goals simp_all [Capture.exit, setSession, setSlot]
  have step : ∀ e : Ev, (serveStep e).st.cap.exit = e.st.cap.exit ∧
      ∀ op, (serveStep e).st.cap.slot = .capture op → e.st.cap.slot = .capture op := by
    intro e; unfold serveStep; repeat' split
    all_goals simp_all [Capture.exit, setAudit, setSlot]
  have adj : ∀ e : Ev, (serveAdjustIdle e).st.cap.exit = e.st.cap.exit ∧
      ∀ op, (serveAdjustIdle e).st.cap.slot = .capture op → e.st.cap.slot = .capture op := by
    intro e; unfold serveAdjustIdle; repeat' split
    all_goals simp_all [Capture.exit, abortAdjustment, endAdjustment, setSession, setSlot]
  have aud : ∀ e : Ev, (serveAuditIdle e).st.cap.exit = e.st.cap.exit ∧
      ∀ op, (serveAuditIdle e).st.cap.slot = .capture op → e.st.cap.slot = .capture op := by
    intro e; unfold serveAuditIdle; repeat' split
    all_goals simp_all [Capture.exit, abandonSession, setAudit, setSlot]
  have warm : ∀ e : Ev, (warmupEnd e).st.cap.exit = e.st.cap.exit ∧
      ∀ op, (warmupEnd e).st.cap.slot = .capture op → e.st.cap.slot = .capture op := by
    intro e; unfold warmupEnd; split_ifs
    · exact ⟨rfl, fun op h => clearCalWindow_capture (x := e.st.cap.slot) h⟩
    · exact ⟨rfl, fun _ h => h⟩
  let c := serveCalibration r a.value.get a.ev.st.zm.clock e
  have h0 := cal a.value.get a.ev.st.zm.clock e
  have h1 := step c
  have h2 := adj (serveStep c)
  have h3 := aud (serveAdjustIdle (serveStep c))
  have h4 := warm (serveAuditIdle (serveAdjustIdle (serveStep c)))
  exact ⟨h4.1.trans (h3.1.trans (h2.1.trans (h1.1.trans h0.1))),
    fun op h => h0.2 op (h1.2 op (h2.2 op (h3.2 op (h4.2 op h))))⟩

end Sys2Proof.Machine
end

