-- ==== Sys2Proof/Laws/Records.lean ====
section
/-! SUPPORT. What the completion of an operation and the removals do to the laws of the record store: tickets,
reservation, entries and stored tares. -/

namespace Sys2Proof.Machine

/-! ## Tickets -/

/-- An issued ticket with the next number keeps the ticket law (R115, R129). -/
theorem ticketsLawful_issue {st st' : Store} {t : Ticket} (h : st.ticketsLawful) (ht : t.number = st.ticketCounter + 1)
    (h1 : st'.tickets = st.tickets ++ [t]) (h2 : st'.ticketCounter = t.number) : st'.ticketsLawful := by
  unfold Store.ticketsLawful at *
  rw [h1, h2, ht]
  obtain ⟨ha, hb⟩ := h
  refine ⟨by simp; omega, ?_⟩
  rw [List.map_append, hb]
  simp only [List.length_append, List.length_singleton, List.map_cons, List.map_nil, ht]
  rw [List.range'_concat]
  congr 1
  · congr 1; omega
  · simp; omega

/-- A released ticket keeps the ticket law (R131). -/
theorem ticketsLawful_tail {st : Store} (h : st.ticketsLawful) :
    Store.ticketsLawful { st with tickets := st.tickets.tail } := by
  unfold Store.ticketsLawful at *
  obtain ⟨ha, hb⟩ := h
  cases ht : st.tickets with
  | nil => simp
  | cons a r =>
    rw [ht] at ha hb
    simp at ha
    refine ⟨by simp; omega, ?_⟩
    simp only [List.tail_cons]
    simp only [List.map_cons, List.length_cons, List.range'_succ] at hb
    injection hb with h1 h2
    rw [h2]; congr 1; omega

/-- The completion of an operation keeps the ticket law (R107). -/
theorem completeKind_tickets (ok : Bool) (r : CaptureResult) (e : Ev) (h : e.st.store.ticketsLawful) :
    (completeKind ok r e).1.st.store.ticketsLawful := by
  unfold completeKind
  split
  · exact h
  all_goals
    split_ifs
    · exact h
  · cases ok
    · simp [completeFirst, openWrite, latchStoreFault_st]; exact h
    · exact h
  · unfold completeSecond
    split
    · exact h
    · split
      · cases ok
        · simp [latchStoreFault_st]; exact h
        · exact h
      · cases ok
        · simp [issueWrite, latchStoreFault_st]; exact h
        · simp [issueWrite, setReserved]; exact ticketsLawful_issue h rfl rfl rfl
  · unfold completeSinglePass
    dsimp only
    split
    · cases ok
      · simp [issueWrite, latchStoreFault_st]; exact h
      · simp [issueWrite, setReserved]; exact ticketsLawful_issue h rfl rfl rfl
    · cases ok
      · simp [openWrite, latchStoreFault_st]; exact h
      · exact h
  · unfold completeTare
    dsimp only
    split
    · cases ok
      · simp [latchStoreFault_st]; exact h
      · exact h
    · exact h

/-- The tickets that a completion may store: one, and only for a kind that holds a reservation (R129, R130). -/
def ticketRoom (k : CaptureKind) : Nat := if k.reserves then 1 else 0

/-- A completion stores at most the ticket it has room for (R129, R130). -/
theorem completeKind_ticketCount (ok : Bool) (r : CaptureResult) (e : Ev) :
    (completeKind ok r e).1.st.store.tickets.length ≤ e.st.store.tickets.length + ticketRoom r.request.kind := by
  unfold completeKind
  split <;> rename_i hk <;> simp only [hk, ticketRoom, CaptureKind.reserves, if_true]
  · simp
  all_goals
    by_cases hf : e.st.tm.storeFault = true
    · simp [hf]
    simp only [hf]
  · cases ok <;> simp [completeFirst, openWrite, latchStoreFault_st]
  · unfold completeSecond
    simp only [Bool.false_eq_true, if_false]
    split
    · simp
    · split
      · cases ok <;> simp [latchStoreFault_st, reworkEntry]
      · cases ok <;> simp [issueWrite, latchStoreFault_st, setReserved, removeEntry]
  · unfold completeSinglePass
    simp only [Bool.false_eq_true, if_false]
    split
    · cases ok <;> simp [issueWrite, latchStoreFault_st, setReserved]
    · cases ok <;> simp [openWrite, latchStoreFault_st]
  · unfold completeTare
    simp only [Bool.false_eq_true, if_false]
    split
    · cases ok <;> simp [latchStoreFault_st]
    · simp

/-- The course of an operation keeps the ticket law. -/
theorem TicketLaw.course {a b : State} (c : Course a b) (h : TicketLaw a) : TicketLaw b := by
  unfold TicketLaw at *
  cases c with
  | goesOn h1 h2 h3 => rw [h1]; exact h
  | ends op h1 h2 h3 h4 =>
    rcases h4 with h4 | ⟨ok, r, e, e1, e2, e3, e4⟩
    · rw [h4]; exact h
    · rw [e4]
      exact completeKind_tickets ok r e (by rw [e2]; exact h)

/-- The course of an operation keeps the reservation law. -/
theorem ReservationLaw.course {a b : State} (c : Course a b) (h : ReservationLaw a) : ReservationLaw b := by
  obtain ⟨ha, hb, hc⟩ := h
  cases c with
  | goesOn h1 h2 h3 =>
    refine ⟨by rw [h2]; exact ha, by rw [h1, h2]; exact hb, fun op' hop hr => ?_⟩
    obtain ⟨op, hop2, heq⟩ := h3 op' hop
    rw [h2]; exact hc op hop2 (heq ▸ hr)
  | ends op h1 h2 h3 h4 =>
    refine ⟨by omega, ?_, fun op' hop => absurd hop (h2 op')⟩
    rw [h3]
    rcases h4 with h4 | ⟨ok, r, e, e1, e2, e3, e4⟩
    · rw [h4]; omega
    · have hle := completeKind_ticketCount ok r e
      rw [e4]
      rw [e2, e1] at hle
      unfold ticketRoom at hle
      by_cases hk : op.request.kind.reserves = true
      · have := hc op h1 hk; rw [if_pos hk] at hle; omega
      · rw [if_neg hk] at hle; omega

/-! ## Entries and stored tares -/

/-- An entry opened for a vehicle without one keeps the law of the tables (R116, R118). -/
theorem tablesLawful_open {st : Store} {n : Nat} {k : TxKind} {r : CaptureResult} (h : st.tablesLawful)
    (h1 : st.entries.length < 64) (h2 : st.hasVehicle r.request.vehicle = false) :
    Store.tablesLawful { st with entries := st.entries ++ [openedEntry n k r], txCounter := n } := by
  obtain ⟨a, b, c⟩ := h
  refine ⟨by simp; omega, ?_, c⟩
  simp only [List.map_append, List.map_cons, List.map_nil]
  rw [List.nodup_append]
  refine ⟨b, by simp, ?_⟩
  intro x hx y hy
  simp at hy hx
  subst hy
  rintro rfl
  obtain ⟨e, he, hv⟩ := hx
  simp [Store.hasVehicle] at h2
  exact h2 e he hv

/-- Entries removed keep the law of the tables. -/
theorem tablesLawful_filter {st : Store} (p : OpenEntry → Bool) (h : st.tablesLawful) :
    Store.tablesLawful { st with entries := st.entries.filter p } :=
  ⟨le_trans (List.length_filter_le _ _) h.1, List.Nodup.sublist (List.Sublist.map _ List.filter_sublist) h.2.1, h.2.2⟩

/-- Entries changed but for their vehicles keep the law of the tables. -/
theorem tablesLawful_map {st : Store} (f : OpenEntry → OpenEntry) (hf : ∀ x, (f x).vehicle = x.vehicle)
    (h : st.tablesLawful) : Store.tablesLawful { st with entries := st.entries.map f } := by
  refine ⟨by simpa using h.1, ?_, h.2.2⟩
  have : (st.entries.map f).map OpenEntry.vehicle = st.entries.map OpenEntry.vehicle := by
    rw [List.map_map]
    exact List.map_congr_left fun x _ => hf x
  dsimp only
  rw [this]
  exact h.2.1

/-- A stored tare found for a vehicle is that vehicle's (R123). -/
theorem tareSlot_some {st : Store} {v : Text} {i : Fin 128} (h : st.tareSlot v = some i) :
    ∃ t, st.tares.get i = some t ∧ t.vehicle = v := by
  have := List.find?_some h
  cases ht : st.tares.get i with
  | none => simp [ht] at this
  | some t => simp [ht] at this; exact ⟨t, rfl, this⟩

/-- No stored tare is a vehicle's when none is found for it (R123). -/
theorem tareSlot_none {st : Store} {v : Text} (h : st.tareSlot v = none) {i : Fin 128} {t : StoredTare}
    (ht : st.tares.get i = some t) : t.vehicle ≠ v := by
  unfold Store.tareSlot at h
  rw [List.find?_eq_none] at h
  have := h i (by simp [allTares])
  simp [ht] at this
  exact this

/-- A search that keeps the first of the smallest finds the smallest, on a tie the lowest. -/
theorem foldl_least {n : Nat} (f : Fin n → Nat) (l : List (Fin n)) (b : Fin n) (hl : l.Pairwise (· < ·))
    (hb : ∀ j ∈ l, b < j) (i : Fin n) (hi : i = b ∨ i ∈ l)
    (hm : ∀ j, j = b ∨ j ∈ l → f i < f j ∨ f i = f j ∧ i ≤ j) :
    l.foldl (fun best j => if f j < f best then j else best) b = i := by
  induction l generalizing b with
  | nil => simpa [eq_comm] using hi
  | cons x r ih =>
    rw [List.pairwise_cons] at hl
    have hx : b < x := hb x (by simp)
    rw [List.foldl_cons]
    split_ifs with h
    · apply ih _ hl.2 hl.1
      · rcases hi with rfl | hi
        · rcases hm x (by simp) with h1 | h1 <;> omega
        · simpa using hi
      · intro j hj; exact hm j (Or.inr (by simpa using hj))
    · apply ih _ hl.2 (fun j hj => lt_trans hx (hl.1 j hj))
      · rcases hi with rfl | hi
        · exact Or.inl rfl
        · rcases List.mem_cons.1 hi with rfl | hi
          · rcases hm b (by simp) with h1 | ⟨h1, h2⟩
            · exact absurd h1 h
            · exact absurd h2 (not_le.2 hx)
          · exact Or.inr hi
      · intro j hj
        apply hm; rcases hj with rfl | hj
        · exact Or.inl rfl
        · exact Or.inr (List.mem_cons_of_mem _ hj)

/-- A vehicle's tare is found in the one slot that holds it (R123). -/
theorem tareSlot_eq {st : Store} {v : Text} {i : Fin 128} {x : StoredTare} (hx : st.tares.get i = some x)
    (hv : x.vehicle = v) (h1 : ∀ j y, st.tares.get j = some y → y.vehicle = v → j = i) : st.tareSlot v = some i := by
  cases h : st.tareSlot v with
  | none => exact absurd hv (tareSlot_none h hx)
  | some j =>
    obtain ⟨y, hy, hyv⟩ := tareSlot_some h
    rw [h1 j y hy hyv]

/-- A vehicle without a tare has no slot. -/
theorem tareSlot_eq_none {st : Store} {v : Text} (h : ∀ j y, st.tares.get j = some y → y.vehicle ≠ v) :
    st.tareSlot v = none := by
  cases hs : st.tareSlot v with
  | none => rfl
  | some j =>
    obtain ⟨y, hy, hyv⟩ := tareSlot_some hs
    exact absurd hyv (h j y hy)

/-- Without a slot of its own a tare takes the lowest empty one (R123). -/
theorem chooseSlot_empty {st : Store} {v : Text} {i : Fin 128} (hs : st.tareSlot v = none)
    (hi : st.tares.get i = none) (hl : ∀ j, j < i → st.tares.get j ≠ none) : chooseSlot st v = i := by
  unfold chooseSlot
  rw [hs]; dsimp only
  have : allTares.find? (fun i => (st.tares.get i).isNone) = some i := by
    rw [List.find?_eq_some_iff_getElem]
    refine ⟨by simp [hi], i.val, by simp [allTares], by simp [allTares], ?_⟩
    intro j hj
    have := hl ⟨j, by omega⟩ (by simpa [Fin.lt_def] using hj)
    simp [allTares]; exact Option.isSome_iff_ne_none.2 this
  rw [this]

/-- With every slot held by other vehicles it takes the one with the oldest date, on a tie the lowest (R123). -/
theorem chooseSlot_oldest {st : Store} {v : Text} {i : Fin 128} (hs : st.tareSlot v = none)
    (hf : ∀ j, st.tares.get j ≠ none)
    (ho : ∀ j, tareDay st.tares i < tareDay st.tares j ∨ tareDay st.tares i = tareDay st.tares j ∧ i ≤ j) :
    chooseSlot st v = i := by
  unfold chooseSlot
  rw [hs]; dsimp only
  have : allTares.find? (fun i => (st.tares.get i).isNone) = none := by
    rw [List.find?_eq_none]; intro j _; simpa [Option.isSome_iff_ne_none] using hf j
  rw [this]; dsimp only
  unfold oldestTare
  have e : allTares = 0 :: allTares.tail := by decide
  rw [e, List.foldl_cons, if_neg (lt_irrefl _)]
  have hp : (0 :: allTares.tail).Pairwise (· < ·) := by rw [← e]; exact List.pairwise_lt_finRange 128
  rw [List.pairwise_cons] at hp
  refine foldl_least _ _ _ hp.2 hp.1 i ?_ (fun j _ => ho j)
  have : i ∈ 0 :: allTares.tail := by rw [← e]; exact List.mem_finRange i
  simpa using this

/-- A tare stored where R123 stores it keeps the law of the tables. -/
theorem tablesLawful_tare {st : Store} (t : StoredTare) (h : st.tablesLawful) :
    Store.tablesLawful { st with tares := st.tares.set (chooseSlot st t.vehicle) (some t) } := by
  obtain ⟨a, b, c⟩ := h
  refine ⟨a, b, ?_⟩
  intro i j x y hx hy hv
  simp only [Bank.get_set] at hx hy
  have key : ∀ k z, k ≠ chooseSlot st t.vehicle → st.tares.get k = some z → z.vehicle ≠ t.vehicle := by
    intro k z hk hz hzv
    cases hs : st.tareSlot t.vehicle with
    | none => exact tareSlot_none hs hz hzv
    | some i0 =>
      obtain ⟨t0, h0, h0v⟩ := tareSlot_some hs
      have : k = i0 := c k i0 z t0 hz h0 (hzv.trans h0v.symm)
      apply hk; rw [this]; simp [chooseSlot, hs]
  split_ifs at hx hy with h1 h2
  · exact h1.symm.trans h2
  · injection hx with hx; subst hx; exact absurd hv.symm (key j y (Ne.symm h2) hy)
  · injection hy with hy; subst hy; exact absurd hv (key i x (Ne.symm h1) hx)
  · exact c i j x y hx hy hv

/-- A tare deleted keeps the law of the tables (R126). -/
theorem tablesLawful_noTare {st : Store} (k : Fin 128) (h : st.tablesLawful) :
    Store.tablesLawful { st with tares := st.tares.set k none } := by
  obtain ⟨a, b, c⟩ := h
  refine ⟨a, b, ?_⟩
  intro i j x y hx hy hv
  simp only [Bank.get_set] at hx hy
  split_ifs at hx hy
  exact c i j x y hx hy hv

/-- The completion of an operation keeps the law of the tables, when a kind that opens an entry has a place and its
vehicle none (R107, R118, R125). -/
theorem completeKind_tables (ok : Bool) (r : CaptureResult) (e : Ev) (h : e.st.store.tablesLawful)
    (ho : r.request.kind.opens = true →
      e.st.store.entries.length < 64 ∧ e.st.store.hasVehicle r.request.vehicle = false) :
    (completeKind ok r e).1.st.store.tablesLawful := by
  unfold completeKind
  split <;> rename_i hk
  · exact h
  all_goals
    split_ifs
    · exact h
  · have := ho (by rw [hk]; rfl)
    cases ok
    · simp [completeFirst, openWrite, latchStoreFault_st]; exact h
    · exact tablesLawful_open h this.1 this.2
  · unfold completeSecond
    split
    · exact h
    · split
      · cases ok
        · simp [latchStoreFault_st]; exact h
        · simp [reworkEntry]
          exact tablesLawful_map _ (fun x => by split_ifs <;> rfl) h
      · cases ok
        · simp [issueWrite, latchStoreFault_st]; exact h
        · simp [issueWrite, setReserved, removeEntry]
          exact tablesLawful_filter _ h
  · have := ho (by rw [hk]; rfl)
    unfold completeSinglePass
    dsimp only
    split
    · cases ok
      · simp [issueWrite, latchStoreFault_st]; exact h
      · simp [issueWrite, setReserved]; exact h
    · cases ok
      · simp [openWrite, latchStoreFault_st]; exact h
      · exact tablesLawful_open h this.1 this.2
  · unfold completeTare
    dsimp only
    split
    · rename_i stamp _ _
      cases ok
      · simp [latchStoreFault_st]; exact h
      · exact tablesLawful_tare
          { vehicle := r.request.vehicle, mass := r.gross, date := stamp.date, counter := r.counter } h
    · exact h

/-- The course of an operation keeps the law of the tables. -/
theorem TableLaw.course {a b : State} (c : Course a b) (h : TableLaw a) : TableLaw b := by
  obtain ⟨ha, hd⟩ := h
  cases c with
  | goesOn h1 h2 h3 =>
    unfold TableLaw
    rw [h1]
    refine ⟨ha, fun op' hop hr => ?_⟩
    obtain ⟨op, hop2, heq⟩ := h3 op' hop
    rw [heq]; exact hd op hop2 (heq ▸ hr)
  | ends op h1 h2 h3 h4 =>
    refine ⟨?_, fun op' hop => absurd hop (h2 op')⟩
    rcases h4 with h4 | ⟨ok, r, e, e1, e2, e3, e4⟩
    · rw [h4]; exact ha
    · rw [e4]
      apply completeKind_tables
      · rw [e2]; exact ha
      · rw [e1, e2]; exact hd op h1

end Sys2Proof.Machine
end

