-- ==== Sys2Proof/Laws/Windows.lean ====
section
/-! SUPPORT. What the window's arithmetic says (spread, stability, band, rebase) and what each stage of the zero and motion
unit leaves of it at a sample event, said once. -/

namespace Sys2Proof.Machine

/-! ## Sums, spreads and stability -/

theorem sumInt_eq_sum (l : List Int) : sumInt l = l.sum := List.sum_eq_foldl.symm

theorem foldl_max_bounds (r : List Int) (x : Int) :
    x ≤ r.foldl max x ∧ (∀ y ∈ r, y ≤ r.foldl max x) ∧ (r.foldl max x = x ∨ r.foldl max x ∈ r) := by
  induction r generalizing x with
  | nil => simp
  | cons a r ih =>
    obtain ⟨h1, h2, h3⟩ := ih (max x a)
    simp only [List.foldl_cons, List.mem_cons]
    refine ⟨by omega, ?_, ?_⟩
    · rintro y (rfl | hy)
      · omega
      · exact h2 y hy
    · rcases h3 with h | h
      · omega
      · exact .inr (.inr h)

theorem foldl_min_bounds (r : List Int) (x : Int) :
    r.foldl min x ≤ x ∧ (∀ y ∈ r, r.foldl min x ≤ y) ∧ (r.foldl min x = x ∨ r.foldl min x ∈ r) := by
  induction r generalizing x with
  | nil => simp
  | cons a r ih =>
    obtain ⟨h1, h2, h3⟩ := ih (min x a)
    simp only [List.foldl_cons, List.mem_cons]
    refine ⟨by omega, ?_, ?_⟩
    · rintro y (rfl | hy)
      · omega
      · exact h2 y hy
    · rcases h3 with h | h
      · omega
      · exact .inr (.inr h)

/-- The spread is at most `b` exactly when any two values differ by at most `b` (R45). -/
theorem spread_le_iff (l : List Int) (b : Nat) : spread l ≤ b ↔ ∀ x ∈ l, ∀ y ∈ l, x - y ≤ (b : Int) := by
  cases l with
  | nil => simp [spread]
  | cons a r =>
    obtain ⟨h1, h2, h3⟩ := foldl_max_bounds r a
    obtain ⟨g1, g2, g3⟩ := foldl_min_bounds r a
    have hmax : r.foldl max a ∈ a :: r := List.mem_cons.mpr h3
    have hmin : r.foldl min a ∈ a :: r := List.mem_cons.mpr g3
    have up : ∀ x ∈ a :: r, x ≤ r.foldl max a ∧ r.foldl min a ≤ x := by
      intro x hx
      rcases List.mem_cons.mp hx with rfl | hx
      · exact ⟨h1, g1⟩
      · exact ⟨h2 x hx, g2 x hx⟩
    simp only [spread]
    constructor
    · intro h x hx y hy
      have := (up x hx).1; have := (up y hy).2; omega
    · intro h
      have := h _ hmax _ hmin; omega

/-- Stable: W entries, and a spread within the band (R45). -/
theorem stableUnder_iff (w b : Nat) (l : List WindowEntry) : stableUnder w b (l.map WindowEntry.total) = true ↔
    w ≤ l.length ∧ ∀ x ∈ l, ∀ y ∈ l, x.total - y.total ≤ (b : Int) := by
  unfold stableUnder; rw [decide_eq_true_iff, spread_le_iff]; simp

/-- The level of the segment in which `t` lies; the last segment holds on (R47, R49). -/
theorem segmentLevel_at (pre post : List (Nat × Nat)) (code level t : Nat)
    (h1 : (pre.map fun x => segmentSamples x.1).sum ≤ t)
    (h2 : post = [] ∨ t < (pre.map fun x => segmentSamples x.1).sum + segmentSamples code) :
    segmentLevel (pre ++ (code, level) :: post) t = level := by
  induction pre generalizing t with
  | nil =>
    cases post with
    | nil => rfl
    | cons x r => exact if_pos (by simpa using h2)
  | cons x r ih =>
    simp only [List.map_cons, List.sum_cons] at h1 h2
    have step : segmentLevel (x :: (r ++ (code, level) :: post)) t =
        if t < segmentSamples x.1 then x.2 else segmentLevel (r ++ (code, level) :: post) (t - segmentSamples x.1) := by
      cases r <;> rfl
    rw [List.cons_append, step, if_neg (by omega)]
    refine ih _ (by omega) ?_
    rcases h2 with h | h
    · exact .inl h
    · right; omega

/-! ## The rebase -/

theorem rebase_of_zero (w : WindowEntry) (f : Deck → Int) (h : ∀ d, f d = 0) : w.rebase f = w := by
  obtain rfl : f = fun _ => 0 := funext h
  simp [WindowEntry.rebase, sumInt_eq_sum]

theorem rebase_rebase (w : WindowEntry) (f g : Deck → Int) : (w.rebase f).rebase g = w.rebase fun d => f d + g d := by
  have sums : ∀ l : List DeckMass, (l.map fun m => f m.deck + g m.deck).sum =
      (l.map fun m => f m.deck).sum + (l.map fun m => g m.deck).sum := by
    intro l
    induction l with
    | nil => rfl
    | cons x r ih => simp only [List.map_cons, List.sum_cons, ih]; omega
  simp only [WindowEntry.rebase, List.map_map, sumInt_eq_sum, sums, Function.comp_def]
  congr 1
  · omega
  · exact List.map_congr_left fun m _ => by simp; omega

/-- What a stage of the zero and motion unit leaves behind a decision: the decisions, the clock and the latest result, and
the window rebased by what the offsets rose (R53). -/
structure Rebases (a b : State) : Prop where
  decisions : b.zm.decisions = a.zm.decisions
  clock : b.zm.clock = a.zm.clock
  latest : b.zm.latest = a.zm.latest
  window : b.zm.window = a.zm.window.map (WindowEntry.rebase fun d => b.zm.offset.get d - a.zm.offset.get d)

theorem Rebases.of_same {a b : State} (hd : b.zm.decisions = a.zm.decisions) (hc : b.zm.clock = a.zm.clock)
    (hl : b.zm.latest = a.zm.latest) (hw : b.zm.window = a.zm.window) (ho : b.zm.offset = a.zm.offset) :
    Rebases a b := by
  refine ⟨hd, hc, hl, ?_⟩
  rw [hw, ho]
  have : (WindowEntry.rebase fun d => a.zm.offset.get d - a.zm.offset.get d) = id :=
    funext fun w => rebase_of_zero w _ fun d => Int.sub_self _
  rw [this, List.map_id]

theorem Rebases.trans {a b c : State} (h1 : Rebases a b) (h2 : Rebases b c) : Rebases a c := by
  refine ⟨h2.decisions.trans h1.decisions, h2.clock.trans h1.clock, h2.latest.trans h1.latest, ?_⟩
  rw [h2.window, h1.window, List.map_map]
  refine List.map_congr_left fun w _ => ?_
  simp only [Function.comp, rebase_rebase]
  congr 1; funext d; omega

theorem initialZero_rebases (e : Ev) : Rebases e.st (initialZero e).st := by
  unfold initialZero; dsimp only; split_ifs
  · exact ⟨rfl, rfl, rfl, rfl⟩
  all_goals exact .of_same rfl rfl rfl rfl rfl

theorem tracking_rebases (e : Ev) : Rebases e.st (tracking e).st := by
  unfold tracking; dsimp only; split_ifs
  · exact ⟨rfl, rfl, rfl, rfl⟩
  all_goals exact .of_same rfl rfl rfl rfl rfl

/-! ## The unit's stages at a sample event -/

/-- The zero and motion unit adds ZERO_STATE, ZERO_LIMIT and ZERO_RANGE at most (R171). -/
theorem serveZero_adds (r : SampleResult) (e : Ev) : e.AddsFrom 2 (serveZero r e) := by
  have ini : ∀ e : Ev, e.AddsFrom 2 (initialZero e) := by
    intro e
    unfold initialZero; dsimp only; split_ifs
    · exact ((Ev.AddsFrom.refl 2 e).upd _).note (Nat.le_of_ble_eq_true rfl)
    · exact .refl 2 e
    · exact ((Ev.AddsFrom.refl 2 e).upd _).note (Nat.le_of_ble_eq_true rfl)
    · exact .refl 2 e
  have trk : ∀ e : Ev, e.AddsFrom 2 (tracking e) := by
    intro e
    unfold tracking; dsimp only; split_ifs
    · refine (((Ev.AddsFrom.refl 2 e).upd _).noteAll ?_).mark _
      intro n h
      obtain ⟨d, _, rfl⟩ := List.mem_map.mp h
      exact Nat.le_of_ble_eq_true rfl
    all_goals exact (Ev.AddsFrom.refl 2 e).upd _
  unfold serveZero; dsimp only; split_ifs
  · exact (((Ev.AddsFrom.refl 2 e).upd _).trans (ini _)).trans (trk _)
  · exact (Ev.AddsFrom.refl 2 e).upd _

/-- What the acquisition unit does to the zero and motion unit: a restart where an included set changed in RUN, and nothing
else (R5, R42). -/
theorem acquire_zm (inp : SampleInput) (s : State) :
    (acquire inp (Ev.start s)).ev.st.zm =
      if s.acq.scale = .run ∧ includedChanged s.assignmentDue s.acq.channels
          (Bank.ofFn (channelAfter s.assignmentDue s.acq.spikeLimit s.acq.channels inp)) = true then
        { s.zm with window := [], clock := 0, decisions := notStable }
      else s.zm := by
  have hd : (beginSample s).healthAssign = s.assignmentDue := by
    funext i; simp [beginSample, State.healthAssign]
  unfold acquire acquireRun
  simp only [Ev.upd, Ev.start, hd]
  split
  · rename_i hs
    have hrun : s.acq.scale = .run := hs
    simp only [hrun, true_and]
    split_ifs <;> first | rfl | contradiction
  all_goals
    rename_i hs
    have hs' : s.acq.scale = _ := hs
    simp only [hs', reduceCtorEq, false_and, if_false]
    rfl

/-- Behind the zero and motion unit a sample event changes its state only by the restart at the end of the warm-up, where
the result was no VALUE. -/
theorem sampleEvent_zm (inp : SampleInput) (s : State) :
    let a := acquire inp (Ev.start s)
    let r := formedResult a.ev.st a.value
    (sampleEvent inp (Ev.start s)).st.zm = (serveZero r a.ev).st.zm ∨
      (r.isValue = false ∧ (sampleEvent inp (Ev.start s)).st.zm =
        { (serveZero r a.ev).st.zm with window := [], clock := 0, decisions := notStable }) := by
  intro a r
  have h : (serveResult inp.storeOk r a.value a.ev).st.zm = (serveZero r a.ev).st.zm := by
    unfold serveResult; simp
  change (warmupEnd (serveResult inp.storeOk r a.value a.ev)).st.zm = _ ∨
    (_ ∧ (warmupEnd (serveResult inp.storeOk r a.value a.ev)).st.zm = _)
  unfold warmupEnd; split_ifs with hw
  · right
    refine ⟨?_, by simp [restart, h]⟩
    by_contra hn
    have hrun := formedResult_isValue (by simpa using hn : r.isValue = true)
    have h2 := hw.1
    simp at h2
    rw [hrun] at h2; cases h2
  · exact .inl h

/-! ## The fault capture record of a sample event -/

/-- Offering the faults of `l` in order: a free record takes the first and keeps MORE for any further one; a held record
keeps MORE only (R37). -/
theorem offerFaults_spec (fault : Chan → Option FaultKind) (inp : SampleInput) (n : BitVec 32) (st : Option DateTime)
    (rec : Option FaultCapture) (l : List Chan) :
    let f := l.filter fun i => (fault i).isSome
    let x := l.foldl (fun r i => match fault i with
      | none => r
      | some k => offerFault n st (inp.raw.get i).toInt i k r) rec
    (f = [] → x = rec) ∧ (∀ i k r, f = i :: r → fault i = some k →
        (rec = none → x = some
          { channel := i, kind := k, raw := (inp.raw.get i).toInt, sampleNumber := n, stamp := st
            more := decide (r ≠ []) }) ∧
        (∀ y, rec = some y → x = some { y with more := true })) := by
  induction l generalizing rec with
  | nil => simp
  | cons j l ih =>
    cases hj : fault j with
    | none => simpa [hj] using ih rec
    | some k0 =>
      obtain ⟨i1, i2⟩ := ih (offerFault n st (inp.raw.get j).toInt j k0 rec)
      simp only [List.filter_cons, hj, Option.isSome_some, if_true, List.foldl_cons]
      refine ⟨fun h => by simp at h, ?_⟩
      rintro i k r hr hk
      injection hr with h1 h2
      subst h1 h2
      rw [hj] at hk; cases hk
      by_cases hl : (l.filter fun i => (fault i).isSome) = []
      · rw [i1 hl, hl]
        exact ⟨by rintro rfl; rfl, by rintro y rfl; rfl⟩
      · obtain ⟨a, q, haq⟩ := List.exists_cons_of_ne_nil hl
        have ha : a ∈ l.filter fun i => (fault i).isSome := by rw [haq]; simp
        obtain ⟨k', hk'⟩ := Option.isSome_iff_exists.mp (List.mem_filter.mp ha).2
        have hm := (i2 a k' q haq hk').2
        constructor
        · rintro rfl; rw [hm _ rfl]; simp [hl]
        · rintro y rfl; rw [hm _ rfl]

end Sys2Proof.Machine
end

