-- ==== Sys2Proof/Tests/Slice0.lean ====
section
/-! SUPPORT. Checks of the model on small states: the well-formedness smoke, the manual's worked figures, single steps, and
for every statement with hypotheses a state and operands that meet them. -/

namespace Sys2Proof.Tests

set_option Elab.async false

open Sys2Proof.Machine

/-! ## Well-formed commands: one ill-formed term for each check -/

theorem test_wf_accepts :
    Instr.wellFormed (.lengthError 1 1025#16) = true ∧
      Instr.wellFormed (.crcError 1 [2] 0x0000#16) = true ∧
      Instr.wellFormed (.unknownRequest 0x7F []) = true ∧
      Instr.wellFormed (.readChannel [1]) = true ∧ Instr.wellFormed .crystalStop = true := by decide +kernel

theorem test_wf_length_1024_is_no_error : Instr.wellFormed (.lengthError 1 1024#16) = false := by decide +kernel

theorem test_wf_good_crc_is_no_error : Instr.wellFormed (.crcError 1 [2] (frameCrc 1 [2])) = false := by decide +kernel

theorem test_wf_named_kind_is_not_unknown : Instr.wellFormed (.unknownRequest 0x71 []) = false := by decide +kernel

theorem test_wf_payload_too_long :
    Instr.wellFormed (.identify (List.replicate 1025 0)) = false ∧
      Instr.wellFormed (.crcError 1 (List.replicate 1025 0) 0) = false ∧
      Instr.wellFormed (.unknownRequest 0x7F (List.replicate 1025 0)) = false := by decide +kernel

theorem test_no_table_word_spells_a_command (n w : Nat) : decodeTableWord n w = none := rfl

/-! ## The link's bytes -/

/-- The check value of the CRC (R135). -/
theorem test_crc_check_value :
    crc16 [0x31, 0x32, 0x33, 0x34, 0x35, 0x36, 0x37, 0x38, 0x39] = 0x29B1#16 := by decide +kernel

/-- A frame written out by hand: start, kind 0x15, length 1, channel 16 (R167, R169). -/
theorem test_frame_of_read_channel :
    ∃ a b : Byte, frameBytes 0x15 [16] = [0xA5, 0x15, 1, 0, 16, a, b] ∧
      receive true ([0x00, 0x5A] ++ [0xA5, 0x15, 1, 0, 16, a, b]) = [.readChannel [16]] ∧
      receive true [0xA5, 0x15, 1, 0, 17, a, b] = [.crcError 0x15 [17] (frameCrc 0x15 [16])] :=
  ⟨BitVec.ofNat 8 (frameCrc 0x15 [16]).toNat, BitVec.ofNat 8 ((frameCrc 0x15 [16]).toNat / 256), by decide +kernel, by decide +kernel, by decide +kernel⟩

theorem test_length_error_frame : receive true [0xA5, 0x01, 1, 4] = [.lengthError 0x01 1025#16] := by decide +kernel

theorem test_set_calendar_payload :
    parseStamp [0xEF, 0x07, 4, 31, 23, 59, 58] =
      some { date := { year := 2031, month := 4, day := 31 }, hour := 23, minute := 59, second := 58 } := by decide +kernel

/-! ## The manual's worked figures -/

/-- Rounding (R2). -/
theorem test_rounding :
    roundDiv 18749952 100 = 187500 ∧ roundDiv 498997 100 = 4990 ∧ roundDiv 5 2 = 3 ∧ roundDiv (-5) 2 = -3 ∧
      roundDiv (-495) 1000 = 0 ∧ roundDiv (-5) 10 = -1 := by decide +kernel

/-- Substitution (R7): 564,619 over three channels, one excluded. -/
theorem test_substitution :
    (564619 : Int) + 1 * roundDiv 564619 3 = 752825 ∧ (377707 : Int) + 2 * roundDiv 377707 2 = 755415 := by decide +kernel

/-- A two-point table (R9). -/
theorem test_linearity :
    [-350, 120000, 200000, 350000, 350003, 500000, 750002].map
        (linearized [{ load := 200000, correction := 30 }, { load := 500000, correction := 80 }]) =
      [-350, 120018, 200030, 350055, 350058, 500080, 750082] := by decide +kernel

/-- Zones and indicated masses with e = 20 kg and Max = 120,000 kg (R13, R14). -/
theorem test_zones :
    let c := { defaultConfig with maxKg := 120000, eKg := 20 }
    [37, -50, -99, -100, -4099, -4100, 1199950, 1201850, 1201900].map
        (fun t => (roundTo c.eHg t, zoneOf c t (roundTo c.eHg t))) =
      [(0, .centreZero), (0, .centreZero), (0, .normal), (-200, .normal), (-4000, .normal), (-4200, .underload),
        (1200000, .normal), (1201800, .overMax), (1202000, .overload)] := by decide +kernel

/-- Dates (R160, R161). -/
theorem test_dates :
    Date.next { year := 2031, month := 4, day := 31 } = { year := 2031, month := 5, day := 1 } ∧
      Date.normalize { year := 2031, month := 2, day := 30 } = { year := 2031, month := 3, day := 2 } ∧
      Date.next { year := 2031, month := 2, day := 30 } = { year := 2031, month := 3, day := 1 } ∧
      isLeap 2000 = true ∧ isLeap 2196 = true ∧ isLeap 2100 = false ∧
      weekdayOf (Date.dayNumber { year := 2000, month := 1, day := 1 }) = .saturday := by decide +kernel

/-- The calendar ends with 31 December 2199 (R160). -/
theorem test_last_carry :
    (DateTime.carry { date := { year := 2199, month := 12, day := 31 }, hour := 23, minute := 59, second := 59 }).value =
      none := by decide +kernel

/-- Group types (R82). -/
theorem test_group_types :
    [(1, 1), (1, 2), (1, 3), (2, 1), (2, 2), (2, 3), (2, 5)].map (fun p => groupType p.1 p.2) =
      [.steerSingle, .steerTwin, .tridem, .single, .tandem, .tridem, .quad] := by decide +kernel

/-! ## Small states -/

/-- A bridge of two decks, channels 1 and 2 on deck 1, 3 and 4 on deck 2, one hg per count. -/
def testConfig : MetroConfig :=
  let on (d : Deck) : ChannelParams := { deck := some d, zero := 0, gain := 1048576 }
  { defaultConfig with
    channels := (((defaultConfig.channels.set 0 (on 0)).set 1 (on 0)).set 2 (on 1)).set 3 (on 1)
    window := 10 }

/-- Noon of 5 June 2030. -/
def noon : DateTime := { date := { year := 2030, month := 6, day := 5 }, hour := 12, minute := 0, second := 0 }

/-- A passed audit of 1 June 2030. -/
def testAudit : AuditRecord :=
  { number := 1, date := { year := 2030, month := 6, day := 1 }, counter := 1, checksum := configChecksum testConfig
    passed := true, reasons := { stepFailed := false, coverage := [], noFinalZero := false }
    due := some { year := 2031, month := 6, day := 1 }, steps := [] }

/-- A bridge ready for trade: RUN, zero set, map CERTAIN and empty, configuration valid, calendar set. -/
def ready : State :=
  let r := State.reset
  { r with
    acq := { r.acq with scale := .run, assign := Bank.ofFn testConfig.assign }
    zm := { r.zm with zeroState := .set }
    axle := { r.axle with certain := true, occupancy := .empty }
    cap := { r.cap with entryLamp := .green }
    site := { r.site with classes := r.site.classes.set 0 { defaultClass with inUse := true } }
    store := { r.store with config := testConfig, checksum := configChecksum testConfig, eventCounter := 1
                            audits := [testAudit], auditCounter := 1 }
    metro := { valid := true, switchCal := true
               status := { uncalibrated := false, adjusting := false, auditRequired := false, auditFailed := false
                           auditOverdue := false, timeUnset := false } }
    cal := { r.cal with value := some noon, crystalRunning := true, source := .crystal } }

/-- A sample of `n` counts on every channel. -/
def sample (n : Int) : SampleInput :=
  { raw := Bank.fill 16 (BitVec.ofInt 24 n), senseLow := Bank.fill 4 false, storeOk := true }

/-- The outcome is a next state with a property. -/
def ends (o : Host.Outcome State Fault Refusal) (p : State → Bool) : Bool :=
  match o with
  | .next t => p t
  | _ => false

/-- The outcome is a next state whose newest answer has a status. -/
def replies (o : Host.Outcome State Fault Refusal) (st : Status) : Bool :=
  ends o fun t => t.link.slots.getLast?.map (·.reply.status) == some st

/-- `ready` with something in the operation slot. -/
def withSlot (x : Slot) : State := ready.setCap { ready.cap with slot := x }

/-! ## Single steps -/

theorem test_step_takes_the_front :
    ends (step { ready with pending := [.crystalStop, .crystalRunGap] })
      (fun t => t.pending == [.crystalRunGap] && t.cal.source == .main && t.cal.degraded) = true := by decide +kernel

theorem test_an_empty_queue_idles : step ready = .next ready := rfl

theorem test_sample_event :
    ends (exec (.sampleEvent (sample 150)) ready) (fun t =>
      t.acq.sampleNumber == 1 && t.zm.window.map WindowEntry.total == [600] && t.zm.clock == 1 &&
      t.zm.latest.map LatestResult.result ==
        some (.value [{ deck := 0, mass := 300, substituted := false }, { deck := 1, mass := 300, substituted := false }]
          600 600 .normal)) = true := by decide +kernel

theorem test_overrange_excludes_at_160 :
    let c := { resetChannel with counter := 144, health := .watch }
    ends (exec (.sampleEvent (sample 8300000)) (ready.setAcq { ready.acq with channels := ready.acq.channels.set 0 c }))
      (fun t => (t.acq.channels.get 0).health == .excluded && (t.acq.channels.get 0).counter == 160 &&
        t.acq.faultCapture.isSome &&
        (t.zm.latest.map (·.result.isDeckDown)) == some true) = true := by decide +kernel

theorem test_a_row_not_due_changes_nothing :
    ends (exec (.stuck 0 (sample 0)) ready) (fun t => t.acq == ready.acq && t.zm == ready.zm) = true := by decide +kernel

theorem test_standby_and_wake :
    ends (exec (.enterStandby []) ready) (fun t =>
      t.acq.scale == .standby && !t.acq.excitation && t.cap.entryLamp == .red &&
      t.link.queue == [.scaleState .standby .run, .lampState .red .red] && t.link.tx == some .answer) = true ∧
    ends (exec (.loopChange .entry true true) (ready.setAcq { ready.acq with scale := .standby })) (fun t =>
      t.acq.scale == .warmup && t.acq.warmLength == 250 && t.axle.loopEntry) = true := by decide +kernel

/-- A pairing of 50 ms over 300 mm is 21.6 km/h, SPEED_HIGH (R63). -/
theorem test_axle_enters :
    let l : TreadleLine := { levelA := true, levelB := false, pairing := .openA 1000, code := .none }
    ends (exec (.activation 0 .b 1050 true) (ready.setAxle { ready.axle with lines := ready.axle.lines.set 0 l, timeBase := 1000 }))
      (fun t => t.axle.decks.get 0 == [{ number := 1, entryTime := 1000, entrySpeed := some 216, spacing := none, speedHigh := true, reEntered := false, uncertainBoundary := false }] &&
        t.axle.entered == 1 && t.axle.occupancy == .part && t.cap.entryLamp == .red && t.axle.timeBase == 1050) = true := by
  decide +kernel

/-- A partner stamped at t0 + 900 ms that is taken behind PAIRING_GUARD has a Δt of 900 ms: 1.2 km/h (R59, R61). -/
theorem test_partner_behind_the_guard :
    let l : TreadleLine := { levelA := true, levelB := false, pairing := .openA 1000, code := .none }
    ends (exec (.pairingGuard 0) (ready.setAxle (ready.axle.setLine 0 l))) (fun g =>
      (g.axle.lines.get 0).pairing == .guardA 1000 && g.axle.timeBase == 2000 &&
        ends (exec (.activation 0 .b 1900 true) g) (fun t =>
          (t.axle.decks.get 0).map (fun a => (a.entryTime, a.entrySpeed)) == [(1000, some 12)] &&
            t.axle.timeBase == 2000)) = true := by
  decide +kernel

theorem test_phantom_loses_the_map :
    let l : TreadleLine := { levelA := true, levelB := false, pairing := .openA 1000, code := .none }
    ends (exec (.activation 1 .b 1050 true) (ready.setAxle { ready.axle with lines := ready.axle.lines.set 1 l }))
      (fun t => !t.axle.certain && t.axle.cause == .phantom && (t.axle.lines.get 1).code == .phantom) = true := by
  decide +kernel

theorem test_capture_starts :
    ends (exec (.startCapture [4, 3, 0x41, 0x42, 0x31, 1, 0, 0, 0, 0, 0, 0, 0, 0, 0]) ready) (fun t =>
      t.link.slots.map (·.reply) == [{ status := .accepted, body := .operation 1 }] && t.cap.opCounter == 1 &&
      match t.cap.slot with
      | .capture op => op.state == .awaitingVehicle && op.request.vehicle == [0x41, 0x42, 0x31] && op.timeoutLimit == 2250
      | _ => false) = true ∧
    replies (exec (.startCapture [4, 0, 1, 0, 0, 0, 0, 0, 0, 0, 0, 0]) ready) .badRequest = true := by decide +kernel

theorem test_session_opens_and_stages :
    ends (exec (.openAdjustment []) ready) (fun t => t.cap.slot.isAdjustment && t.metro.status.adjusting && t.cap.entryLamp == .red) = true ∧
    replies (exec (.stageParameter ([2] ++ leBytes 4 80000 ++ [50])) (withSlot (.adjustment { staged := testConfig, idle := 7, calibration := none })))
      .ok = true := by decide +kernel

theorem test_commit :
    ends (exec (.commitAdjustment [] true) (withSlot (.adjustment { staged := { testConfig with maxKg := 80000 }, idle := 0, calibration := none })))
      (fun t => t.store.eventCounter == 2 && t.store.config.maxKg == 80000 && t.cap.slot == .free && t.metro.status.auditRequired &&
        t.zm.zeroState == .pending && !t.axle.certain && t.store.trail.length == 1) = true := by decide +kernel

theorem test_audit_opens :
    ends (exec (.openAudit []) ready) (fun t =>
      match t.cap.slot with
      | .audit x => x.number == 2
      | _ => false) = true := by decide +kernel

theorem test_calendar_set :
    ends (exec (.setCalendar [0xEF, 0x07, 4, 31, 23, 59, 58] true) (ready.setCal { ready.cal with value := none, degraded := true })) (fun t =>
      t.cal.value == some { date := { year := 2031, month := 4, day := 31 }, hour := 23, minute := 59, second := 58 } && !t.cal.degraded && t.store.trail.length == 1) = true ∧
    replies (exec (.setCalendar [0xEE, 0x07, 5, 31, 0, 0, 0] true) ready) .timeBeforeAudit = true := by decide +kernel

theorem test_second_carry :
    ends (exec (.secondCarry []) (ready.setCal { ready.cal with value := some { noon with hour := 23, minute := 59, second := 59 } }))
      (fun t => t.cal.value == some { date := { year := 2030, month := 6, day := 6 }, hour := 0, minute := 0, second := 0 }) = true := by
  decide +kernel

theorem test_answers_in_order :
    replies (exec (.fetchTicket []) ready) .empty = true ∧ replies (exec (.readTransaction [1, 0, 0, 0]) ready) .noSuchTransaction = true ∧
      replies (exec (.cancelOperation [1, 0]) ready) .noSuchEntry = true ∧ replies (exec (.closeAudit [] true) ready) .notInSession = true ∧
      replies (exec (.setZero []) ready) .notReady = true ∧ replies (exec (.readChannel [17]) ready) .badRequest = true := by decide +kernel

/-! ## What the statements' hypotheses are met by

One theorem for each statement with hypotheses; the values stand at the edges of its clauses. -/

/-- An idle adjustment session. -/
def session : AdjustSession := { staged := testConfig, idle := 7, calibration := none }

/-- A calibration of deck 1 in flight. -/
def calibrating : Calibration := { kind := .zero, deck := 0, load := 1, limit := 250, count := 249, window := [] }

/-- An audit session without steps. -/
def auditing : AuditSession := { number := 2, steps := [], idle := 7, flight := none }

/-- A step of the whole bridge in flight. -/
def inFlight : StepFlight := { kind := .load, target := .bridge, load := 1000, refIndex := 0, count := 249, limit := 250 }

/-- The identifier A1. -/
def plate : Text := [0x41, 0x31]

/-- A SECOND on transaction 1. -/
def secondRequest : CaptureRequest :=
  { kind := .second, vehicle := plate, cls := 1, txKind := none, commodity := 0, grade := none, txNumber := 1
    allowComposite := false, acceptIncomplete := true }

/-- An operation that waits for its vehicle, one sample from its timeout. -/
def waiting : Operation :=
  { number := 1, request := secondRequest, profile := .one, timeoutLimit := 250, timeoutCount := 249
    state := .awaitingVehicle, mode := .whole, positions := 0, credited := [] }

/-- Flags of an ordinary weighing. -/
def plainFlags : CaptureFlags :=
  { overMax := false, belowMin := false, substituted := false, composite := false, positions := 0, degraded := false }

/-- An entry of the open transaction table. -/
def entry (n : Nat) (v : Text) (k : TxKind) : OpenEntry :=
  { number := n, kind := k, vehicle := v, cls := 1, commodity := 0, grade := none, state := .standing, stale := false
    first := { gross := 400000, stamp := some noon, counter := 1, checksum := 0, flags := plainFlags
               verdict := .compliant, groups := [] } }

/-- A stored tare. -/
def tare (v : Text) : StoredTare := { vehicle := v, mass := 150000, date := noon.date, counter := 1 }

/-- A ticket with a number. -/
def ticket (n : Nat) : Ticket :=
  { number := n, tx := 1, kind := .receival, vehicle := plate, cls := 1, commodity := 0, grade := none
    first := { gross := 400000, stamp := .stamp noon, counter := 1 }
    second := { gross := 150000, stamp := .stamp noon, counter := 1 }
    tareSource := .weighed, net := 250000
    reasons := { status := ready.metro.status, mixedCalibration := false, composite := false, substituted := false
                 overMax := false, belowMin := false, reversed := false }
    stale := false, degraded := false, verdict := .compliant
    incomplete := { mapUncertain := false, tooManyGroups := false, deckLoadWithoutAxle := false
                    groupUnresolved := false, groupUncertain := false, classMismatch := false }
    groups := [], counter := 1, checksum := 0 }

/-- An axle with a number. -/
def axle (n : Nat) : Axle :=
  { number := n, entryTime := 1000 * n, entrySpeed := some 50, spacing := if n = 1 then none else some 200
    speedHigh := false, reEntered := false, uncertainBoundary := false }

/-- A store with two tickets, an entry and a stored tare. -/
def fullStore : Store :=
  { ready.store with
    entries := [entry 1 plate .receival], txCounter := 1, tickets := [ticket 1, ticket 2], ticketCounter := 2
    tares := ready.store.tares.set 3 (some (tare plate)) }

/-- `ready` with that store, a vehicle of three axles on the bridge, and a SECOND active. -/
def busyState : State :=
  let s := withSlot (.capture waiting)
  { s with
    store := fullStore
    tm := { reserved := 1, storeFault := false }
    axle := { s.axle with decks := (s.axle.decks.set 0 [axle 3]).set 1 [axle 1, axle 2], entered := 3, occupancy := .part }
    cap := { s.cap with entryLamp := .red } }

/-- Another line state. -/
def withLine (i : LineNo) (l : TreadleLine) (s : State) : State :=
  s.setAxle { s.axle with lines := s.axle.lines.set i l, timeBase := 1000 }

/-- A line with A ACTIVE and a pairing. -/
def paired (p : Pairing) : TreadleLine := { levelA := true, levelB := false, pairing := p, code := .none }

/-- A line with B ACTIVE and a pairing. -/
def pairedB (p : Pairing) : TreadleLine := { levelA := false, levelB := true, pairing := p, code := .none }

/-- An answer. -/
def someAnswer : Answer := { kind := 0x81, reply := { status := .ok, body := .none } }

theorem busy_tares : ∀ (i : Fin 128) (a : StoredTare), busyState.store.tares.get i = some a → i = 3 := by
  have h : ∀ i : Fin 128, (busyState.store.tares.get i).isSome = true → i = 3 := by decide +kernel
  intro i a ha
  exact h i (by rw [ha]; rfl)

/-- Nine laws hold of a full state, whose steps answer next states. -/
theorem wit_laws :
    LinkLaw busyState ∧ AxleLaw busyState ∧ TableLaw busyState ∧ TicketLaw busyState ∧ ReservationLaw busyState ∧
      StatusLaw busyState ∧ CalendarLaw busyState ∧ SettingsLaw busyState ∧ LampLaw busyState ∧
      ∃ t, step { busyState with pending := [.identify []] } = .next t := by
  refine ⟨?_, ?_, ?_, ?_, ?_, ?_, ?_, ?_, ?_, ⟨_, rfl⟩⟩
  · unfold LinkLaw; decide +kernel
  · unfold AxleLaw AxleMap.lawful; decide +kernel
  · refine ⟨⟨by decide +kernel, by decide +kernel, ?_⟩, ?_⟩
    · intro i j a b ha hb _
      rw [busy_tares i a ha, busy_tares j b hb]
    · intro op h ho
      cases h
      exact absurd ho (by decide)
  · unfold TicketLaw Store.ticketsLawful; decide +kernel
  · refine ⟨by decide, by decide, fun op h _ => ?_⟩
    cases h
    rfl
  · intro _; decide +kernel
  · intro t r ht hr
    cases ht
    cases hr
    decide
  · unfold SettingsLaw; decide +kernel
  · intro _; decide +kernel

/-- StepTakesFront. -/
theorem wit_step : ({ ready with pending := [.crystalStop] } : State).pending = [.crystalStop] ∧ ready.pending = [] :=
  ⟨rfl, rfl⟩

/-- EventCounterRaised: both of its cases come about. -/
theorem wit_eventCounter :
    ends (exec (.commitAdjustment [] true) (withSlot (.adjustment session))) (fun t => t.store.eventCounter == 2) = true ∧
      ends (exec .crystalStop ready) (fun t => t.store.eventCounter == 1) = true := by decide +kernel

/-- FrameRoundTrip. -/
theorem wit_frame :
    Instr.frame? (.releaseTicket [1, 0, 0, 0] false) = some (0x47, [1, 0, 0, 0]) ∧
      Instr.wellFormed (.releaseTicket [1, 0, 0, 0] false) = true ∧
      Instr.frame? (.unknownRequest 0x7F []) = some (0x7F, []) ∧ Instr.wellFormed (.unknownRequest 0x7F []) = true ∧
      Instr.wellFormed (.identify (List.replicate 1024 0)) = true ∧ (0xA5 : Byte) ∉ ([0x00, 0xFF] : List Byte) := by
  decide +kernel

/-- FramesTurnedDown: slots held, payloads that do not match. -/
theorem wit_heldSlots :
    (ready.setLink { ready.link with slots := [someAnswer] }).link.slots = [someAnswer] ∧
      (ready.setLink { ready.link with slots := [someAnswer, someAnswer] }).link.slots = [someAnswer, someAnswer] ∧
      payloadReads (.identify [0]) = false ∧ payloadReads (.readChannel []) = false ∧
      payloadReads (.setNoticeMask [0, 0, 0, 0, 2] true) = false ∧ namesRequest 0x71 = true ∧ namesRequest 0x7F = false ∧
      State.ready ready := ⟨rfl, rfl, by decide, by decide, by decide, by decide, by decide, rfl, rfl⟩

/-- FramesTurnedDown: a length and a CRC that do not hold. -/
theorem wit_brokenFrames : 1024 < (1025#16).toNat ∧ (0#16) ≠ frameCrc 1 [] := by decide +kernel

/-- A notice. -/
def someNotice : Notice := .storeWatermark

/-- NoticesAndTransmission: a disabled kind, room for one more, none, and every state of the transmitter. -/
theorem wit_notices :
    let l := ready.link
    (({ l with mask := 0 } : Link).mask.getLsbD someNotice.code = false) ∧ l.mask.getLsbD someNotice.code = true ∧
      ({ l with queue := List.replicate 15 someNotice } : Link).queue.length < 16 ∧
      16 ≤ ({ l with queue := List.replicate 16 someNotice } : Link).queue.length ∧
      someAnswer.asksReset = false ∧
      (∃ s : State, s.mainSupply = true ∧ s.link.tx = some (.notice someNotice) ∧ s.link.slots = [someAnswer]) ∧
      (∃ s : State, s.mainSupply = true ∧ s.link.tx = some (.notice someNotice) ∧ s.link.slots = [] ∧
        s.link.queue = [someNotice]) ∧
      (∃ s : State, s.mainSupply = true ∧ s.link.tx = some .answer ∧ s.link.slots = [someAnswer, someAnswer]) ∧
      (∃ s : State, s.mainSupply = true ∧ s.link.tx = some .answer ∧ s.link.slots = [someAnswer] ∧ s.link.queue = []) :=
  ⟨by decide, by decide, by decide, by decide, by decide,
    ⟨ready.setLink { ready.link with tx := some (.notice someNotice), slots := [someAnswer] }, rfl, rfl, rfl⟩,
    ⟨ready.setLink { ready.link with tx := some (.notice someNotice), queue := [someNotice] }, rfl, rfl, rfl, rfl⟩,
    ⟨ready.setLink { ready.link with tx := some .answer, slots := [someAnswer, someAnswer] }, rfl, rfl, rfl⟩,
    ⟨ready.setLink { ready.link with tx := some .answer, slots := [someAnswer] }, rfl, rfl, rfl, rfl⟩⟩

/-- WarmResetAndNoticeMask: the answer that asks for a reset. -/
theorem wit_warmReset :
    ∃ s : State, s.mainSupply = true ∧ s.link.tx = some .answer ∧
      s.link.slots = [{ kind := 0x83, reply := { status := .ok, body := .none } }, someAnswer] :=
  ⟨ready.setLink
    { ready.link with
      tx := some .answer
      slots := [{ kind := 0x83, reply := { status := .ok, body := .none } }, someAnswer] }, rfl, rfl, rfl⟩

/-- WarmResetAndNoticeMask: bit 9, bit 31 and a mask without them, with and without the flag. -/
theorem wit_noticeMask :
    parseNoticeMask [0, 2, 0, 0, 0] = some (0x200#32, false) ∧ (0x200#32).getLsbD 9 = true ∧
      parseNoticeMask [0, 0, 0, 0x80, 1] = some (0x80000000#32, true) ∧ (0x80000000#32).getLsbD 31 = true ∧
      parseNoticeMask [0xFF, 0xFD, 0xFF, 0x7F, 1] = some (fullMask, true) ∧ fullMask.getLsbD 9 = false ∧
      fullMask.getLsbD 31 = false := by decide +kernel

/-- The resets act under supply; the power-on events on any state. -/
theorem wit_resets (i : ResetInputs) :
    ready.mainSupply = true ∧ (∃ t, exec (.coldStart i) ready = .next t) ∧ (∃ t, exec (.powerOnReset i) ready = .next t) ∧
      ∃ t, exec (.resetLine i) ready = .next t := ⟨rfl, ⟨_, rfl⟩, ⟨_, rfl⟩, ⟨_, rfl⟩⟩

/-- A channel in `ready` changed. -/
def withChannel (c : Channel) : State := ready.setAcq { ready.acq with channels := ready.acq.channels.set 0 c }

/-- SampleTaken: channel 1 is on a deck, channel 5 is not; the three scale states; a session, a valid configuration and
one that is not. -/
theorem wit_sample :
    ready.assignmentDue 0 = some 0 ∧ ready.assignmentDue 4 = none ∧ ready.metro.valid = true ∧
      (∀ x, ready.cap.slot ≠ .adjustment x) ∧ (withSlot (.adjustment session)).cap.slot = .adjustment session ∧
      State.reset.metro.valid = false ∧ (∀ x, State.reset.cap.slot ≠ .adjustment x) ∧ ready.acq.scale = .run ∧
      (ready.setAcq { ready.acq with scale := .standby }).acq.scale = .standby ∧
      (ready.setAcq { ready.acq with scale := .warmup }).acq.scale ≠ .run := by
  refine ⟨by decide +kernel, by decide +kernel, rfl, (by intro x h; cases h), rfl, rfl, (by intro x h; cases h), rfl, rfl, ?_⟩
  decide

/-- FaultsOfASample: the counters on both sides of 80 and of 160, and the two states out of the weighing. -/
theorem wit_faulted :
    ∀ c ∈ [{ resetChannel with counter := 63 }, { resetChannel with counter := 64 },
        { resetChannel with counter := 143, health := .watch }, { resetChannel with counter := 144, health := .watch },
        { resetChannel with health := .recovering }, { resetChannel with health := .excluded }],
      (withChannel c).acq.scale = .run ∧ (withChannel c).assignmentDue 0 = some 0 ∧
        channelFault (withChannel c).assignmentDue (withChannel c).acq.spikeLimit (withChannel c).acq.channels
          (sample 8300000) 0 = some .overrange := by decide +kernel

/-- FaultsOfASample: each condition alone, at its edge, and none. -/
theorem wit_faultOrder :
    let before : Channel := { resetChannel with raw := some 100, evaluated := true, stuckRun := 99 }
    let s := withChannel before
    let f := fun inp => channelFault s.assignmentDue s.acq.spikeLimit s.acq.channels inp 0
    f { sample 100 with senseLow := Bank.fill 4 true } = some .senseLost ∧ f (sample 8300000) = some .overrange ∧
      f (sample 100) = some .stuck ∧ f (sample 101) = none ∧
      (let quiet : Channel := { resetChannel with raw := some 0, evaluated := true, stuckRun := 1 }
       let q := (ready.setAcq { ready.acq with channels := Bank.fill 16 quiet })
       let jump : SampleInput := { sample 1 with raw := (Bank.fill 16 1#24).set 0 200000#24 }
       channelFault q.assignmentDue q.acq.spikeLimit q.acq.channels jump 0 = some .spike) := by decide +kernel

/-- ChannelCountRows. -/
theorem wit_channelRows :
    let stuck : Channel := { resetChannel with raw := some 100, evaluated := true, stuckRun := 99 }
    let clean : Channel := { resetChannel with raw := some 99, evaluated := true, cleanRun := 24, counter := 80, health := .watch }
    let back : Channel :=
      { resetChannel with raw := some 99, evaluated := true, cleanRun := 24, recovery := 63, health := .recovering
                          counter := 160, cause := some .manual }
    (∀ c ∈ [stuck, clean, back], (withChannel c).assignmentDue 0 = some 0) ∧
      (∀ c ∈ [clean, { clean with counter := 0, health := .good }, back],
        channelFault (withChannel c).assignmentDue (withChannel c).acq.spikeLimit (withChannel c).acq.channels (sample 100) 0 = none) ∧
      (sample 100).raw.get 0 = 100#24 ∧ (sample 100).senseLow.get 0 = false := by decide +kernel

/-- ScaleStates. -/
theorem wit_scaleStates :
    (ready.setAcq { ready.acq with scale := .warmup, warmCount := 249, warmLength := 250 }).acq.warmCount + 1 = 250 ∧
      ready.acq.scale = .run ∧ ready.cap.slot = .free ∧ ready.axle.occupancy = .empty ∧
      busyState.cap.slot ≠ .free ∧ (ready.setAxle { ready.axle with occupancy := .part }).axle.occupancy ≠ .empty := by
  decide +kernel

/-- ChannelRequests, OperationRequests: both ends of each range, and the values beside them. -/
theorem wit_limits :
    [leBytes 4 999, leBytes 4 1000, leBytes 4 1000000, leBytes 4 1000001].map (parseNat 4) =
        [some 999, some 1000, some 1000000, some 1000001] ∧
      [leBytes 1 4, leBytes 1 5, leBytes 1 120, leBytes 1 121].map (parseNat 1) =
        [some 4, some 5, some 120, some 121] ∧
      parseNat 2 [1, 0] = some waiting.number ∧ parseNat 2 [2, 0] = some 2 ∧ busyState.cap.slot = .capture waiting :=
  ⟨by decide, by decide, by decide, by decide, rfl⟩

/-- ChannelRequests: the numbers at the edges of 1 to 16, and a fault capture. -/
theorem wit_channelNumbers :
    [[0], [1], [16], [17]].map (parseNat 1) = [some 0, some 1, some 16, some 17] ∧
      (∀ h : Health, (withChannel { resetChannel with health := h }).link.slots = []) ∧
      ready.acq.faultCapture = none ∧
      (∃ f, (ready.setAcq { ready.acq with faultCapture := some f }).acq.faultCapture = some f) := by
  refine ⟨by decide, fun _ => rfl, rfl, ⟨{ channel := 0, kind := .spike, raw := 5, sampleNumber := 1, stamp := none, more := false }, rfl⟩⟩

/-- RoundingAndZones: the table's conditions at their edges, with e = 20 kg and Max = 60,000 kg. -/
theorem wit_zones :
    let c := testConfig
    0 < c.eKg ∧ c.q = 50 ∧ (50 : Int).natAbs ≤ c.q ∧ c.q < (51 : Int).natAbs ∧
      roundTo c.eHg (-4100) < -(20 * c.eHg : Nat) ∧ -(20 * c.eHg : Nat) ≤ roundTo c.eHg (-4099) ∧
      roundTo c.eHg 600000 ≤ (c.maxHg : Int) ∧ (c.maxHg : Int) < roundTo c.eHg 600100 ∧
      roundTo c.eHg 601899 ≤ (c.maxHg + 9 * c.eHg : Nat) ∧ ((c.maxHg + 9 * c.eHg : Nat) : Int) < roundTo c.eHg 601900 ∧
      2 * (5 - 2 * roundDiv 5 2 : Int).natAbs = 2 := by decide +kernel

/-- LinearityByTable: a table of two points, loads before, at, between and beyond them. -/
theorem wit_linearity :
    let table : List LinPoint := [{ load := 100, correction := 1 }, { load := 300, correction := -2 }]
    table.Pairwise (fun p q => p.load < q.load) ∧ (∀ p ∈ table, 0 < p.load) ∧
      table = [] ++ { load := 100, correction := 1 } :: { load := 300, correction := -2 } :: [] ∧
      table = [{ load := 100, correction := 1 }] ++ [{ load := 300, correction := -2 }] := by decide

/-- SampleResultFormed: a deck of two included channels, and one of them excluded. -/
theorem wit_sampleResult :
    testConfig.activeDecks = [0, 1] ∧
      (∀ d ∈ testConfig.activeDecks,
        2 ≤ ((allChans.filter fun i => decide ((testConfig.channels.get i).deck = some d)).filter fun _ =>
          decide (Health.good = .good ∨ Health.good = .watch)).length) ∧
      ((allChans.filter fun i => decide ((testConfig.channels.get i).deck = some 0)).filter fun i =>
        decide ((if i = 0 then Health.excluded else .good) = .good ∨ (if i = 0 then Health.excluded else .good) = .watch)).length < 2 := by
  decide +kernel

/-- A window of `n` equal entries. -/
def steady (n : Nat) (mass : Int) : List WindowEntry :=
  List.replicate n { total := 2 * mass
                     decks := [{ deck := 0, mass := mass, substituted := false }, { deck := 1, mass := mass, substituted := false }]
                     sampleNumber := 1 }

/-- A latest result in VALUE. -/
def atRest (mass : Int) : LatestResult :=
  { result := .value [{ deck := 0, mass := mass, substituted := false }, { deck := 1, mass := mass, substituted := false }]
      (2 * mass) 0 .centreZero
    sampleNumber := 1, eHg := 200 }

/-- `ready` at rest with a full window. -/
def stillState (mass : Int) (z : ZeroState) : State :=
  ready.setZm { ready.zm with
    zeroState := z, window := steady 10 mass, latest := some (atRest mass)
    decisions := { profile1 := true, profile2 := true, zeroBand := true } }

/-- SetZeroActs: every check, and both ranges met and passed. Max/N is 300,000 hg: Li is 30,000 and Lz 6,000. -/
theorem wit_setZero :
    latestIsValue ready = false ∧ latestIsValue (stillState 0 .set) = true ∧
      (∀ m ∈ [6000, -6000], ∀ d ∈ testConfig.activeDecks,
        (windowMean (stillState m .set).zm.window d + 0 - 0).natAbs ≤ testConfig.trackingRange) ∧
      ¬((windowMean (stillState 6001 .set).zm.window 0).natAbs ≤ testConfig.trackingRange) ∧
      (∀ d ∈ testConfig.activeDecks,
        (windowMean (stillState 30000 .pending).zm.window d).natAbs ≤ testConfig.initialRange) ∧
      ¬((windowMean (stillState 30001 .pending).zm.window 0).natAbs ≤ testConfig.initialRange) ∧
      (stillState 0 .set).acq.scale = .run ∧ (stillState 0 .set).axle.occupancy = .empty ∧
      (stillState 0 .set).cap.slot = .free := by decide +kernel

/-- `ready` one sample before a tracking step: the deck offsets at `x`, nine entries of `m` in the window. -/
def trackState (x m : Int) : State :=
  ready.setZm { ready.zm with
    window := steady 9 m, trackCount := 49, offset := Bank.fill 4 x, halt := (Bank.fill 4 false).set 1 true }

/-- TrackingStepRow: the moved offset inside the tracking range of 6,000 hg, past its upper and past its lower edge; deck 2
is halted, deck 3 not active. -/
theorem wit_tracking :
    ∀ p ∈ [((0 : Int), (10 : Int), (5 : Int), (10 : Int)), (5995, 10, 3002, 6005), (-5995, -10, -3002, -6005)],
      let s := trackState p.1 p.2.1
      let mass := 2 * p.2.2.1 - p.1
      let a := acquire (sample p.2.2.1) (Ev.start s)
      let decks : List DeckMass :=
        [{ deck := 0, mass := mass, substituted := false }, { deck := 1, mass := mass, substituted := false }]
      let w := pushWindow testConfig.window a.ev.st.zm.window
        { total := 2 * mass, decks := decks, sampleNumber := s.acq.sampleNumber + 1 }
      formedResult a.ev.st a.value = .value decks (2 * mass) 0 .centreZero ∧
        testConfig.zeroTracking = true ∧ s.zm.zeroState = .set ∧ s.axle.occupancy = .empty ∧ s.axle.certain = true ∧
        s.cap.slot = .free ∧ stableUnder testConfig.window (2 * testConfig.q) (w.map WindowEntry.total) = true ∧
        (∀ m ∈ decks, m.mass.natAbs ≤ 2 * testConfig.q) ∧ s.zm.trackCount = 49 ∧
        s.zm.offset.get 0 + clamp testConfig.q (windowMean w 0) = p.2.2.2 ∧ testConfig.trackingRange = 6000 ∧
        s.zm.halt.get 0 = false ∧ s.zm.halt.get 1 = true := by decide +kernel

/-- ElementRows, PairingRows, CrossingApplied: every pairing state on a decoded and on an undecoded line, and stamps at the
last moment of a pairing and just after it. -/
theorem wit_elements :
    (∀ l : LineNo, (ready.axle.lines.get l).level .a = false) ∧ ready.decoded 2 = true ∧ ready.decoded 3 = false ∧
      (∀ p ∈ [Pairing.openA 1000, .guardA 1000], ((withLine 1 (paired p) ready).axle.lines.get 1).level .b = false ∧
        ((withLine 1 (paired p) ready).axle.lines.get 1).pairing = p ∧ (withLine 1 (paired p) ready).decoded 1 = true) ∧
      (∀ p ∈ [Pairing.openB 1000, .guardB 1000], ((withLine 1 (pairedB p) ready).axle.lines.get 1).level .a = false ∧
        ((withLine 1 (pairedB p) ready).axle.lines.get 1).pairing = p) ∧
      (1000 : Nat) + 1000 < 2001 ∧ (2000 : Nat) ≤ 1000 + 1000 ∧
      ((withLine 1 { levelA := false, levelB := false, pairing := .openA 1000, code := .none } ready).axle.lines.get 1).level .a = false := by
  decide +kernel

/-- CrossingApplied: the lists and counts of its clauses, on two decks. -/
theorem wit_crossings :
    let s := busyState.axle
    testConfig.deckCount = 2 ∧ s.decks.get 0 = [] ++ [axle 3] ∧ s.decks.get 1 = axle 1 :: [axle 2] ∧
      s.decks.get 1 = [axle 1] ++ [axle 2] ∧ s.isEmpty = false ∧ s.certain = true ∧ s.entryComplete = false ∧ s.entered < 24 ∧
      24 ≤ ({ s with entered := 24 } : AxleMap).entered ∧ ready.axle.decks.get 0 = [] ∧ ready.axle.decks.get 1 = [] ∧
      (1 : LineNo).val = (0 : Deck).val + 1 ∧ (2 : LineNo).val = (1 : Deck).val + 1 ∧
      ({ s with entryComplete := true } : AxleMap).entryComplete = true := by decide +kernel

/-- LoopChangeRow: both loops, both directions, a vehicle entered, and a map left empty behind it. -/
theorem wit_loops :
    let on := ready.setAxle { ready.axle with loopEntry := true, loopExit := true, entered := 3, exitedCount := 3, exited := [axle 1, axle 2, axle 3] }
    let one := busyState.setAxle { busyState.axle with loopEntry := true }
    ready.axle.loopEntry ≠ true ∧ ready.axle.loopExit ≠ true ∧ on.axle.loopEntry ≠ false ∧ on.axle.isEmpty = true ∧
      one.axle.loopEntry ≠ false ∧ one.axle.certain = true ∧ 1 ≤ one.axle.entered ∧ one.axle.isEmpty = false := by
  decide +kernel

/-- MapCountRows: a load of just over 20e on an empty CERTAIN map, and one of exactly 20e on an UNCERTAIN one. -/
theorem wit_mapCounts :
    let h := ready.setAxle { ready.axle with hiddenCount := 49 }
    let m := ready.setAxle { ready.axle with certain := false, recoveryCount := 49 }
    let formed := fun (n : Int) (s : State) => let a := acquire (sample n) (Ev.start s); formedResult a.ev.st a.value
    (∃ decks g z, formed 1001 h = .value decks 4004 g z) ∧ 20 * testConfig.eHg < (4004 : Int).natAbs ∧
      (∃ decks g z, formed 1000 m = .value decks 4000 g z) ∧ (4000 : Int).natAbs ≤ 20 * testConfig.eHg ∧
      h.axle.loopEntry = false ∧ h.axle.loopExit = false ∧ ∀ d, h.axle.decks.get d = [] := by
  refine ⟨⟨_, _, _, rfl⟩, by decide +kernel, ⟨_, _, _, rfl⟩, by decide +kernel, rfl, rfl, by decide +kernel⟩

/-- SiteSettingsWritten: each setting at both ends of its range and beside them. -/
theorem wit_settings :
    parseTreadle [100, 0, 2, 180, 0] = some { separation := 100, filterTime := 2, groupGap := 180 } ∧
      parseTreadle [0xF4, 1, 30, 0x2C, 1] = some { separation := 500, filterTime := 30, groupGap := 300 } ∧
      (parseTreadle [99, 0, 2, 180, 0]).isSome = true ∧
      (parseLimits (leBytes 2 1000 ++ leBytes 2 60000 ++ leBytes 2 1000 ++ leBytes 2 1000 ++ leBytes 2 1000 ++ leBytes 2 1000)).isSome = true ∧
      (parseLimits (leBytes 2 999 ++ leBytes 2 60001 ++ leBytes 2 1000 ++ leBytes 2 1000 ++ leBytes 2 1000 ++ leBytes 2 1000)).isSome = true ∧
      parseClass ([32, 1] ++ leBytes 4 250000 ++ [24, 2]) =
        some { cls := 32, inUse := true, grossLimit := 250000, maxAxles := 24, profile := 2 } ∧
      parseClass ([1, 0] ++ leBytes 4 1000 ++ [2, 1]) =
        some { cls := 1, inUse := false, grossLimit := 1000, maxAxles := 2, profile := 1 } ∧
      (parseClass ([33, 1] ++ leBytes 4 250001 ++ [25, 3])).isSome = true ∧
      parseTicketSettings [1, 1, 0, 1, 0] = some { watermark := 1, tareValidity := 1, staleness := 1 } ∧
      parseTicketSettings ([32] ++ leBytes 2 365 ++ leBytes 2 720) = some { watermark := 32, tareValidity := 365, staleness := 720 } ∧
      (parseTicketSettings [33, 1, 0, 1, 0]).isSome = true ∧ waiting.request.cls = 1 := by decide +kernel

/-- GroupsFormed: a spacing at the group gap, one beyond it and an absent one. -/
theorem wit_groups :
    let place := fun (n : Nat) (sp : Option Nat) => ({ axle := { axle n with spacing := sp }, place := some 0 } : PlacedAxle)
    (walk 250 [place 1 none, place 2 (some 250), place 3 (some 251), place 4 none]).map (fun g => (g.axles.length, g.front, g.rear)) =
      [(2, false, false), (1, false, true), (1, true, false)] ∧
      (formGroups busyState.axle 250 defaultLimits).map (fun g => (g.number, g.axleCount)) = [(1, 3)] := by decide +kernel

/-- Nothing judged. -/
def unjudged : Judged := { groups := [], components := [], tooMany := false, deckLoads := [] }

/-- VerdictDecided: a mass at its limit and one step over it. -/
theorem wit_verdict :
    compareKg 9000 9000 = .within ∧ compareKg 9020 9000 = .overBy 20 ∧
      (wholeVerdict busyState.axle unjudged 1 { defaultClass with maxAxles := 3 } 42500).vehicle = .compliant ∧
      (wholeVerdict busyState.axle unjudged 1 { defaultClass with maxAxles := 2 } 42500).vehicle = .incomplete ∧
      (wholeVerdict busyState.axle unjudged 1 defaultClass 42501).vehicle = .overloaded := by decide +kernel

/-- The fields of a Start Capture of A1 in class 1. -/
def fields (kind : Nat) : CaptureFields :=
  { kind := kind, vehicle := plate, cls := 1, txKind := 0, commodity := 0, grade := none, txNumber := 1, flags := 0 }

/-- StartCaptureDecided: the payloads, the fields at their edges, and a state for each check. -/
theorem wit_startCapture :
    (∀ k ∈ [0, 1, 2, 3, 4, 5], parseCapture ([BitVec.ofNat 8 k, 2, 0x41, 0x31, 1, 0, 0, 0, 0, 1, 0, 0, 0, 0]) = some (fields k)) ∧
      (∀ k ∈ [0, 1, 2, 3, 4], (fields k).request.map CaptureRequest.kind = captureKindOf k ∧ (fields k).request.isSome = true) ∧
      (∀ f ∈ [fields 5, { fields 0 with vehicle := [] }, { fields 0 with vehicle := List.replicate 13 0x41 },
          { fields 0 with vehicle := [0x61] }, { fields 0 with cls := 0 }, { fields 0 with cls := 33 },
          { fields 0 with commodity := 1000 }, { fields 2 with grade := some (List.replicate 7 0x41) },
          { fields 0 with txKind := 2 }, { fields 3 with flags := 1 }], f.request = none) ∧
      (∀ f ∈ [{ fields 0 with vehicle := List.replicate 12 0x5A }, { fields 0 with commodity := 999 },
          { fields 2 with grade := some (List.replicate 6 0x41) }, { fields 0 with txKind := 1 }, { fields 0 with cls := 32 }],
        f.request.isSome = true) ∧
      (ready.site.classes.get 0).inUse = true ∧ (ready.site.classes.get 1).inUse = false ∧ ready.cap.slot = .free ∧
      latestIsDeckDown ready = false ∧
      latestIsDeckDown (ready.setZm { ready.zm with latest := some { result := .deckDown [], sampleNumber := 1, eHg := 200 } }) = true ∧
      fullStore.entry 1 = some (entry 1 plate .receival) ∧ fullStore.entry 2 = none ∧
      fullStore.hasVehicle plate = true ∧ fullStore.hasVehicle [0x42] = false ∧
      64 ≤ (List.replicate 64 (entry 1 plate .receival)).length ∧ (List.replicate 63 (entry 1 plate .receival)).length < 64 ∧
      4294967295 ≤ lastNumber ∧ ¬(4294967295 ≤ (4294967294 : Nat)) ∧ 32 - (List.replicate 32 (ticket 1)).length - 0 = 0 ∧
      32 - (List.replicate 31 (ticket 1)).length - 0 ≠ 0 ∧ ready.metro.status.tradeReady = true ∧
      ({ ready.metro.status with auditOverdue := true } : StatusReasons).tradeReady = false := by decide +kernel

/-- A verdict. -/
def verdict (v : VehicleVerdict) : Verdict :=
  { makeVerdict { mapUncertain := false, tooManyGroups := false, deckLoadWithoutAxle := false, groupUnresolved := false
                  groupUncertain := false, classMismatch := false } 1 defaultClass 3 15000 [] [] [] with vehicle := v }

/-- A capture's result for a request. -/
def result (r : CaptureRequest) (v : VehicleVerdict) : CaptureResult :=
  { operation := 1, request := r, gross := 150000, deckMeans := [], flags := plainFlags, stamp := some noon
    status := ready.metro.status, counter := 1, checksum := 0, verdict := verdict v, outcome := .checked }

/-- CompletionsRecorded: a FIRST, and a SECOND in each row of its table. -/
theorem wit_completions :
    let first : CaptureRequest := { secondRequest with kind := .first, txKind := some .outturn }
    (result first .compliant).request.kind = .first ∧ (result first .compliant).request.txKind = some .outturn ∧
      busyState.tm.storeFault = false ∧ busyState.store.entry (result secondRequest .compliant).request.txNumber = some (entry 1 plate .receival) ∧
      (∀ k ∈ [TxKind.receival, .outturn], ∀ v ∈ [VehicleVerdict.compliant, .incomplete, .overloaded], ∀ acc ∈ [true, false],
        ((completeKind true (result { secondRequest with acceptIncomplete := acc } v)
            (Ev.start (busyState.setStore { fullStore with entries := [entry 1 plate k] }))).1.st.store.tickets.length = 3 ↔
          (k = .receival ∨ v = .compliant ∨ v = .incomplete ∧ acc = true))) ∧
      (completeKind true (result secondRequest .compliant) (Ev.start busyState)).2 = some (.ticketIssued 3 1) ∧
      (completeKind false (result secondRequest .compliant) (Ev.start busyState)).2 = none ∧
      (tradeReasons ready.metro.status (result secondRequest .compliant).facts (entry 1 plate .receival).first.facts 0).list.any id = false := by
  decide +kernel

/-- AdjustmentOpenedAndEnded, StagedAndCalibrated: the slot in each of its states, the switch in both positions. -/
theorem wit_adjustment :
    ready.metro.switchCal = true ∧ (ready.setMetro { ready.metro with switchCal := false }).metro.switchCal = false ∧
      ready.cap.slot = .free ∧ busyState.cap.slot = .capture waiting ∧
      (withSlot (.adjustment session)).cap.slot = .adjustment session ∧ (withSlot (.audit auditing)).cap.slot = .audit auditing ∧
      (∀ x, ready.cap.slot ≠ .adjustment x) ∧ State.ready (withSlot (.adjustment session)) ∧ session.calibration = none ∧
      ({ session with calibration := some calibrating } : AdjustSession).calibration ≠ none :=
  ⟨rfl, rfl, rfl, rfl, rfl, rfl, (by intro x h; cases h), ⟨rfl, rfl⟩, rfl, by decide⟩

/-- StagedAndCalibrated: every parameter at both ends of its range and beside them. -/
theorem wit_stage :
    parseStage ([2] ++ leBytes 4 20000 ++ [5]) = some (.scale 20000 5) ∧
      parseStage ([2] ++ leBytes 4 200001 ++ [50]) = some (.scale 200001 50) ∧
      parseStage [4, 10, 1, 3] = some (.window 10 1 3) ∧ parseStage [4, 50, 2, 4] = some (.window 50 2 4) ∧
      parseStage ([0, 16, 4] ++ signedBytes 3 (-8388608) ++ leBytes 3 16777215) = some (.channel 16 4 (-8388608) 16777215) ∧
      parseStage ([0, 1, 0] ++ signedBytes 3 8388607 ++ leBytes 3 1) = some (.channel 1 0 8388607 1) ∧
      parseStage ([0, 17, 5] ++ signedBytes 3 0 ++ leBytes 3 0) = some (.channel 17 5 0 0) ∧
      applyStage testConfig (.audit 0 []) = none ∧ (applyStage testConfig (.scale 20000 5)).isSome = true := by decide +kernel

/-- StagedAndCalibrated: the calibration requests' loads and decks at their edges, and the deck's channels in order. -/
theorem wit_calibrate :
    parseNat 1 [1] = some 1 ∧ parseNat 1 [0] = some 0 ∧ parseNat 1 [5] = some 5 ∧
      parseDeckLoad ([1] ++ leBytes 4 1) = some (1, 1) ∧ parseDeckLoad ([2] ++ leBytes 4 200000) = some (2, 200000) ∧
      parseDeckLoad ([1] ++ leBytes 4 0) = some (1, 0) ∧ parseDeckLoad ([4] ++ leBytes 4 200001) = some (4, 200001) ∧
      (allChans.filter fun j => testConfig.assign j = some 0) = [0, 1] ∧
      (allChans.filter fun j => testConfig.assign j = some 2) = [] ∧
      (∀ j ∈ [(0 : Chan), 1], (ready.acq.channels.get j).health = .good) ∧
      ((withChannel { resetChannel with health := .recovering }).acq.channels.get 0).health = .recovering := by decide +kernel

/-- CommitAdjustmentActs: complete and incomplete copies, the counter before and at its end. -/
theorem wit_commit :
    testConfig.incomplete = none ∧ defaultConfig.incomplete = some .noActiveDeck ∧ (65534 : Nat) < 65535 ∧
      65535 ≤ ({ ready.store with eventCounter := 65535 } : Store).eventCounter ∧ ready.store.trailExhausted = false ∧
      ({ ready.store with trail := [{ seq := 4294967295, kind := .auditClosed 1 true }] } : Store).trailExhausted = true ∧
      (ready.setTm { ready.tm with storeFault := true }).tm.storeFault = true ∧ ready.tm.storeFault = false := by decide +kernel

/-- ReadingsAnswered. -/
theorem wit_readings :
    parseNat 1 [0] = some 0 ∧ parseNat 1 [1] = some 1 ∧ parseNat 4 [1, 0, 0, 0] = some 1 ∧
      parseAuditSelector [0, 1, 0, 0, 0] = some (.number 1) ∧ parseAuditSelector [1, 0, 0, 0, 0] = some .newest ∧
      parseAuditSelector [2, 0, 0, 0, 0] = some .session ∧
      (ready.store.audits.find? fun x => x.number == 1).isSome = true ∧ (ready.store.audits.find? fun x => x.number == 2).isNone = true ∧
      ready.store.audits.getLast? = some testAudit := by
  refine ⟨by decide, by decide, by decide, by decide, by decide, by decide, by decide, by decide, rfl⟩

/-- AuditRequests: each check of an opening, and steps at the edges of their fields. -/
theorem wit_audit :
    State.ready (withSlot (.audit auditing)) ∧ ready.cal.value ≠ none ∧ ready.metro.valid = true ∧ ready.acq.scale = .run ∧
      ready.zm.zeroState = .set ∧ (ready.setCal { ready.cal with value := none }).cal.value = none ∧
      parseStep [0, 0, 1, 0, 0, 0, 0] = some { kind := 0, target := 0, load := 1, refIndex := 0 } ∧
      parseStep ([1, 2] ++ leBytes 4 200000 ++ [1]) = some { kind := 1, target := 2, load := 200000, refIndex := 1 } ∧
      parseStep [2, 4, 0, 0, 0, 0, 0] = some { kind := 2, target := 4, load := 0, refIndex := 0 } ∧
      (parseStep [3, 5, 0, 0, 0, 0, 0]).isSome = true ∧ stepKindOf 0 = some .load ∧ stepTargetOf 0 = some .bridge ∧
      stepTargetOf 4 = some (.deck 3) ∧ auditing.flight = none ∧ ({ auditing with flight := some inFlight } : AuditSession).flight ≠ none ∧
      (∀ d ∈ targetDecks testConfig .bridge, ∀ i : Chan, testConfig.assign i = some d → (ready.acq.channels.get i).health = .good) := by
  refine ⟨⟨rfl, rfl⟩, by decide, rfl, rfl, rfl, rfl, ?_⟩
  decide +kernel

/-- A passed step of an audit. -/
def passedStep (n : Nat) (k : StepKind) (t : StepTarget) : StepRecord :=
  { index := n, kind := k, target := t, load := if k = .zero then 0 else 10000, refIndex := none, indication := 0
    reportedError := 0, mpe := 5, mpeQuarters := 2, difference := none, substituted := false, passed := true, stamp := some noon }

/-- CloseAuditActs: an audit that passes, one that fails, and each check. -/
theorem wit_closeAudit :
    let steps := [passedStep 1 .load (.deck 0), passedStep 2 .load (.deck 1), passedStep 3 .zero .bridge]
    (auditRecordOf ready.store noon.date steps).passed = true ∧ (auditRecordOf ready.store noon.date []).passed = false ∧
      ready.store.auditCounter < 4294967295 ∧ 4294967295 ≤ lastNumber ∧ ready.tm.storeFault = false ∧
      ready.cal.value = some noon ∧ auditing.flight = none := by decide +kernel

/-- TimedWorkRows: each kind of timed work one sample from its limit, and the sessions one sample from their idle limit. -/
theorem wit_timedWork :
    let a := acquire (sample 0) (Ev.start busyState)
    let r := formedResult a.ev.st a.value
    waiting.mode = .whole ∧ r.isDeckDown = false ∧
      (serveZero r a.ev).st.zm.decisions.forProfile waiting.profile = false ∧ waiting.timeoutLimit = waiting.timeoutCount + 1 ∧
      finds .unstableTimeout (sample 0) busyState = true ∧
      (let s := (withSlot (.adjustment { session with calibration := some calibrating })).setAcq { ready.acq with scale := .warmup }
       let b := acquire (sample 0) (Ev.start s)
       (formedResult b.ev.st b.value).isValue = false ∧ deckHealthy b.ev.st testConfig 0 = true ∧
         calibrating.limit = calibrating.count + 1 ∧ session.idle + 1 < 90000) ∧
      inFlight.limit = inFlight.count + 1 ∧
      (({ session with idle := 89999 } : AdjustSession).idle + 1 = 90000) ∧ (({ auditing with idle := 89999 } : AuditSession).idle + 1 = 90000) := by
  decide +kernel

/-- RecordStoreRequests: numbers and vehicles that are held and that are not, an empty ticket store and a full
one, a SECOND that names the entry. -/
theorem wit_store :
    parseNat 4 [1, 0, 0, 0] = some 1 ∧ parseText [2, 0x41, 0x31] = some plate ∧ parseText [0] = some [] ∧
      fullStore.entry 1 = some (entry 1 plate .receival) ∧ (∀ x ∈ fullStore.entries, x.number ≠ 2) ∧
      (∃ x ∈ fullStore.entries, x.number = 1) ∧
      (∃ y, fullStore.tares.get 3 = some y ∧ y.vehicle = plate) ∧ fullStore.tickets = ticket 1 :: [ticket 2] ∧
      ready.store.tickets = [] ∧ (ticket 1).number = 1 ∧ secondNames (.capture waiting) 1 = true ∧ secondNames .free 1 = false :=
  ⟨by decide, by decide, by decide, by decide +kernel, by decide +kernel, by decide +kernel,
    ⟨tare plate, by decide +kernel, rfl⟩, rfl, rfl, rfl, by decide, by decide⟩

/-- RecordStoreRequests: the slot of a vehicle is the only one that holds it, and an empty table holds none. -/
theorem wit_tares :
    (∀ (j : Fin 128) (y : StoredTare), busyState.store.tares.get j = some y → y.vehicle = plate → j = 3) ∧
      ∀ (j : Fin 128) (y : StoredTare), ready.store.tares.get j = some y → y.vehicle ≠ plate := by
  refine ⟨fun j y h _ => busy_tares j y h, fun j y h => ?_⟩
  have hn : (ready.store.tares.get j) = none := Bank.get_fill none j
  rw [hn] at h
  cases h

/-- SecondCarryRow: a plain second, the last of a minute, of an hour, of a day, of the last day; no value; no supply. -/
theorem wit_carry :
    (∀ t ∈ [noon, { noon with second := 58 }, { noon with second := 59 }],
      t.second < 59 ∨ t.minute < 59) ∧
      (let t := { noon with minute := 59, second := 59 }
       59 ≤ t.second ∧ 59 ≤ t.minute ∧ t.hour < 23) ∧
      (let t := { noon with hour := 23, minute := 59, second := 59 }
       59 ≤ t.second ∧ 59 ≤ t.minute ∧ 23 ≤ t.hour ∧ ¬(2199 < t.date.next.year)) ∧
      (let t : DateTime := { date := { year := 2199, month := 12, day := 31 }, hour := 23, minute := 59, second := 59 }
       59 ≤ t.second ∧ 59 ≤ t.minute ∧ 23 ≤ t.hour ∧ 2199 < t.date.next.year) ∧
      (ready.setMainSupply false).mainSupply = false ∧ (ready.setMainSupply false).cal.stopRecord = false ∧
      (ready.setCal { ready.cal with stopRecord := true }).cal.stopRecord = true := by decide +kernel

/-- CalendarRequestsAndSupplies: the crystal and the supply. -/
theorem wit_crystal :
    ready.mainSupply = true ∧ ready.cal.crystalRunning = true ∧ (ready.setMainSupply false).cal.crystalRunning = true ∧
      (ready.setCal { ready.cal with crystalRunning := false }).cal.crystalRunning = false := ⟨rfl, rfl, rfl, rfl⟩

/-- CalendarRequestsAndSupplies: the ranges at their edges and beside them, a date on and a date before the newest audit record's. -/
theorem wit_calendar :
    parseStamp (leBytes 2 2000 ++ [1, 1, 0, 0, 0]) = some { date := { year := 2000, month := 1, day := 1 }, hour := 0, minute := 0, second := 0 } ∧
      parseStamp (leBytes 2 2199 ++ [12, 31, 23, 59, 59]) =
        some { date := { year := 2199, month := 12, day := 31 }, hour := 23, minute := 59, second := 59 } ∧
      parseStamp (leBytes 2 2200 ++ [13, 32, 24, 60, 60]) =
        some { date := { year := 2200, month := 13, day := 32 }, hour := 24, minute := 60, second := 60 } ∧
      ready.store.audits.getLast?.map AuditRecord.date = some testAudit.date ∧ testAudit.date = { year := 2030, month := 6, day := 1 } ∧
      parseStamp (leBytes 2 2030 ++ [6, 1, 0, 0, 0]) = some { date := testAudit.date, hour := 0, minute := 0, second := 0 } ∧
      ready.store.trailExhausted = false := by decide +kernel

/-! ## Notices, the latched assignment, loads without axle -/

/-- The frame of STORE_FULL: kind 0x7F and a payload of the code byte alone (R171). -/
theorem test_notice_without_fields :
    ∃ a b : Byte, Notice.frame .storeFull = [0xA5, 0x7F, 1, 0, 29, a, b] :=
  ⟨BitVec.ofNat 8 (frameCrc 0x7F [29]).toNat, BitVec.ofNat 8 ((frameCrc 0x7F [29]).toNat / 256), by decide +kernel⟩

/-- The code leads the payload, the fields follow (R171). -/
theorem test_notice_with_fields :
    (Notice.storeFault .issue).payload.length = 2 ∧ (Notice.storeFault .issue).payload.head? = some 15 ∧
      (Notice.transactionStale 5 plate).payload = [16, 5, 0, 0, 0, 2, 0x41, 0x31] := by decide +kernel

/-- A staged copy that marks channel 1 UNUSED. -/
def unusedStaged : AdjustSession :=
  { session with staged := { testConfig with
      channels := testConfig.channels.set 0 { deck := none, zero := 0, gain := 1048576 } } }

/-- A staged assignment acts from the next sample event (R26, log 25). -/
theorem test_assignment_latched :
    (withSlot (.adjustment unusedStaged)).healthAssign 0 = some 0 ∧
      ends (exec (.sampleEvent (sample 1)) (withSlot (.adjustment unusedStaged)))
        (fun t => t.healthAssign 0 == none && t.healthAssign 1 == some 0) = true := by decide +kernel

/-- In such a session an exclusion still changes the included set that forms the masses, and restarts the window (R5). -/
theorem test_exclusion_restarts_in_a_session :
    let s := withSlot (.adjustment unusedStaged)
    ends (exec (.excludeChannel [1])
        ((s.setAcq { s.acq with assign := Bank.ofFn unusedStaged.staged.assign }).setZm
          { s.zm with window := [{ total := 0, decks := [], sampleNumber := 1 }], clock := 9 }))
      (fun t => t.zm.window == [] && t.zm.clock == 0) = true := by decide +kernel

/-- A load of more than 2e is one without axle on an UNCERTAIN map too (R84). -/
theorem test_deck_loads_on_an_uncertain_map :
    let m := { ready.axle with certain := false }
    (judge m testConfig defaultLimits 250 (fun _ => 401) []).deckLoads = [0, 1] ∧
      (judge m testConfig defaultLimits 250 (fun _ => 400) []).deckLoads = [] := by decide +kernel

/-! ## What the wider statements' hypotheses are met by -/

/-- ResetOfBlocks: a stored configuration that agrees with its checksum, one that does not, one without an active deck, and
the calendar's cases. -/
theorem wit_resetOfBlocks :
    (∃ c, ready.store.config = c ∧ ready.store.checksum = configChecksum c) ∧ ready.store.config.activeDecks ≠ [] ∧
      defaultConfig.activeDecks = [] ∧ ready.cal.stopRecord = false ∧ ready.cal.source = .crystal ∧
      (ready.setMainSupply false).mainSupply = false ∧ ready.mainSupply = true :=
  ⟨⟨testConfig, rfl, by simp only [ready]⟩, by decide +kernel, by decide +kernel, rfl, rfl, rfl, rfl⟩

/-- CrossingApplied: an empty map behind a complete vehicle, the last axle exited, and nothing exited. -/
theorem wit_crossingEdges :
    let m := { ready.axle with entered := 3, entryComplete := true, exitedCount := 3, exited := [axle 1, axle 2] ++ [axle 3] }
    (∀ d, m.decks.get d = []) ∧ m.certain = true ∧ m.exited = [axle 1, axle 2] ++ [axle 3] ∧ ready.axle.exited = [] ∧
      (1 : LineNo).val = (1 : Deck).val ∧ 0 < (1 : LineNo).val ∧ (1 : LineNo).val < testConfig.deckCount ∧
      (2 : LineNo).val = testConfig.deckCount := by decide +kernel

/-- Axles 1 and 2 on deck 2 and axle 3, 3 m behind, on deck 1; the loops clear. -/
def twoGroups (complete : Bool) : AxleMap :=
  { busyState.axle with
    decks := (busyState.axle.decks.set 0 [{ axle 3 with spacing := some 300 }]).set 1 [axle 1, axle 2]
    entryComplete := complete, occupancy := if complete then .whole else .part }

/-- An operation with allow-composite that settles. -/
def settling (mode : OpMode) (places : Nat) (gs : List CreditedGroup) : Operation :=
  { waiting with
    request := { secondRequest with allowComposite := true }
    state := .settling, mode := mode, positions := places, credited := gs, timeoutCount := 9 }

/-- A state one sample before the window is full again, whose window entries carry `mass` on each deck. -/
def settlingState (op : Operation) (complete : Bool) (mass : Int) : State :=
  let s := withSlot (.capture op)
  { s with
    axle := twoGroups complete
    zm := { s.zm with window := steady 9 mass, latest := some (atRest mass), clock := 500 }
    store := fullStore }

/-- A credited group from axle `a` to axle `b`. -/
def creditedGroup (a b : Nat) : CreditedGroup :=
  { firstAxle := a, lastAxle := b, axleCount := b + 1 - a, type := .tandem, limit := 18000, uncertainBoundary := false
    straddled := false
    component := { position := 1, index := 1, decks := [1], status := .single, mass := 1000, roundedKg := 100
                   limit := 18000, comparison := .within, substituted := false } }

/-- CaptureTaken: a stable operation in WHOLE mode on a WHOLE map, its gross in range, above Max + 9e and below 0. -/
theorem wit_captureTaken :
    ∀ p ∈ [((10000 : Int), (40000 : Int)), (151000, 604000), (-100, -400)],
      let s := settlingState (settling .whole 0 []) true (2 * p.1)
      let a := acquire (sample p.1) (Ev.start s)
      let r := formedResult a.ev.st a.value
      let u := (serveMap true r (serveZero r a.ev)).st
      u.cap.slot = .capture (settling .whole 0 []) ∧ u.axle.occupancy = .whole ∧ u.zm.decisions.forProfile .one = true ∧
        r.isValue = true ∧
        roundTo testConfig.eHg (testConfig.activeDecks.map fun d => windowMean u.zm.window d).sum = p.2 := by
  decide +kernel

/-- CaptureTaken, CompletionsRecorded: the outcomes of a completion. -/
theorem wit_completionOutcomes :
    let tared := fun v => result { secondRequest with kind := .tare } v
    let single := { secondRequest with kind := .singlePass }
    let undated := busyState.setCal { busyState.cal with value := none }
    let held := fun (x : StoredTare) => busyState.setStore { fullStore with tares := fullStore.tares.set 3 (some x) }
    (completeKind true (tared .compliant) (Ev.start busyState)).2 = some (.tareStored 4 none) ∧
      (completeKind true (tared .compliant) (Ev.start ready)).2 = some (.tareStored 1 none) ∧
      (completeKind true (tared .compliant)
        (Ev.start (ready.setStore { ready.store with
          tares := (Bank.fill 128 (some (tare [0x42]))).set 5
            (some { tare [0x43] with date := { noon.date with year := 2029 } }) }))).2 =
        some (.tareStored 6 (some [0x43])) ∧
      ((completeKind true (tared .overloaded) (Ev.start busyState)).2.any fun o =>
        match o with
        | .tareNotStored _ => true
        | _ => false) = true ∧
      (completeKind true (result single .compliant) (Ev.start busyState)).2 = some (.ticketIssued 3 2) ∧
      (completeKind true (result single .compliant) (Ev.start ready)).2 = some (.fallbackTwoPass 1 .noTare) ∧
      (completeKind true (result single .compliant) (Ev.start undated)).2 = some (.fallbackTwoPass 2 .tareUndated) ∧
      (completeKind true (result single .compliant)
        (Ev.start (held { tare plate with date := { noon.date with year := 2029 } }))).2 =
        some (.fallbackTwoPass 2 .tareAged) ∧
      (completeKind true (result single .compliant) (Ev.start (held { tare plate with counter := 0 }))).2 =
        some (.fallbackTwoPass 2 .tareCounter) ∧
      (completeKind true (result { secondRequest with kind := .axleCheck } .compliant) (Ev.start busyState)).2 =
        some .checked := by decide +kernel

/-- CompositePositions: a position that credits the front group and waits, the sixth position, nothing creditable, and one
that credits every axle. -/
theorem wit_positions :
    ∀ p ∈ [(settling .whole 0 [], false, true, false), (settling .composite 5 [], false, true, false),
        (settling .composite 1 [creditedGroup 1 2], false, false, false),
        (settling .composite 1 [creditedGroup 1 2], true, true, true)],
      let s := settlingState p.1 p.2.1 20000
      let a := acquire (sample 10000) (Ev.start s)
      let r := formedResult a.ev.st a.value
      let u := (serveMap true r (serveZero r a.ev)).st
      let mean := fun d => windowMean u.zm.window d
      let comps := creditableComponents u.axle (judge u.axle testConfig u.site.limits u.site.treadle.groupGap mean []) p.1.credited
      u.cap.slot = .capture p.1 ∧ u.axle.certain = true ∧ u.axle.occupancy = (if p.2.1 then .whole else .part) ∧
        u.zm.decisions.forProfile .one = true ∧ r.isValue = true ∧ (comps != []) = p.2.2.1 ∧
        (u.axle.entryComplete && decide (∃ k ∈ comps, ∃ g ∈ k.groups, g.lastAxle = 3)) = p.2.2.2 := by
  decide +kernel

/-- CompositePositions: each row of the test of an operation's end. -/
theorem wit_reports :
    let op := settling .composite 1 [creditedGroup 1 2]
    let whole := settling .composite 2 [creditedGroup 1 2, creditedGroup 3 3]
    let after := fun (o : Operation) (rep : MapReport) =>
      (reportToCapture true rep (Ev.start (settlingState o true 20000))).notes.length
    let none : MapReport := { crossing := false, loss := none, changed := false, emptied := false }
    after op none = 0 ∧ after op { none with crossing := true } = 0 ∧
      after { op with state := .positionWait } { none with crossing := true } = 1 ∧
      after op { none with loss := some .secondVehicle } = 1 ∧ after op { none with loss := some .phantom } = 1 ∧
      after op { none with changed := true, emptied := true } = 1 ∧ 1 ≤ after whole { none with changed := true } := by
  decide +kernel

/-- A calibration of deck 1 with `n` equal window entries of `x` on each of its two channels. -/
def calibratingAt (kind : CalKind) (load : Nat) (n : Nat) (x : Int) : Calibration :=
  { kind := kind, deck := 0, load := load, limit := 250, count := 0
    window := List.replicate n { values := [(0, x), (1, x)], rawSum := 2 * x } }

/-- CalibrationResults: a span in and out of its range, and a linearity point out of range, near a point, with room and
without. -/
theorem wit_calResults :
    let c := testConfig
    let points := fun (l : List LinPoint) => { c with linearity := c.linearity.set 0 l }
    let p := fun (n : Nat) => ({ load := n, correction := 0 } : LinPoint)
    (calResult c (calibratingAt .zero 1 10 7)).1 = .zeroOk [(0, 7), (1, 7)] ∧
      (calResult c (calibratingAt .span 10000 10 50000)).1 =
        .spanOk 104857600000 1000 [(0, 1048576), (1, 1048576)] ∧
      (calResult c (calibratingAt .span 10000 10 40000)).1 = .spanOk 83886080000 1250 [(0, 1310720), (1, 1310720)] ∧
      (calResult c (calibratingAt .span 10000 10 39999)).1 = .spanRange (some (83883982848, 1250)) ∧
      (calResult c (calibratingAt .span 10000 10 0)).1 = .spanRange none ∧
      (calResult c (calibratingAt .linearity 10000 10 50000)).1 = .linearityOk 100000 0 [p 100000] ∧
      (calResult c (calibratingAt .linearity 10000 10 49000)).1 = .linearityRange 98000 2000 [] ∧
      (calResult (points [p 99500, p 100700]) (calibratingAt .linearity 10000 10 50000)).1 =
        .linearityOk 100000 0 [p 100000, p 100700] ∧
      (calResult (points [p 1, p 2, p 3, p 4]) (calibratingAt .linearity 10000 10 50000)).1 =
        .tableFull 100000 0 [p 1, p 2, p 3, p 4] := by decide +kernel

/-- CalibrationResults: a capture that becomes stable at the next sample event, and one whose channel is out. -/
theorem wit_calStable :
    let cal := calibratingAt .zero 1 9 7
    let s := (withSlot (.adjustment { session with calibration := some cal })).setZm
      { ready.zm with latest := some (atRest 14), window := steady 9 14, clock := 500 }
    let a := acquire (sample 7) (Ev.start s)
    let r := formedResult a.ev.st a.value
    let u := (serveMap true r (serveZero r a.ev)).st
    u.cap.slot = .adjustment { session with calibration := some cal } ∧ r.isValue = true ∧ session.idle + 1 < 90000 ∧
      stableUnder testConfig.window (band testConfig.profile1 testConfig.q a.ev.st.zm.clock)
        ((cal.push u testConfig a.value.get true).window.map CalEntry.rawSum) = true ∧
      stableUnder testConfig.window (band testConfig.profile1 testConfig.q a.ev.st.zm.clock)
        (({ cal with window := [] }.push u testConfig a.value.get true).window.map CalEntry.rawSum) = false := by
  decide +kernel

/-- CalibrationResults: channel 5, which only the staged copy names, is EXCLUDED while the result is in VALUE. -/
theorem wit_calExcluded :
    let c := { testConfig with channels := testConfig.channels.set 4 { deck := some 0, zero := 0, gain := 1048576 } }
    let cal := calibratingAt .zero 1 0 0
    let sess : AdjustSession := { staged := c, idle := 7, calibration := some cal }
    let s := (withSlot (.adjustment sess)).setAcq
      { ready.acq with channels := ready.acq.channels.set 4 { resetChannel with health := .excluded } }
    let a := acquire (sample 7) (Ev.start s)
    let r := formedResult a.ev.st a.value
    let u := (serveMap true r (serveZero r a.ev)).st
    u.cap.slot = .adjustment sess ∧ r.isValue = true ∧ (c.channels.get 4).deck = some cal.deck ∧
      (u.acq.channels.get 4).health = .excluded ∧
      stableUnder c.window (band c.profile1 c.q a.ev.st.zm.clock)
        ((cal.push u c a.value.get true).window.map CalEntry.rawSum) = false := by decide +kernel

/-- AuditStepJudged: a stable step of the bridge, of a deck, of zero load, and a repeat. -/
theorem wit_auditStep :
    ∀ f ∈ [inFlight, { inFlight with target := .deck 1 }, { inFlight with kind := .zero, load := 0 },
        { inFlight with kind := .again, refIndex := 1 }],
      let x : AuditSession := { auditing with flight := some f, steps := [passedStep 1 .load .bridge] }
      let s := (withSlot (.audit x)).setZm { ready.zm with latest := some (atRest 5000), window := steady 9 5000, clock := 500 }
      let a := acquire (sample 2500) (Ev.start s)
      let r := formedResult a.ev.st a.value
      let u := (serveMap true r (serveZero r a.ev)).st
      x.flight = some f ∧ u.zm.decisions.profile1 = true ∧ r.isValue = true ∧ x.idle + 1 < 90000 ∧
        (testConfig.mpe != []) = true := by decide +kernel

/-- StagedAndCalibrated: the groups of lists, at their edges and beside them, and unused places that are not zero. -/
theorem wit_stageLists :
    let point := fun (n : Nat) (c : Int) => leBytes 4 n ++ signedBytes 4 c
    parseStage ([1, 1, 2] ++ point 100 2 ++ point 200 (-4) ++ point 9 9 ++ point 0 0) =
        some (.linearity 1 [{ load := 100, correction := 2 }, { load := 200, correction := -4 }] 2) ∧
      (parseStage ([1, 5, 5] ++ point 100 3 ++ point 100 0 ++ point 0 0 ++ point 0 0)).isSome = true ∧
      parseStage ([3, 2, 1] ++ [15, 31] ++ List.replicate 14 7 ++ signedBytes 1 (-8)) = some (.profile 2 [(15, 31)] 1 (-8)) ∧
      (parseStage ([3, 3, 9] ++ List.replicate 16 40 ++ signedBytes 1 8)).isSome = true ∧
      parseStage ([5, 2] ++ leBytes 2 1 ++ [63] ++ leBytes 2 10000 ++ [0] ++ leBytes 2 5 ++ [5] ++ leBytes 2 0 ++ [0]) =
        some (.mpe [(1, 63), (10000, 0)] 2) ∧
      (parseStage ([5, 0] ++ List.replicate 12 255)).isSome = true ∧
      parseStage ([6] ++ leBytes 2 730 ++ leBytes 4 200000 ++ List.replicate 12 0) = some (.audit 730 [200000, 0, 0, 0]) ∧
      (parseStage ([6] ++ leBytes 2 731 ++ leBytes 4 200001 ++ List.replicate 12 0)).isSome = true := by decide +kernel

/-- SecondCarryRow: an entry exactly at the staleness limit, one just short of it, one STALE already, and the order in
which two are marked when the second write fails. -/
theorem wit_hourEvent :
    let old := fun (n : Nat) (h : Nat) =>
      let x := entry n [0x41, BitVec.ofNat 8 (0x30 + n)] .receival
      { x with first := { x.first with stamp := some { noon with hour := h } } }
    let s := ((ready.setStore { ready.store with entries := [old 3 10, old 2 11, old 1 12, { old 4 9 with stale := true }]
                                                 txCounter := 4 }).setSite
      { ready.site with ticket := { ready.site.ticket with staleness := 2 } }).setCal
      { ready.cal with value := some { noon with hour := 12, minute := 59, second := 59 } }
    ends (exec (.secondCarry []) s) (fun t => t.store.entries.map (·.stale) == [true, true, false, true]) = true ∧
      ends (exec (.secondCarry [true, false]) s) (fun t =>
        t.store.entries.map (·.stale) == [false, true, false, true] && t.tm.storeFault) = true := by decide +kernel

/-- SecondCarryRow: a stored tare whose age passes the validity at this midnight. -/
theorem wit_dayEvent :
    let s := (busyState.setSite { ready.site with ticket := { ready.site.ticket with tareValidity := 1 } }).setCal
      { ready.cal with value := some { date := { noon.date with day := 6 }, hour := 23, minute := 59, second := 59 } }
    ends (exec (.secondCarry []) s) (fun t => t.link.tx == some (.notice (.tareExpired plate noon.date))) = true := by
  decide +kernel

/-! ## What the hypotheses of the newer clauses are met by -/

/-- ZeroLawKept: the zero set, its window and its counts at their ends. -/
theorem wit_zeroLaw :
    ZeroLaw (ready.setZm { ready.zm with
      window := steady 10 0, clock := 60000, trackCount := 49, initial := Bank.fill 4 30000
      offset := Bank.fill 4 36000 }) :=
  ⟨by decide +kernel, by decide, by decide, fun h => absurd h (by decide), fun _ => by decide +kernel⟩

/-- StabilityDecided: the settling clock before and at its end; a result that fills the window, one past W, totals apart by
just 2q and by more, no result in VALUE, and a channel that returns to its deck. -/
theorem wit_stability :
    let at' := fun (n : Nat) (m : Int) (t : Nat) =>
      ready.setZm { ready.zm with window := steady n m, clock := t, latest := some (atRest m) }
    let back : Channel :=
      { resetChannel with raw := some 99, evaluated := true, cleanRun := 24, recovery := 63, health := .recovering
                          counter := 160, cause := some .manual }
    let joined := (withChannel back).setZm (at' 9 2 500).zm
    (∀ t ∈ [59999, 60000], ends (exec (.sampleEvent (sample 1)) (at' 9 2 t)) (fun u =>
      u.zm.clock == 60000 && u.zm.window.length == 10 && u.zm.decisions.profile1 && u.zm.decisions.profile2) = true) ∧
      ends (exec (.sampleEvent (sample 26)) (at' 10 2 9)) (fun u =>
        u.zm.decisions.zeroBand && u.zm.window.length == 10 && u.zm.clock == 10) = true ∧
      ends (exec (.sampleEvent (sample 27)) (at' 10 2 9)) (fun u =>
        !u.zm.decisions.zeroBand && u.zm.decisions.profile1) = true ∧
      ends (exec (.sampleEvent (sample 1)) (at' 8 2 9)) (fun u =>
        !u.zm.decisions.zeroBand && !u.zm.decisions.profile1) = true ∧
      ends (exec (.sampleEvent (sample 1)) joined) (fun u =>
        u.zm.window.length == 1 && u.zm.clock == 1 && (u.acq.channels.get 0).health == .good) = true ∧
      ends (exec (.sampleEvent (sample 1)) (withChannel { resetChannel with health := .excluded })) (fun u =>
        u.zm.window == [] && u.zm.clock == 0) = true := by decide +kernel

/-- StabilityDecided: settling clocks at both ends of two segments, levels past both ends of the clamp. -/
theorem wit_band :
    let p : Profile := { segments := [(0, 4), (1, 31)], offset := 7 }
    let low : Profile := { segments := [(15, 3)], offset := -8 }
    (∀ t ∈ [0, 9], band p 50 t = 550) ∧ (∀ t ∈ [10, 29, 30, 60000], band p 50 t = 1550) ∧ band low 50 60000 = 0 := by
  decide +kernel

/-- ZERO_PENDING one sample before a full window of `m`, its range reported or not. -/
def unset (m : Int) (reported : Bool) : State :=
  ready.setZm { ready.zm with
    zeroState := .pending, window := steady 9 m, clock := 500, latest := some (atRest m), rangeReported := reported }

theorem unset_zeroLaw (m : Int) (reported : Bool) : ZeroLaw (unset m reported) :=
  ⟨Nat.le_of_ble_eq_true rfl, Nat.le_of_ble_eq_true rfl, Nat.zero_le _,
    fun _ => ⟨rfl, (by intro op h; cases h), fun d => by fin_cases d <;> exact ⟨rfl, rfl, rfl⟩⟩,
    fun (h : ZeroState.pending = .set) => nomatch h⟩

/-- InitialZeroTaken: zero means at Li of 30,000 hg and beyond it, reported already or not, and a loop ACTIVE. -/
theorem wit_initialZero :
    (∀ b ∈ [true, false],
      ends (exec (.sampleEvent (sample 15000)) (unset 30000 b)) (fun t =>
        t.zm.decisions.zeroBand && t.zm.zeroState == .set && t.zm.offset.get 0 == 30000 && t.zm.initial.get 1 == 30000 &&
        t.zm.window.map WindowEntry.total == List.replicate 10 0 &&
        t.link.tx == some (.notice (.zeroState .set [(0, 30000), (1, 30000)]))) = true) ∧
      ends (exec (.sampleEvent (sample 15000)) (unset 30001 false)) (fun t =>
        t.zm.decisions.zeroBand && t.zm.zeroState == .pending && t.zm.rangeReported &&
        t.link.tx == some (.notice (.zeroRange [(0, 30001), (1, 30001)] 30000))) = true ∧
      ends (exec (.sampleEvent (sample 15000)) (unset 30001 true)) (fun t =>
        t.zm.decisions.zeroBand && t.zm.rangeReported && t.link.queue == []) = true ∧
      (let s := (unset 30000 false).setAxle { ready.axle with loopExit := true }
       ends (exec (.sampleEvent (sample 15000)) s) (fun t => t.zm.zeroState == .pending) = true) := by
  decide +kernel

/-- A sample of 100 counts, `n` on the channels of `l`. -/
def sampleWith (l : List Chan) (n : Int) : SampleInput :=
  { sample 100 with raw := l.foldl (fun b i => b.set i (BitVec.ofInt 24 n)) (sample 100).raw }

/-- FaultRecordsOfASample: no fault, one and two, a free record and a held one, with and without a last good sample. -/
theorem wit_faultRecords :
    let s := withChannel { resetChannel with lastGood := some 40 }
    let held : FaultCapture := { channel := 1, kind := .stuck, raw := 3, sampleNumber := 9, stamp := none, more := false }
    let full := s.setAcq { s.acq with faultCapture := some held }
    let new : FaultCapture :=
      { channel := 0, kind := .overrange, raw := 8300000, sampleNumber := 1, stamp := some noon, more := false }
    ends (exec (.sampleEvent (sample 100)) s) (fun t => t.acq.faultCapture == none) = true ∧
      ends (exec (.sampleEvent (sampleWith [0] 8300000)) s) (fun t =>
        t.acq.faultCapture == some new &&
        t.zm.latest.map LatestResult.result ==
          some (.value [{ deck := 0, mass := 140, substituted := false }, { deck := 1, mass := 200, substituted := false }]
            340 400 .normal)) = true ∧
      ends (exec (.sampleEvent (sampleWith [0, 3] 8300000)) s) (fun t =>
        t.acq.faultCapture == some { new with more := true }) = true ∧
      ends (exec (.sampleEvent (sampleWith [3] 8300000)) full) (fun t =>
        t.acq.faultCapture == some { held with more := true }) = true := by decide +kernel

/-- FaultsOfASample: an own change above the limit beside a mate's change just below a quarter of it, at it, and a change
of the limit itself. -/
theorem wit_spike :
    let c : Channel := { resetChannel with raw := some 0, evaluated := true }
    let fault := fun (own mate : Int) =>
      channelFault ready.assignmentDue 100000 (Bank.fill 16 c)
        { sample 0 with raw := ((Bank.fill 16 7#24).set 0 (BitVec.ofInt 24 own)).set 1 (BitVec.ofInt 24 mate) } 0
    fault 100001 24999 = some .spike ∧ fault 100001 25000 = none ∧ fault 100000 0 = none := by decide +kernel

/-- ChannelCountRows: a clean half-second of a RECOVERING channel, the first and the 63rd. -/
theorem wit_recovering :
    ∀ n ∈ [0, 62],
      let c : Channel :=
        { resetChannel with raw := some 99, evaluated := true, cleanRun := 24, recovery := n, health := .recovering
                            counter := 160, cause := some .manual }
      (withChannel c).assignmentDue 0 = some 0 ∧
        ends (exec (.cleanHalfSecond 0 (sample 100)) (withChannel c)) (fun t =>
          (t.acq.channels.get 0).recovery == n + 1 && (t.acq.channels.get 0).health == .recovering) = true := by
  decide +kernel

/-- CrossingApplied: a fourth axle behind axle 3, in OPEN and in GUARD; a spacing at its cap; and each reason for none. -/
theorem wit_spacing :
    let spacing := fun (s : State) (p : Pairing) (stamp : Nat) (x : Option Nat) =>
      ends (exec (.activation 0 .b stamp true) (withLine 0 (paired p) s)) fun t =>
        (t.axle.decks.get 0).getLast?.map Axle.spacing == some x
    let behind := fun (a : Axle) => busyState.setAxle { busyState.axle with decks := busyState.axle.decks.set 0 [a] }
    spacing busyState (.openA 5000) 5100 (some 600) = true ∧ spacing busyState (.guardA 5000) 6000 (some 60) = true ∧
      spacing busyState (.openA 5184) 5185 (some 65520) = true ∧ spacing busyState (.openA 5185) 5186 (some 65535) = true ∧
      spacing busyState (.openA 5000) 5000 none = true ∧
      spacing (busyState.setAxle { busyState.axle with reversal := true }) (.openA 5000) 5100 none = true ∧
      spacing (behind { axle 3 with reEntered := true }) (.openA 5000) 5100 none = true := by decide +kernel

/-- LoopChangeRow: an empty CERTAIN map that keeps its vehicle while the other loop is ACTIVE, and loses it with the last;
and an UNCERTAIN map with and without a load. -/
theorem wit_loopRecords :
    let m := { ready.axle with loopEntry := true, loopExit := true, entered := 3, exitedCount := 3 }
    let load := fun (t : Int) (x : Loop) =>
      let s := ready.setAxle { ready.axle with certain := false, loopEntry := x = .entry, loopExit := x = .exit }
      exec (.loopChange x false true) (s.setZm { s.zm with latest := some (atRest t) })
    ends (exec (.loopChange .entry false true) (ready.setAxle m)) (fun t =>
        t.axle.entryComplete && t.axle.entered == 3 && t.axle.occupancy == .part) = true ∧
      ends (exec (.loopChange .exit false true) (ready.setAxle m)) (fun t =>
        !t.axle.entryComplete && t.axle.entered == 3 && t.axle.exitedCount == 3) = true ∧
      ends (exec (.loopChange .exit false true) (ready.setAxle { m with loopEntry := false, entryComplete := true }))
        (fun t => !t.axle.entryComplete && t.axle.entered == 0 && t.axle.occupancy == .empty) = true ∧
      ends (load 2000 .entry) (fun t => t.axle.occupancy == .empty) = true ∧
      ends (load 2001 .exit) (fun t => t.axle.occupancy == .whole) = true := by decide +kernel

/-- ComponentsAndEntries: groups of one deck, of two and of none, in ascending number. -/
theorem wit_components :
    let group := fun (n : Nat) (decks : List Deck) =>
      ({ number := n, firstAxle := n, lastAxle := n, axleCount := 1, type := .single, limit := 9000, uncertain := false
         decks := decks, exited := decks = [] } : Group)
    let gs := [group 1 [], group 2 [3], group 3 [2, 1], group 4 [1], group 5 [0]]
    gs.map Group.number = [1, 2, 3, 4, 5] ∧
      (formComponents gs).map (fun c => (c.decks, c.groups.map Group.number)) = [([3], [2]), ([1, 2], [3, 4]), ([0], [5])] ∧
      (judgeComponent 200 (fun _ => 1000) [2] false 1 { decks := [1, 2], groups := [group 3 [2, 1]] }).straddled = true := by
  decide +kernel

/-- OperationMoves: a report of a change with the map WHOLE, of none, and of a second vehicle. -/
theorem wit_mapReports :
    let rep : MapReport := { crossing := false, loss := none, changed := false, emptied := false }
    let after := fun (r : MapReport) (m : AxleMap) =>
      (reportToCapture true r (Ev.start (busyState.setAxle m))).notes
    after rep (twoGroups true) = [] ∧ after { rep with loss := some .phantom } (twoGroups true) = [] ∧
      after { rep with changed := true } (twoGroups true) = [.operationState 1 .settling .whole 0] ∧
      after { rep with changed := true } (twoGroups false) = [] ∧
      after { rep with loss := some .secondVehicle } (twoGroups true) = [.captureFailed 1 .second .twoVehicles 0] := by
  decide +kernel

/-- OperationMoves: the loop change that makes the map WHOLE and one that changes nothing, the first axle of a second
vehicle, and a deck that goes down. -/
theorem wit_operationMoves :
    let one := busyState.setAxle { busyState.axle with loopEntry := true }
    let second := withLine 0 (paired (.openA 5000)) (busyState.setAxle { busyState.axle with entryComplete := true })
    let down := busyState.setAcq { ready.acq with channels := ready.acq.channels.set 0 { resetChannel with health := .excluded } }
    let moved := fun (o : Host.Outcome State Fault Refusal) (x : OpState) =>
      ends o fun t => t.cap.slot == .capture { waiting with state := x }
    moved (exec (.loopChange .entry false true) one) .settling = true ∧
      moved (exec (.loopChange .exit true true) busyState) .awaitingVehicle = true ∧
      ends (exec (.activation 0 .b 6000 true) second) (fun t => t.cap.slot == .free && t.tm.reserved == 0) = true ∧
      ends (exec (.sampleEvent (sample 100)) down) (fun t => t.cap.slot == .free && t.tm.reserved == 0) = true := by
  decide +kernel

/-- CommitAdjustmentActs: a configuration for each condition of completeness, alone, and Max at both ends of its range. -/
theorem wit_incomplete :
    let on := fun (l : List (Chan × Deck)) =>
      { testConfig with channels := l.foldl (fun b (x : Chan × Deck) =>
        b.set x.1 { deck := some x.2, zero := 0, gain := 1 }) defaultConfig.channels }
    (on []).incomplete = some .noActiveDeck ∧
      (on [(0, 0), (1, 0), (2, 1)]).incomplete = some .namedDeckNotActive ∧
      (on ([0, 1, 2, 3, 4, 5, 6, 7, 8].map fun i => (i, 0)) ).incomplete = some .noActiveDeck ∧
      (on [(0, 1), (1, 1)]).incomplete = some .deckGap ∧ (on [(0, 0), (1, 0)]).incomplete = none ∧
      { testConfig with maxKg := 60001 }.incomplete = some .maxDivision ∧
      { testConfig with maxKg := 9980 }.incomplete = some .maxDivision ∧
      { testConfig with maxKg := 10000 }.incomplete = none ∧ { testConfig with maxKg := 200000 }.incomplete = none ∧
      { testConfig with maxKg := 200020 }.incomplete = some .maxDivision := by decide +kernel

/-- CalibrationResults, AuditStepJudged: a capture and a step that end at the sample event of the idle limit (log 24). -/
theorem wit_idleLimit :
    let zm := { ready.zm with latest := some (atRest 14), window := steady 9 14, clock := 500 }
    let adj := (withSlot (.adjustment
      { session with idle := 89999, calibration := some (calibratingAt .zero 1 9 7) })).setZm zm
    let aud := (withSlot (.audit { auditing with idle := 89999, flight := some inFlight })).setZm zm
    ends (exec (.sampleEvent (sample 7)) adj) (fun t =>
        t.cap.slot == .free && t.link.tx == some (.notice (.calibrationResult .zero 0 (.zeroOk [(0, 7), (1, 7)]))) &&
        t.link.queue.head? == some (.adjustAborted .idle)) = true ∧
      ends (exec (.sampleEvent (sample 7)) aud) (fun t =>
        t.cap.slot == .free && t.link.queue.head? == some (.auditAbandoned .idle)) = true := by decide +kernel

/-! ## Notices in their order, and counts below their limits -/

/-- The notices that an outcome holds, in their order, without LAMP_STATE. -/
def sent (o : Host.Outcome State Fault Refusal) : List Notice :=
  match o with
  | .next t =>
    (match t.link.tx with
      | some (.notice n) => n :: t.link.queue
      | _ => t.link.queue).filter fun n => match n with
        | .lampState .. => false
        | _ => true
  | _ => []

/-- ScaleStates: a warm-up two samples from its length, and one. -/
theorem wit_warmCount :
    let s := fun n : Nat => ready.setAcq { ready.acq with scale := .warmup, warmCount := n, warmLength := 250 }
    ends (exec (.sampleEvent (sample 0)) (s 248)) (fun t => t.acq.scale == .warmup && t.acq.warmCount == 249) = true ∧
      sent (exec (.warmupEnd (sample 0)) (s 249)) = [.scaleState .run .warmup] := by decide +kernel

/-- TrackingStepRow: the count at 47, at 48 and, without the conditions, at 49; and ZERO_LIMIT of deck 1 alone. -/
theorem wit_trackCount :
    let s := fun n : Nat => (trackState 0 10).setZm { (trackState 0 10).zm with trackCount := n }
    let off := (s 49).setAxle { ready.axle with occupancy := .part }
    (∀ n ∈ [47, 48], ends (exec (.sampleEvent (sample 5)) (s n)) (fun t =>
        t.zm.trackCount == n + 1 && t.zm.offset == (s n).zm.offset) = true) ∧
      ends (exec (.sampleEvent (sample 5)) off) (fun t => t.zm.trackCount == 0 && t.zm.offset == off.zm.offset) = true ∧
      sent (exec (.zeroTrackingStep (sample 3002)) (trackState 5995 10)) = [.zeroLimit 0 6000 0] := by decide +kernel

/-- ElementRows, CrossingApplied: a crossing on an UNCERTAIN map that wakes the scale, one that moves an axle, a phantom, a
second vehicle and a twenty-fifth axle. -/
theorem wit_crossingNotices :
    let on := fun (line : LineNo) (s : State) =>
      sent (exec (.activation line .b 6000 true) (withLine line (paired (.openA 5000)) s))
    let map := fun (m : AxleMap) => busyState.setAxle m
    let lone := (ready.setAxle { ready.axle with certain := false }).setAcq { ready.acq with scale := .standby }
    on 0 lone = [.scaleState .warmup .standby, .axleCrossing 0 .forward (some 11) none false, .occupancy .part false .empty] ∧
      on 1 busyState = [.axleCrossing 1 .forward (some 11) (some 3) true] ∧
      on 1 (map { busyState.axle with decks := busyState.axle.decks.set 0 [] }) =
        [.treadleFault 1 .phantom, .axleInconsistent .phantom (some 1), .axleCrossing 1 .forward (some 11) none false,
          .occupancy .part false .part] ∧
      on 0 (map { busyState.axle with entryComplete := true }) =
        [.axleInconsistent .secondVehicle (some 0), .axleCrossing 0 .forward (some 11) none false,
          .occupancy .part false .part, .captureFailed 1 .second .twoVehicles 0] ∧
      on 0 (map { busyState.axle with entered := 24 }) =
        [.axleInconsistent .overflow (some 0), .axleCrossing 0 .forward (some 11) none false, .occupancy .part false .part] := by
  decide +kernel

/-- PairingRows, LoopChangeRow: a single element on a CERTAIN and on an UNCERTAIN map, and a loop that wakes the scale. -/
theorem wit_mapNotices :
    let lone := ready.setAxle { ready.axle with certain := false }
    sent (exec (.singleElementFault 1) (withLine 1 (paired (.guardA 1000)) ready)) =
        [.treadleFault 1 (.singleElement .a), .axleInconsistent .singleElement (some 1), .occupancy .part false .empty] ∧
      sent (exec (.singleElementFault 1) (withLine 1 (pairedB (.guardB 1000)) lone)) =
        [.treadleFault 1 (.singleElement .b), .occupancy .part false .empty] ∧
      sent (exec (.loopChange .entry true true) (ready.setAcq { ready.acq with scale := .standby })) =
        [.scaleState .warmup .standby, .occupancy .part true .empty] := by decide +kernel

/-- MapCountRows: both counts at 0 and at 48, the test failed at 49 by the load and by a loop, and the notices of both
limits. -/
theorem wit_mapCountsBelow :
    let hid := fun n : Nat => ready.setAxle { ready.axle with hiddenCount := n }
    let back := fun n : Nat => ready.setAxle { ready.axle with certain := false, recoveryCount := n }
    (∀ n ∈ [0, 48],
      ends (exec (.sampleEvent (sample 1001)) (hid n)) (fun t => t.axle.hiddenCount == n + 1 && t.axle.certain) = true ∧
        ends (exec (.sampleEvent (sample 1000)) (back n)) (fun t =>
          t.axle.recoveryCount == n + 1 && !t.axle.certain) = true) ∧
      ends (exec (.sampleEvent (sample 1000)) (hid 49)) (fun t => t.axle.hiddenCount == 0 && t.axle.certain) = true ∧
      ends (exec (.sampleEvent (sample 1000)) ((back 49).setAxle { (back 49).axle with loopExit := true })) (fun t =>
        t.axle.recoveryCount == 0 && !t.axle.certain) = true ∧
      sent (exec (.hiddenLoad (sample 1001)) (hid 49)) = [.axleInconsistent .hiddenLoad none, .occupancy .whole false .empty] ∧
      sent (exec (.mapRecovery (sample 1000)) (back 49)) = [.occupancy .empty true .empty] := by decide +kernel

/-- StartCaptureDecided: a SECOND keeps its transaction number and its accept bit, a FIRST its goods and its kind, a TARE
none of them. -/
theorem wit_requestFields :
    let full : CaptureFields := { fields 1 with txNumber := 7, commodity := 999, grade := some [0x41], txKind := 1 }
    let base : CaptureRequest := { secondRequest with txNumber := 0, acceptIncomplete := false }
    { full with flags := 2 }.request = some { base with txNumber := 7, acceptIncomplete := true } ∧
      { full with kind := 0, flags := 3 }.request = some
        { base with kind := .first, txKind := some .outturn, commodity := 999, grade := some [0x41], allowComposite := true } ∧
      { full with kind := 3, flags := 2 }.request = some { base with kind := .tare } := by decide +kernel

/-- TimedWorkRows: each kind of timed work two samples from its limit, a composite operation in POSITION_WAIT, and both
sessions two samples from their idle limit. -/
theorem wit_countsBelow :
    let slotAfter := fun (x y : Slot) => ends (exec (.sampleEvent (sample 0))
      ((withSlot x).setAcq { ready.acq with scale := .warmup, warmLength := 250 })) fun t => t.cap.slot == y
    let wait := { waiting with mode := .composite, state := .positionWait }
    slotAfter (.capture { waiting with timeoutCount := 248 }) (.capture waiting) = true ∧
      slotAfter (.capture { wait with timeoutCount := 248 }) (.capture wait) = true ∧
      slotAfter (.adjustment { session with calibration := some { calibrating with count := 248 } })
        (.adjustment { session with idle := 8, calibration := some calibrating }) = true ∧
      slotAfter (.audit { auditing with flight := some { inFlight with count := 248 } })
        (.audit { auditing with idle := 8, flight := some inFlight }) = true ∧
      slotAfter (.adjustment { session with idle := 89998 }) (.adjustment { session with idle := 89999 }) = true ∧
      slotAfter (.audit { auditing with idle := 89998 }) (.audit { auditing with idle := 89999 }) = true := by decide +kernel

/-- ChannelRequests: a channel taken out before the first sample event since a reset (log 50). -/
theorem wit_channelNotice :
    sent (exec (.sampleEvent (sample 0)) ready) = [] ∧ ready.acq.sampleNumber = 0 ∧
      ends (exec (.excludeChannel [1]) ready) (fun t =>
        t.link.queue == [.channelState 0 .excluded .good (some .manual) 0]) = true := by decide +kernel


/-- The exit lamp and the REWORK hold of an outcome. -/
def exitAfter (o : Host.Outcome State Fault Refusal) (x : Lamp × Bool) : Bool := ends o fun t => t.cap.exit == x

/-- `s` with a GREEN exit lamp, a REWORK hold, and occupancy PARTIAL. -/
def leaving (s : State) : State :=
  (s.setCap { s.cap with exitLamp := .green, reworkHold := true }).setAxle { s.axle with occupancy := .part }

/-- ElementRows, CrossingApplied, PairingRows, LoopChangeRow, MapCountRows, CommitAdjustmentActs: occupancy that becomes
EMPTY, and occupancy that does not. -/
theorem wit_exitLamp :
    let s := leaving ready
    let lone := s.setAxle { s.axle with certain := false }
    let light := lone.setZm { lone.zm with latest := some (atRest 0) }
    let last := s.setAxle { s.axle with decks := s.axle.decks.set 1 [axle 1], entered := 1, entryComplete := true }
    let opened := leaving (withSlot (.adjustment session))
    s.cap.slot = .free ∧
      exitAfter (exec (.activation 2 .b 6000 true) (withLine 2 (paired (.openA 5000)) last)) (.red, true) = true ∧
      exitAfter (exec (.activation 1 .b 6000 true) (withLine 1 (paired (.openA 5000)) s)) (.green, true) = true ∧
      exitAfter (exec (.activation 1 .b 6000 true) (withLine 1 (paired (.openA 5000)) light)) (.red, true) = true ∧
      exitAfter (exec (.singleElementFault 1) (withLine 1 (paired (.guardA 1000)) light)) (.red, true) = true ∧
      exitAfter (exec (.singleElementFault 1) (withLine 1 (paired (.guardA 1000)) s)) (.green, true) = true ∧
      exitAfter (exec (.loopChange .exit false true) (s.setAxle { s.axle with loopExit := true })) (.red, true) = true ∧
      exitAfter (exec (.loopChange .exit true true) s) (.green, true) = true ∧
      exitAfter (exec (.sampleEvent (sample 0)) lone) (.red, true) = true ∧
      exitAfter (exec (.hiddenLoad (sample 1001)) (s.setAxle { s.axle with hiddenCount := 49 })) (.green, true) = true ∧
      exitAfter (exec (.commitAdjustment [] true) (opened.setZm { opened.zm with latest := some (atRest 0) }))
        (.red, true) = true := by decide +kernel

/-- MapCountRows, LoopChangeRow: a composite operation with every axle credited, and one without. -/
theorem wit_completesNone :
    let s := fun gs : List CreditedGroup => settlingState (settling .composite 1 gs) true 20000
    (s [creditedGroup 1 2]).completesNone (s []) ∧ ¬(s [creditedGroup 1 2, creditedGroup 3 3]).completesNone (s []) := by
  constructor
  · intro op h _ hc
    cases h
    obtain ⟨g, hg, h1, h2⟩ := hc.2 3 (by decide) (by decide)
    rw [List.mem_singleton.mp hg] at h2
    exact absurd h2 (by decide)
  · intro h
    refine h _ rfl rfl ⟨rfl, fun k h1 h2 => ?_⟩
    have h3 : k ≤ 3 := h2
    by_cases hk : k ≤ 2
    · exact ⟨_, List.mem_cons_self, h1, hk⟩
    · exact ⟨_, List.mem_cons_of_mem _ List.mem_cons_self, (by omega : 3 ≤ k), h3⟩

/-- AdjustmentOpenedAndEnded: the switch turned while two answers wait. -/
theorem wit_switchWhileAnswering :
    let s := (withSlot (.adjustment session)).setLink { ready.link with slots := [someAnswer, someAnswer], tx := some .answer }
    s.mainSupply = true ∧ s.metro.switchCal = true ∧
      ends (exec (.switchState false) s) (fun t =>
        t.cap.slot == .free && t.link.queue.take 2 == [.switchState false, .adjustAborted .switch] &&
        t.link.slots.length == 2) = true := by decide +kernel
end Sys2Proof.Tests
end

/-! PROOFS. Weight arithmetic (01_weight_arithmetic.md): rounding, zones and the linearity correction. -/

namespace Sys2Proof.Machine

/-! ## Rounding half away from zero (R2) -/

theorem roundDiv_natCast (a d : Nat) : roundDiv a d = ((2 * a + d) / (2 * d) : Nat) := by
  simp [roundDiv]

/-- Rounding away from zero treats both signs alike. -/
theorem roundDiv_neg (n : Int) (d : Nat) : roundDiv (-n) d = -roundDiv n d := by
  rcases lt_trichotomy n 0 with hn | rfl | hn
  · have hneg : ¬ -n < 0 := by omega
    simp only [roundDiv, if_neg hneg, if_pos hn, Int.natAbs_neg, neg_neg]
  · have hzero : d / (2 * d) = 0 := Nat.div_eq_zero_iff.mpr (by omega)
    simp [roundDiv, hzero]
  · have hneg : -n < 0 := by omega
    simp only [roundDiv, if_pos hneg, if_neg hn.not_gt, Int.natAbs_neg]

/-- The quotient of the rounding of magnitudes: at most half a divisor too high, and less than half too low. -/
theorem half_up_quotient_bounds (a : Nat) {d : Nat} (hd : 0 < d) :
    2 * (d * ((2 * a + d) / (2 * d))) ≤ 2 * a + d ∧ 2 * a < 2 * (d * ((2 * a + d) / (2 * d))) + d := by
  have hdiv := Nat.div_add_mod (2 * a + d) (2 * d)
  have hmod := Nat.mod_lt (2 * a + d) (show 0 < 2 * d by omega)
  rw [Nat.mul_assoc] at hdiv
  omega

/-- The rounded quotient is nearest to the exact one, and of two that are equally near the one farther from zero. -/
theorem roundDiv_nearest (n : Int) {d : Nat} (hd : 0 < d) :
    2 * (n - d * roundDiv n d).natAbs ≤ d ∧
      (2 * (n - d * roundDiv n d).natAbs = d → n.natAbs < (d * roundDiv n d).natAbs) := by
  have of_nat (a : Nat) : 2 * ((a : Int) - d * roundDiv a d).natAbs ≤ d ∧
      (2 * ((a : Int) - d * roundDiv a d).natAbs = d → a < (d * roundDiv a d).natAbs) := by
    obtain ⟨hhigh, hlow⟩ := half_up_quotient_bounds a hd
    rw [roundDiv_natCast, ← Nat.cast_mul]
    omega
  obtain ⟨a, rfl | rfl⟩ := n.eq_nat_or_neg
  · exact of_nat a
  · have hdiff : -(a : Int) - d * roundDiv (-a) d = -(a - d * roundDiv a d) := by
      rw [roundDiv_neg]; ring
    rw [hdiff, roundDiv_neg, mul_neg, Int.natAbs_neg, Int.natAbs_neg, Int.natAbs_neg]
    exact of_nat a

/-- A quotient that is whole is not changed. -/
theorem roundDiv_mul_left {d : Nat} (hd : 0 < d) (c : Int) : roundDiv (d * c) d = c := by
  obtain ⟨hnear, -⟩ := roundDiv_nearest (d * c) hd
  rw [← mul_sub, Int.natAbs_mul, Int.natAbs_natCast] at hnear
  have hdist : (c - roundDiv (d * c) d).natAbs = 0 := by
    by_contra hne
    have := Nat.mul_le_mul_left d (Nat.one_le_iff_ne_zero.mpr hne)
    omega
  omega

theorem roundDiv_eq_zero {n : Int} {d : Nat} (h : 2 * n.natAbs < d) : roundDiv n d = 0 := by
  have hzero : (2 * n.natAbs + d) / (2 * d) = 0 := Nat.div_eq_of_lt (by omega)
  simp [roundDiv, hzero]

theorem ten_mul_roundToKg (e : Nat) (x : Int) : 10 * roundToKg (10 * e) x = roundTo (10 * e) x := by
  have hdvd : (10 : Int) ∣ roundTo (10 * e) x := by
    rw [roundTo, Nat.cast_mul, Nat.cast_ofNat]
    exact dvd_mul_of_dvd_right (dvd_mul_right _ _) _
  exact Int.mul_ediv_cancel' hdvd

/-! ## The quarter-division and the zones (R2, R13) -/

theorem MetroConfig.q_eq (c : MetroConfig) : c.q = 10 * c.eKg / 4 := rfl

/-- A quarter-division is less than half a division, so it is rounded away. -/
theorem roundTo_eq_zero_of_le_q {c : MetroConfig} (he : 0 < c.eKg) {t : Int} (ht : t.natAbs ≤ c.q) :
    roundTo c.eHg t = 0 := by
  have hhalf : 2 * t.natAbs < c.eHg := by
    rw [c.q_eq] at ht
    rw [MetroConfig.eHg]
    omega
  rw [roundTo, roundDiv_eq_zero hhalf, zero_mul]

section Zones

variable {c : MetroConfig} {t g : Int}

theorem zoneOf_of_lt (h : g < -(20 * c.eHg : Nat)) : zoneOf c t g = .underload := by
  rw [zoneOf, if_pos h]

theorem zoneOf_of_beyond_overload (h : (c.maxHg + 9 * c.eHg : Nat) < g) : zoneOf c t g = .overload := by
  rw [zoneOf, if_neg (by omega), if_pos h]

theorem zoneOf_of_beyond_max (hmax : (c.maxHg : Int) < g) (hover : g ≤ (c.maxHg + 9 * c.eHg : Nat)) :
    zoneOf c t g = .overMax := by
  rw [zoneOf, if_neg (by omega), if_neg (by omega), if_pos hmax]

/-- From the underload limit to Max the bridge total decides between the two zones. -/
theorem zoneOf_of_in_range (hlow : -(20 * c.eHg : Nat) ≤ g) (hmax : g ≤ (c.maxHg : Int)) :
    zoneOf c t g = if t.natAbs ≤ c.q then .centreZero else .normal := by
  rw [zoneOf, if_neg (by omega), if_neg (by omega), if_neg (by omega)]

end Zones

/-- Settles O27: the rounding lemmas, and one lemma for each row of the zone table. -/
theorem roundingAndZones : Obligations.RoundingAndZones := by
  refine ⟨fun n d hd => roundDiv_nearest n hd, by decide +kernel, fun e x _ => ⟨rfl, ten_mul_roundToKg e x⟩,
    fun c => ⟨rfl, ?_, ?_, ?_, ?_⟩, fun c t he => ?_⟩
  iterate 4
    · intro he
      rw [c.q_eq, he]
  have hgross : t.natAbs ≤ c.q → roundTo c.eHg t = 0 := roundTo_eq_zero_of_le_q he
  refine ⟨hgross, zoneOf_of_lt, zoneOf_of_beyond_overload, zoneOf_of_beyond_max, fun ht => ?_, fun hlow hmax ht => ?_⟩
  · rw [hgross ht, zoneOf_of_in_range (by omega) (by omega), if_pos ht]
  · rw [zoneOf_of_in_range hlow hmax, if_neg (by omega)]

/-! ## The linearity correction (R9) -/

theorem correction_of_nonpos (table : List LinPoint) {x : Int} (hx : x ≤ 0) : correction table x = 0 := if_pos hx

theorem correction_of_pos (table : List LinPoint) {x : Int} (hx : 0 < x) :
    correction table x = correctionFrom 0 0 table x := if_neg (by omega)

section CorrectionFrom

variable {l0 : Nat} {c0 x : Int} {p : LinPoint}

theorem correctionFrom_cons_of_le (r : List LinPoint) (hx : x ≤ p.load) :
    correctionFrom l0 c0 (p :: r) x = c0 + roundDiv ((x - l0) * (p.correction - c0)) (p.load - l0) := if_pos hx

theorem correctionFrom_cons_of_lt (r : List LinPoint) (hx : p.load < x) :
    correctionFrom l0 c0 (p :: r) x = correctionFrom p.load p.correction r x := if_neg (by omega)

/-- Only the last point below a load counts of the points below it. -/
theorem correctionFrom_append_cons (pre r : List LinPoint) (hpre : ∀ w ∈ pre, w.load < p.load) (hx : p.load < x) :
    correctionFrom l0 c0 (pre ++ p :: r) x = correctionFrom p.load p.correction r x := by
  induction pre generalizing l0 c0 with
  | nil => exact correctionFrom_cons_of_lt r hx
  | cons w pre ih =>
    obtain ⟨hw, hpre⟩ := List.forall_mem_cons.mp hpre
    rw [List.cons_append, correctionFrom_cons_of_lt _ (by omega), ih hpre]

/-- The line that ends at a point reaches the point's correction there. -/
theorem correctionFrom_at_head (r : List LinPoint) (hload : l0 < p.load) :
    correctionFrom l0 c0 (p :: r) p.load = p.correction := by
  rw [correctionFrom_cons_of_le r le_rfl, ← Nat.cast_sub hload.le, roundDiv_mul_left (Nat.sub_pos_of_lt hload)]
  ring

theorem correctionFrom_at_point {table : List LinPoint} (hsorted : table.Pairwise fun v w => v.load < w.load)
    (hload : ∀ w ∈ table, l0 < w.load) (hp : p ∈ table) : correctionFrom l0 c0 table p.load = p.correction := by
  induction table generalizing l0 c0 with
  | nil => cases hp
  | cons w r ih =>
    obtain ⟨hnext, hsorted⟩ := List.pairwise_cons.mp hsorted
    obtain rfl | hp := List.mem_cons.mp hp
    · exact correctionFrom_at_head r (hload _ List.mem_cons_self)
    · rw [correctionFrom_cons_of_lt r (by exact_mod_cast hnext p hp)]
      exact ih hsorted hnext hp

end CorrectionFrom

/-- In a table of increasing loads a load above a point is read from the line that begins there. -/
theorem correction_append_cons {pre r : List LinPoint} {p : LinPoint} {x : Int}
    (hsorted : (pre ++ p :: r).Pairwise fun v w => v.load < w.load) (hx : p.load < x) :
    correction (pre ++ p :: r) x = correctionFrom p.load p.correction r x := by
  have hpre : ∀ w ∈ pre, w.load < p.load := fun w hw =>
    (List.pairwise_append.mp hsorted).2.2 w hw p List.mem_cons_self
  rw [correction_of_pos _ (by omega), correctionFrom_append_cons pre r hpre hx]

/-- Settles O28: a table cut at a point, with the line that begins there or with the value held there. -/
theorem linearityByTable : Obligations.LinearityByTable := by
  intro table x hsorted hpos
  refine ⟨?empty, correction_of_nonpos table, ?first, ?between, ?beyond, ?atPoint, rfl⟩
  case empty =>
    rintro rfl
    exact ite_self 0
  case first =>
    rintro p r rfl hx hle
    rw [correction_of_pos _ hx, correctionFrom_cons_of_le r hle]
    simp
  case between =>
    rintro pre p q post rfl hx hle
    rw [correction_append_cons hsorted hx, correctionFrom_cons_of_le post hle]
  case beyond =>
    rintro pre p rfl hx
    rw [correction_append_cons hsorted hx, correctionFrom]
  case atPoint =>
    intro p hp
    rw [correction_of_pos _ (by exact_mod_cast hpos p hp), correctionFrom_at_point hsorted hpos hp]

end Sys2Proof.Machine

/-! PROOFS. The requests of the capture controller (06_capture_operations.md): Cancel Operation, Release Vehicle and
Write Capture Settings. -/

namespace Sys2Proof.Machine

/-! ## An executed request over the state that it began in (R168) -/

section RequestWith

variable {α : Type} {k : Byte} {p : Option α} {x : α} {f : α → Ev → Ev × Reply} {s t : State} {e : Ev} {r : Reply}
  {ns : List Notice}

/-- The end of a request empties the receive buffer itself, so it does not matter that the frame's end did so before. -/
theorem executed_endFrame (k : Byte) (r : Reply) (ns : List Notice) (s0 t : State) :
    executed k r ns s0 (endFrame t) = executed k r ns s0 t := by
  have hlamp : formEntryLamp s0 (endFrame t) = endFrame (formEntryLamp s0 t) :=
    (apply_ite endFrame (t.lampInputs = s0.lampInputs) t (t.setCap { t.cap with entryLamp := t.entryLampOf })).symm
  rw [executed, hlamp]
  rfl

/-- A request that reads its payload is executed by what its own effect makes of the state without the frame. -/
theorem requestWith_executed (hp : p = some x) (h : s.ready) (hf : f x (Ev.start (endFrame s)) = (e, r))
    (hn : e.notes = ns) (ht : e.st = endFrame t) : requestWith k p f s = .next (executed k r ns s t) := by
  have hempty : (f x (Ev.start (endFrame s))).1.st.link.rxBuffer = [] := by rw [hf, ht]; rfl
  rw [hp, requestWith_some, request_executed h hempty, hf, hn, ht, executed_endFrame]

/-- An executed request that leaves the lamps and their inputs only raises its notices and answers. -/
theorem requestWith_answered (hp : p = some x) (h : s.ready) (hf : f x (Ev.start (endFrame s)) = (e, r))
    (hn : e.notes = ns) (ht : e.st = endFrame t) (hlamp : t.lampInputs = s.lampInputs)
    (hentry : t.cap.entryLamp = s.cap.entryLamp) (hexit : t.cap.exitLamp = s.cap.exitLamp) :
    requestWith k p f s = .next (answered k r ns t) := by
  rw [requestWith_executed hp h hf hn ht, executed_plain hlamp hentry hexit]

/-- A request that is refused changes nothing. -/
theorem requestWith_refused (hp : p = some x) (h : s.ready)
    (hf : f x (Ev.start (endFrame s)) = (Ev.start (endFrame s), r)) :
    requestWith k p f s = .next (answered k r [] s) :=
  requestWith_answered hp h hf rfl rfl rfl rfl rfl

end RequestWith

/-! ## The effects of the requests (R96, R105, R110) -/

section Effects

variable {n : Nat} {e : Ev}

theorem cancelOperation_of_number {op : Operation} (hslot : e.st.cap.slot = .capture op) (hn : op.number = n) :
    cancelOperation n e = (failOp op .cancelled e, Reply.bare .ok) := by
  simp only [cancelOperation, hslot, if_pos hn]

/-- Without an operation of that number nothing is cancelled, whatever holds the slot. -/
theorem cancelOperation_of_no_number (h : ∀ op, e.st.cap.slot = .capture op → op.number ≠ n) :
    cancelOperation n e = (e, Reply.bare .noSuchEntry) := by
  cases hslot : e.st.cap.slot with
  | capture op => simp only [cancelOperation, hslot, if_neg (h op hslot)]
  | free => simp only [cancelOperation, hslot]
  | adjustment sess => simp only [cancelOperation, hslot]
  | audit sess => simp only [cancelOperation, hslot]

theorem releaseVehicle_eq (e : Ev) : releaseVehicle e = (e.upd exitGreen, Reply.bare .ok) := rfl

theorem writeCaptureSettings_of_range (h : 5 ≤ n ∧ n ≤ 120) :
    writeCaptureSettings n e = (e.upd fun s => s.setCap { s.cap with timeout := n }, Reply.bare .ok) := if_pos h

theorem writeCaptureSettings_of_not_range (h : ¬(5 ≤ n ∧ n ≤ 120)) :
    writeCaptureSettings n e = (e, Reply.bare .badRequest) := if_neg h

end Effects

/-- Settles O45: each request by the equation of its effect, and the refusals by the rule that they change nothing. -/
theorem operationRequests : Obligations.OperationRequests := by
  refine ⟨fun p n s hp hready => ⟨fun op hslot hn => ?cancelled, fun hother => ?noSuchEntry⟩,
    fun s hready => ?released, fun p n s hp hready => ?settings⟩
  case cancelled => exact requestWith_executed hp hready (cancelOperation_of_number hslot hn) rfl rfl
  case noSuchEntry => exact requestWith_refused hp hready (cancelOperation_of_no_number hother)
  case released =>
    change requestWith 0xB2 (some ()) (fun _ => releaseVehicle) s = _
    exact requestWith_executed rfl hready (releaseVehicle_eq _) rfl rfl
  case settings =>
    split_ifs with hrange
    · exact requestWith_answered hp hready (writeCaptureSettings_of_range hrange) rfl rfl rfl rfl rfl
    · exact requestWith_refused hp hready (writeCaptureSettings_of_not_range hrange)

end Sys2Proof.Machine

/-! PROOFS. The link port (11_link_messages_and_notices.md): what Identify and Read Status answer, and what the resets
make of the port. -/

namespace Sys2Proof.Machine

/-! ## Identify and Read Status (R173, R174) -/

section StatusRequests

theorem exec_identify (p : List Byte) (s : State) :
    exec (.identify p) s = requestWith 0x81 (parseEmpty p) (fun _ => identify) s := rfl

theorem exec_readStatus (p : List Byte) (s : State) :
    exec (.readStatus p) s = requestWith 0x82 (parseEmpty p) (fun _ => readStatus) s := rfl

/-- A request without fields matches the empty payload (R168). -/
theorem parseEmpty_nil : parseEmpty [] = some () := if_pos rfl

/-- Identify has no effect. -/
theorem identify_eq (e : Ev) :
    identify e =
      (e, Reply.okWith (.identify vendorName partName 1 maxPayload e.st.link.baud.rate 16 4 5)) := rfl

/-- Read Status reports nothing of the receive buffer. -/
@[simp] theorem statusFields_endFrame (s : State) : statusFields (endFrame s) = statusFields s := rfl

/-- NOTICE_LOSS cleared, as Read Status leaves it (R174). -/
def clearNoticeLoss (s : State) : State := s.setLink { s.link with noticeLoss := false }

/-- The end of the frame and the clearing of NOTICE_LOSS touch different fields of the port. -/
theorem clearNoticeLoss_endFrame (s : State) : clearNoticeLoss (endFrame s) = endFrame (clearNoticeLoss s) := rfl

/-- Read Status reads its fields in the state that it finds, before NOTICE_LOSS is cleared. -/
theorem readStatus_eq (e : Ev) :
    readStatus e = (e.upd clearNoticeLoss, Reply.okWith (.status (statusFields e.st))) := rfl

/-- A notice of an enabled kind that finds 16 queued is dropped, and NOTICE_LOSS remembers it (R171). -/
theorem Link.hand_of_full {l : Link} {n : Notice} (henabled : l.mask.getLsbD n.code = true)
    (hfull : 16 ≤ l.queue.length) : l.hand n = { l with noticeLoss := true } := by
  rw [Link.hand, if_neg (by simp [henabled]), if_neg (by omega)]

/-- Identify is executed without effect (R173). -/
theorem exec_identify_of_ready {s : State} (h : s.ready) :
    exec (.identify []) s = .next (answered 0x81
      (Reply.okWith (.identify vendorName partName 1 maxPayload s.link.baud.rate 16 4 5)) [] s) := by
  rw [exec_identify]
  exact requestWith_refused parseEmpty_nil h (identify_eq _)

/-- Read Status answers the fields of the state before it, and leaves NOTICE_LOSS clear (R174). -/
theorem exec_readStatus_of_ready {s : State} (h : s.ready) :
    exec (.readStatus []) s = .next (answered 0x82
      (Reply.okWith (.status (statusFields s))) [] (clearNoticeLoss s)) := by
  have heffect : readStatus (Ev.start (endFrame s)) =
      ((Ev.start (endFrame s)).upd clearNoticeLoss, Reply.okWith (.status (statusFields s))) := by
    rw [readStatus_eq, Ev.start_st, statusFields_endFrame]
  rw [exec_readStatus]
  exact requestWith_answered parseEmpty_nil h heffect rfl (clearNoticeLoss_endFrame s) rfl rfl rfl

end StatusRequests

/-- Settles O17: the two requests by the equations of their execution, and the drop by the rule of a full queue. -/
theorem statusAndIdentity : Obligations.StatusAndIdentity := by
  refine ⟨fun s hready => ?identified, fun s hready => ?reported, fun l n henabled hfull => ?lostAgain⟩
  case identified => exact exec_identify_of_ready hready
  case reported => exact exec_readStatus_of_ready hready
  case lostAgain => rw [Link.hand_of_full henabled hfull]

/-! ## The resets (R176) -/

section Resets

variable (inputs : ResetInputs) (s : State)

theorem exec_coldStart : exec (.coldStart inputs) s = .next (coldStart inputs s) := rfl

theorem exec_powerOnReset : exec (.powerOnReset inputs) s = .next (powerOnReset inputs s) := rfl

/-- Under the main supply the RESET line makes a warm reset. -/
theorem exec_resetLine_of_supply {s : State} (h : s.mainSupply = true) :
    exec (.resetLine inputs) s = .next (warmReset inputs s) :=
  congrArg Host.Outcome.next (if_pos h)

@[simp] theorem resetStatus_link : (resetStatus s).link = s.link := rfl
@[simp] theorem resetStatus_site : (resetStatus s).site = s.site := rfl

/-- Both resets of a supply that returns load the notice mask from the settings area. -/
@[simp] theorem powerUp_link (cal : Calendar) :
    (powerUp inputs cal s).link = bootLink inputs s.site.defaultMask := by rw [powerUp, resetStatus_link]
@[simp] theorem powerUp_site (cal : Calendar) : (powerUp inputs cal s).site = s.site := by
  rw [powerUp, resetStatus_site]

@[simp] theorem coldStart_link : (coldStart inputs s).link = bootLink inputs s.site.defaultMask :=
  powerUp_link inputs s coldCal
@[simp] theorem coldStart_site : (coldStart inputs s).site = s.site := powerUp_site inputs s coldCal

@[simp] theorem powerOnReset_link : (powerOnReset inputs s).link = bootLink inputs s.site.defaultMask :=
  powerUp_link inputs s (supplyFails s).cal.powerOn
@[simp] theorem powerOnReset_site : (powerOnReset inputs s).site = s.site :=
  powerUp_site inputs s (supplyFails s).cal.powerOn

/-- A warm reset keeps the notice mask in force. -/
@[simp] theorem warmReset_link : (warmReset inputs s).link = bootLink inputs s.link.mask := by
  rw [warmReset, resetStatus_link]
@[simp] theorem warmReset_site : (warmReset inputs s).site = s.site := by rw [warmReset, resetStatus_site]

end Resets

/-- Settles O19: each reset by what it leaves of the settings area and the port that it boots. -/
theorem resetOfLinkPort : Obligations.ResetOfLinkPort := by
  refine fun inputs s => ⟨⟨_, exec_coldStart inputs s, ?coldSite, ?coldLink⟩,
    ⟨_, exec_powerOnReset inputs s, ?powerSite, ?powerLink⟩,
    fun hsupply => ⟨_, exec_resetLine_of_supply inputs hsupply, ?warmSite, ?warmLink⟩⟩
  case coldSite => rw [coldStart_site]
  case coldLink => exact coldStart_link inputs s
  case powerSite => rw [powerOnReset_site]
  case powerLink => exact powerOnReset_link inputs s
  case warmSite => rw [warmReset_site]
  case warmLink => exact warmReset_link inputs s

end Sys2Proof.Machine

/-! PROOFS. What a command can do, said once: the effects of the requests and of the events, the changes that no frame
stands around, and how a property of states goes through every step. -/

namespace Sys2Proof.Machine

/-! ## The effects (chapters 2 to 11) -/

/-- The effects of the requests but for Commit Adjustment: those that only answer, and each that changes the block. -/
inductive RequestEffect : (Ev → Ev × Reply) → Prop
  | answers {f : Ev → Ev × Reply} (h : ∀ e, (f e).1 = e) : RequestEffect f
  | readStatus : RequestEffect readStatus
  | setNoticeMask (ok : Bool) (m : BitVec 32) (b : Bool) : RequestEffect (setNoticeMask ok m b)
  | enterStandby : RequestEffect enterStandby
  | leaveStandby : RequestEffect leaveStandby
  | writeChannelSettings (n : Nat) : RequestEffect (writeChannelSettings n)
  | excludeChannel (n : Nat) : RequestEffect (excludeChannel n)
  | reinstateChannel (n : Nat) : RequestEffect (reinstateChannel n)
  | readChannel (n : Nat) : RequestEffect (readChannel n)
  | readFaultCapture : RequestEffect readFaultCapture
  | setZero : RequestEffect setZero
  | writeTreadleSettings (ok : Bool) (x : TreadleSettings) : RequestEffect (writeTreadleSettings ok x)
  | readTreadles : RequestEffect readTreadles
  | writeGroupLimits (ok : Bool) (x : GroupLimits) : RequestEffect (writeGroupLimits ok x)
  | writeClass (ok : Bool) (x) : RequestEffect (writeClass ok x)
  | startCapture (x) : RequestEffect (startCapture x)
  | cancelOperation (n : Nat) : RequestEffect (cancelOperation n)
  | releaseVehicle : RequestEffect releaseVehicle
  | writeCaptureSettings (n : Nat) : RequestEffect (writeCaptureSettings n)
  | cancelTransaction (ok : Bool) (n : Nat) : RequestEffect (cancelTransaction ok n)
  | deleteStoredTare (ok : Bool) (v : Text) : RequestEffect (deleteStoredTare ok v)
  | releaseTicket (ok : Bool) (n : Nat) : RequestEffect (releaseTicket ok n)
  | writeTicketSettings (ok : Bool) (x : TicketSettings) : RequestEffect (writeTicketSettings ok x)
  | openAdjustment : RequestEffect openAdjustment
  | stageParameter (f : StageFields) : RequestEffect (stageParameter f)
  | calibrate (k : CalKind) (d n : Nat) : RequestEffect (calibrate k d n)
  | abandonAdjustment : RequestEffect abandonAdjustment
  | openAudit : RequestEffect openAudit
  | auditStep (f : StepFields) : RequestEffect (auditStep f)
  | closeAudit (ok : Bool) : RequestEffect (closeAudit ok)
  | abandonAudit : RequestEffect abandonAudit
  | setCalendar (ok : Bool) (t : DateTime) : RequestEffect (setCalendar ok t)

/-- The effects of the events. -/
inductive EventEffect : (Ev → Ev) → Prop
  | sampleEvent (inp : SampleInput) : EventEffect (sampleEvent inp)
  | activation (ok : Bool) (l : LineNo) (el : Element) (t : Nat) : EventEffect (activation ok l el t)
  | elementClear (l : LineNo) (el : Element) : EventEffect (elementClear l el)
  | pairingGuard (l : LineNo) : EventEffect (pairingGuard l)
  | singleElementFault (l : LineNo) : EventEffect (singleElementFault l)
  | loopChange (ok : Bool) (lp : Loop) (b : Bool) : EventEffect (loopChange ok lp b)
  | switchState (b : Bool) : EventEffect (switchState b)
  | secondCarry (oks : List Bool) : EventEffect (secondCarry oks)
  | crystalStop : EventEffect crystalStop
  | crystalReturn : EventEffect crystalReturn

/-- What a command can make of a state: an event, a request, a change without a frame around it, or nothing. Commit
Adjustment is the work of its own command alone. -/
inductive Executes (c : Instr) (s : State) : State → Prop
  | same : Executes c s s
  | event {f : Ev → Ev} {t : State} (hf : EventEffect f) (hsupply : s.mainSupply = true)
      (ht : event f s = .next t) : Executes c s t
  | request {k : Byte} {f : Ev → Ev × Reply} {t : State} (hf : RequestEffect f) (ht : request k f s = .next t) :
      Executes c s t
  | commit {ok : Bool} {t : State} (hc : c = .commitAdjustment [] ok)
      (ht : request 0xD5 (commitAdjustment ok) s = .next t) : Executes c s t
  | linkError (cause : LinkCause) (k : Byte) : Executes c s (linkError cause k s)
  | endFrame : Executes c s (endFrame s)
  | transmitted (inputs : ResetInputs) : Executes c s (transmitted inputs s)
  | backupCarry (hsupply : s.mainSupply = false) : Executes c s (backupCarry s)
  | monitor (cal : Calendar) (hvalue : cal.value = s.cal.value) : Executes c s (s.setCal cal)
  | supplyFails : Executes c s (supplyFails s)
  | coldStart (inputs : ResetInputs) : Executes c s (coldStart inputs s)
  | powerOnReset (inputs : ResetInputs) : Executes c s (powerOnReset inputs s)
  | warmReset (inputs : ResetInputs) : Executes c s (warmReset inputs s)

namespace Executes

variable {c : Instr} {s t : State}

theorem ofEvent {f : Ev → Ev} (hf : EventEffect f) (ht : Machine.event f s = .next t) : Executes c s t := by
  cases h : s.mainSupply with
  | true => exact .event hf h ht
  | false =>
    rw [event_off f s h] at ht
    cases ht
    exact .same

theorem ofRequestWith {α : Type} {k : Byte} {p : Option α} {f : α → Ev → Ev × Reply} (hf : ∀ x, RequestEffect (f x))
    (ht : requestWith k p f s = .next t) : Executes c s t := by
  cases p with
  | none => exact .request (.answers fun _ => rfl) ht
  | some x => exact .request (hf x) ht

theorem ofAnswer {α : Type} {k : Byte} {p : Option α} {f : α → Ev → Ev × Reply} (hf : ∀ x e, (f x e).1 = e)
    (ht : requestWith k p f s = .next t) : Executes c s t :=
  ofRequestWith (fun x => .answers (hf x)) ht

theorem ofSampleWhen {m : Mark} {inp : SampleInput} (ht : sampleWhen m inp s = .next t) : Executes c s t := by
  unfold sampleWhen at ht
  split_ifs at ht
  · exact ofEvent (.sampleEvent inp) ht
  · cases ht; exact .same

/-- A change that is made under a condition, and otherwise none. -/
theorem ofIte {b : Bool} {s s' : State} (h : Executes c s s')
    (ht : (Host.Outcome.next (if b then s' else s) : Host.Outcome State Fault Refusal) = .next t) : Executes c s t := by
  cases ht
  cases b with
  | true => exact h
  | false => exact .same

end Executes

/-! ## The crystal monitor in the backup domain (R162) -/

theorem backupStop_value (c : Calendar) : (backupStop c).value = c.value := by
  unfold backupStop; split_ifs <;> rfl

theorem backupReturn_value (c : Calendar) : (backupReturn c).value = c.value := by
  unfold backupReturn; split_ifs <;> rfl

theorem runGap_value (c : Calendar) : (runGap c).value = c.value := by
  unfold runGap; split_ifs <;> rfl

/-! ## Requests that only answer -/

theorem readTransaction_leaves (n : Nat) (e : Ev) : (readTransaction n e).1 = e := by
  unfold readTransaction; split <;> rfl

theorem readStoredTare_leaves (v : Text) (e : Ev) : (readStoredTare v e).1 = e := by
  unfold readStoredTare; dsimp only; split <;> rfl

theorem fetchTicket_leaves (e : Ev) : (fetchTicket e).1 = e := by
  unfold fetchTicket; split <;> rfl

theorem readConfiguration_leaves (x : ConfigSelector) (e : Ev) : (readConfiguration x e).1 = e := by
  cases x with
  | stored => rfl
  | staged => unfold readConfiguration; dsimp only; split <;> rfl

theorem readAuditRecord_leaves (x : AuditSelector) (e : Ev) : (readAuditRecord x e).1 = e := by
  cases x with
  | number n => rfl
  | newest => rfl
  | session => unfold readAuditRecord; dsimp only; split <;> rfl

/-! ## Every command -/

/-- Every command does one of these things. -/
theorem exec_executes {c : Instr} {s t : State} (ht : exec c s = .next t) : Executes c s t := by
  cases c with
  | sampleEvent inp => exact .ofEvent (.sampleEvent inp) ht
  | warmupEnd inp => exact .ofSampleWhen ht
  | stuck ch inp => exact .ofSampleWhen ht
  | cleanHalfSecond ch inp => exact .ofSampleWhen ht
  | recoveryComplete ch inp => exact .ofSampleWhen ht
  | zeroTrackingStep inp => exact .ofSampleWhen ht
  | hiddenLoad inp => exact .ofSampleWhen ht
  | mapRecovery inp => exact .ofSampleWhen ht
  | unstableTimeout inp => exact .ofSampleWhen ht
  | calUnstable inp => exact .ofSampleWhen ht
  | stepFailedUnstable inp => exact .ofSampleWhen ht
  | adjustIdleAbort inp => exact .ofSampleWhen ht
  | auditIdleAbandon inp => exact .ofSampleWhen ht
  | activation line el stamp ok => exact .ofEvent (.activation ok line el stamp) ht
  | elementClear line el => exact .ofEvent (.elementClear line el) ht
  | pairingGuard line => exact .ofEvent (.pairingGuard line) ht
  | singleElementFault line => exact .ofEvent (.singleElementFault line) ht
  | loopChange lp active ok => exact .ofEvent (.loopChange ok lp active) ht
  | switchState toCal => exact .ofEvent (.switchState toCal) ht
  | secondCarry oks =>
    change execSecondCarry oks s = .next t at ht
    unfold execSecondCarry at ht
    split_ifs at ht
    · exact .ofEvent (.secondCarry oks) ht
    · rename_i hsupply
      cases ht
      exact .backupCarry (by simpa using hsupply)
  | crystalStop =>
    change execCrystalStop s = .next t at ht
    unfold execCrystalStop at ht
    split_ifs at ht
    · exact .ofEvent .crystalStop ht
    · cases ht; exact .monitor _ (backupStop_value s.cal)
  | crystalReturn =>
    change execCrystalReturn s = .next t at ht
    unfold execCrystalReturn at ht
    split_ifs at ht
    · exact .ofEvent .crystalReturn ht
    · cases ht; exact .monitor _ (backupReturn_value s.cal)
  | crystalRunGap => cases ht; exact .monitor _ (runGap_value s.cal)
  | mainSupplyLoss cause =>
    change execMainSupplyLoss cause s = .next t at ht
    cases cause with
    | supplyFails => cases ht; exact .supplyFails
    | crystalStops =>
      unfold execMainSupplyLoss at ht
      dsimp only at ht
      split_ifs at ht
      · cases ht; exact .same
      · cases ht; exact .monitor _ (backupStop_value s.cal)
  | coldStart inputs => cases ht; exact .coldStart inputs
  | powerOnReset inputs => cases ht; exact .powerOnReset inputs
  | resetLine inputs => exact .ofIte (.warmReset inputs) ht
  | frameGapTimeout => exact .ofIte .endFrame ht
  | framingError => exact .ofIte .endFrame ht
  | lengthError kind length =>
    change execLengthError kind length s = .next t at ht
    rw [execLengthError] at ht
    exact .ofIte (.linkError .length kind) ht
  | crcError kind payload crc =>
    change execCrcError kind payload crc s = .next t at ht
    rw [execCrcError] at ht
    exact .ofIte (.linkError .crc kind) ht
  | unknownRequest kind payload =>
    change execUnknownRequest kind payload s = .next t at ht
    unfold execUnknownRequest at ht
    split_ifs at ht
    · cases ht; exact .same
    · exact .request (.answers fun _ => rfl) ht
  | transmitComplete inputs => exact .ofIte (.transmitted inputs) ht
  | identify p => exact .ofAnswer (fun _ _ => rfl) ht
  | readStatus p => exact .ofRequestWith (fun _ => .readStatus) ht
  | warmReset p => exact .ofAnswer (fun _ _ => rfl) ht
  | setNoticeMask p ok =>
    change requestWith _ (parseNoticeMask p) (fun x => setNoticeMask ok x.1 x.2) s = .next t at ht
    refine .ofRequestWith (fun x => ?_) ht
    exact .setNoticeMask ok x.1 x.2
  | enterStandby p => exact .ofRequestWith (fun _ => .enterStandby) ht
  | leaveStandby p => exact .ofRequestWith (fun _ => .leaveStandby) ht
  | writeChannelSettings p => exact .ofRequestWith .writeChannelSettings ht
  | excludeChannel p => exact .ofRequestWith .excludeChannel ht
  | reinstateChannel p => exact .ofRequestWith .reinstateChannel ht
  | readChannel p => exact .ofRequestWith .readChannel ht
  | readFaultCapture p => exact .ofRequestWith (fun _ => .readFaultCapture) ht
  | setZero p => exact .ofRequestWith (fun _ => .setZero) ht
  | readWeight p => exact .ofAnswer (fun _ _ => rfl) ht
  | writeTreadleSettings p ok => exact .ofRequestWith (.writeTreadleSettings ok) ht
  | readTreadles p => exact .ofRequestWith (fun _ => .readTreadles) ht
  | readAxleMap p => exact .ofAnswer (fun _ _ => rfl) ht
  | writeGroupLimits p ok => exact .ofRequestWith (.writeGroupLimits ok) ht
  | writeClass p ok => exact .ofRequestWith (.writeClass ok) ht
  | readSiteTables p => exact .ofAnswer (fun _ _ => rfl) ht
  | startCapture p => exact .ofRequestWith .startCapture ht
  | cancelOperation p => exact .ofRequestWith .cancelOperation ht
  | releaseVehicle p => exact .ofRequestWith (fun _ => .releaseVehicle) ht
  | writeCaptureSettings p => exact .ofRequestWith .writeCaptureSettings ht
  | readTransaction p => exact .ofAnswer readTransaction_leaves ht
  | listTransactions p => exact .ofAnswer (fun _ _ => rfl) ht
  | cancelTransaction p ok => exact .ofRequestWith (.cancelTransaction ok) ht
  | readStoredTare p => exact .ofAnswer readStoredTare_leaves ht
  | listStoredTares p => exact .ofAnswer (fun _ _ => rfl) ht
  | deleteStoredTare p ok => exact .ofRequestWith (.deleteStoredTare ok) ht
  | fetchTicket p => exact .ofAnswer (fun _ => fetchTicket_leaves) ht
  | releaseTicket p ok => exact .ofRequestWith (.releaseTicket ok) ht
  | writeTicketSettings p ok => exact .ofRequestWith (.writeTicketSettings ok) ht
  | openAdjustment p => exact .ofRequestWith (fun _ => .openAdjustment) ht
  | stageParameter p => exact .ofRequestWith .stageParameter ht
  | calibrateZero p => exact .ofRequestWith (fun d => .calibrate .zero d 1) ht
  | calibrateSpan p =>
    change requestWith _ (parseDeckLoad p) (fun x => calibrate .span x.1 x.2) s = .next t at ht
    refine .ofRequestWith (fun x => ?_) ht
    exact .calibrate .span x.1 x.2
  | calibrateLinearityPoint p =>
    change requestWith _ (parseDeckLoad p) (fun x => calibrate .linearity x.1 x.2) s = .next t at ht
    refine .ofRequestWith (fun x => ?_) ht
    exact .calibrate .linearity x.1 x.2
  | commitAdjustment p ok =>
    cases p with
    | nil => exact .commit rfl ht
    | cons b r =>
      exact .request (k := 0xD5) (f := fun e => (e, Reply.bare .badRequest)) (.answers fun _ => rfl) ht
  | abandonAdjustment p => exact .ofRequestWith (fun _ => .abandonAdjustment) ht
  | readMetrologyStatus p => exact .ofAnswer (fun _ _ => rfl) ht
  | readConfiguration p => exact .ofAnswer readConfiguration_leaves ht
  | readAuditTrail p => exact .ofAnswer (fun _ _ => rfl) ht
  | openAudit p => exact .ofRequestWith (fun _ => .openAudit) ht
  | auditStep p => exact .ofRequestWith .auditStep ht
  | closeAudit p ok => exact .ofRequestWith (fun _ => .closeAudit ok) ht
  | abandonAudit p => exact .ofRequestWith (fun _ => .abandonAudit) ht
  | readAuditRecord p => exact .ofAnswer readAuditRecord_leaves ht
  | setCalendar p ok => exact .ofRequestWith (.setCalendar ok) ht
  | readCalendar p => exact .ofAnswer (fun _ _ => rfl) ht

/-- A step executes the command at the front, or idles. -/
theorem step_executes {s t : State} (ht : step s = .next t) : ∃ c r, Executes c (s.setPending r) t := by
  unfold step at ht
  split at ht
  · cases ht; exact ⟨.framingError, s.pending, .same⟩
  · rename_i c r _
    exact ⟨c, r, exec_executes ht⟩

/-! ## A property through every step -/

/-- A property that speaks neither of the queue, the link port nor the entry lamp is kept by every step when the effects,
the changes of the calendar and of the supply, and the resets keep it. -/
structure KeptByEffects (P : State → Prop) : Prop extends Blind P where
  pending : ∀ s r, P s → P (s.setPending r)
  request : ∀ f e, RequestEffect f → P e.st → P (f e).1.st
  commit : ∀ ok e, P e.st → P (commitAdjustment ok e).1.st
  event : ∀ f e, EventEffect f → P e.st → P (f e).st
  carry : ∀ s, s.mainSupply = false → P s → P (Machine.backupCarry s)
  monitor : ∀ s c, c.value = s.cal.value → P s → P (s.setCal c)
  supplyFails : ∀ s, P s → P (Machine.supplyFails s)
  coldStart : ∀ inputs s, P s → P (Machine.coldStart inputs s)
  powerOnReset : ∀ inputs s, P s → P (Machine.powerOnReset inputs s)
  warmReset : ∀ inputs s, P s → P (Machine.warmReset inputs s)

theorem KeptByEffects.executes {P : State → Prop} (h : KeptByEffects P) {c : Instr} {s t : State} (ht : Executes c s t) (hs : P s) :
    P t := by
  have hb := h.toBlind
  cases ht with
  | same => exact hs
  | event hf _ ht => exact hb.event ht hs (h.event _ _ hf hs)
  | request hf ht => exact hb.request ht hs (h.request _ _ hf (hb.endFrame hs))
  | commit hc ht => exact hb.request ht hs (h.commit _ _ (hb.endFrame hs))
  | linkError c k => exact hb.linkError hs
  | endFrame => exact hb.endFrame hs
  | transmitted inputs => exact hb.transmitted hs (h.warmReset inputs s hs)
  | backupCarry hsupply => exact h.carry s hsupply hs
  | monitor c hvalue => exact h.monitor s c hvalue hs
  | supplyFails => exact h.supplyFails s hs
  | coldStart inputs => exact h.coldStart inputs s hs
  | powerOnReset inputs => exact h.powerOnReset inputs s hs
  | warmReset inputs => exact h.warmReset inputs s hs

theorem KeptByEffects.step {P : State → Prop} (h : KeptByEffects P) {s t : State} (hs : P s)
    (ht : Machine.step s = .next t) : P t := by
  obtain ⟨c, r, hx⟩ := step_executes ht
  exact h.executes hx (h.pending s r hs)

end Sys2Proof.Machine

/-! PROOFS. The laws of the record store: what each request makes of the store and of the operation that holds the slot. -/

namespace Sys2Proof.Machine

/-! ## The course of an operation under the requests and events -/

namespace Course

theorem changeChannel (i : Chan) (c : Channel) (e : Ev) : Course e.st (changeChannel i c e).st := by
  unfold Machine.changeChannel
  dsimp only
  cases e.st.onDeck i && ((e.st.acq.channels.get i).health.included != c.health.included) with
  | false => exact ofSlot rfl rfl rfl
  | true =>
    refine Course.trans ?_ (restart _)
    exact ofSlot rfl rfl rfl

theorem excludeChannel (n : Nat) (e : Ev) : Course e.st (excludeChannel n e).1.st := by
  unfold Machine.excludeChannel
  split
  · exact refl _
  · dsimp only
    split_ifs
    · exact refl _
    · exact changeChannel _ _ e

theorem reinstateChannel (n : Nat) (e : Ev) : Course e.st (reinstateChannel n e).1.st := by
  unfold Machine.reinstateChannel
  split
  · exact refl _
  · dsimp only
    split_ifs
    · exact changeChannel _ _ e
    · exact refl _

theorem cancelOperation (n : Nat) (e : Ev) : Course e.st (cancelOperation n e).1.st := by
  unfold Machine.cancelOperation
  split
  · rename_i op hslot
    split_ifs
    · exact failOp hslot
    · exact refl _
  all_goals exact refl _

/-- A session that ends leaves no operation in the slot. -/
theorem endAdjustment (e : Ev) : Course e.st (endAdjustment e).st :=
  ofOther (by simp) (by simp) (by simp [Machine.endAdjustment, recomputeStatus_st])

theorem switchState (b : Bool) (e : Ev) : Course e.st (switchState b e).st := by
  unfold Machine.switchState
  dsimp only
  split_ifs
  · exact refl _
  · cases !b && e.st.cap.slot.isAdjustment with
    | false => exact ofSlot rfl rfl rfl
    | true =>
      refine Course.trans ?_ (endAdjustment _)
      exact ofSlot rfl rfl rfl

theorem openAdjustment (e : Ev) : Course e.st (openAdjustment e).1.st := by
  unfold Machine.openAdjustment
  dsimp only
  split
  · exact refl _
  · split
    · exact refl _
    · exact ofOther (by simp) (by simp) (by simp [recomputeStatus_st])

theorem abandonAdjustment (e : Ev) : Course e.st (abandonAdjustment e).1.st := by
  unfold Machine.abandonAdjustment
  split_ifs
  · exact endAdjustment e
  · exact refl _

theorem stageParameter (f : StageFields) (e : Ev) : Course e.st (stageParameter f e).1.st := by
  unfold Machine.stageParameter
  split
  · dsimp only
    split_ifs
    · exact ofOther rfl rfl (by simp)
    · split
      · exact ofOther rfl rfl (by simp)
      · exact ofOther rfl rfl (by simp)
  all_goals exact refl _

theorem calibrate (k : CalKind) (d n : Nat) (e : Ev) : Course e.st (calibrate k d n e).1.st := by
  unfold Machine.calibrate
  split
  · dsimp only
    split
    · exact ofOther rfl rfl (by simp)
    · split
      · exact ofOther rfl rfl (by simp)
      · split_ifs
        all_goals exact ofOther rfl rfl (by simp)
  all_goals exact refl _

theorem openAudit (e : Ev) : Course e.st (openAudit e).1.st := by
  unfold Machine.openAudit
  dsimp only
  split
  · exact refl _
  · exact ofOther rfl rfl (by simp)

theorem auditStep (f : StepFields) (e : Ev) : Course e.st (auditStep f e).1.st := by
  unfold Machine.auditStep
  split
  · exact refl _
  · unfold stepInSession
    dsimp only
    split
    · exact ofOther rfl rfl (by simp)
    · split
      · exact ofOther rfl rfl (by simp)
      · split_ifs
        all_goals exact ofOther rfl rfl (by simp)

theorem abandonAudit (e : Ev) : Course e.st (abandonAudit e).1.st := by
  unfold Machine.abandonAudit
  split
  · exact refl _
  · exact ofOther rfl rfl (by simp [abandonSession])

end Course

/-- The requests that take an operation into the slot or write the record store. -/
inductive StoreRequest : (Ev → Ev × Reply) → Prop
  | startCapture (x : CaptureFields) : StoreRequest (startCapture x)
  | cancelTransaction (ok : Bool) (n : Nat) : StoreRequest (cancelTransaction ok n)
  | deleteStoredTare (ok : Bool) (v : Text) : StoreRequest (deleteStoredTare ok v)
  | releaseTicket (ok : Bool) (n : Nat) : StoreRequest (releaseTicket ok n)
  | commitAdjustment (ok : Bool) : StoreRequest (commitAdjustment ok)
  | closeAudit (ok : Bool) : StoreRequest (closeAudit ok)
  | setCalendar (ok : Bool) (t : DateTime) : StoreRequest (setCalendar ok t)

/-- Every other request only ends the operation in the slot, if it does anything to it. -/
theorem RequestEffect.course_or {f : Ev → Ev × Reply} (hf : RequestEffect f) (e : Ev) :
    Course e.st (f e).1.st ∨ StoreRequest f := by
  cases hf with
  | answers h => rw [h]; exact .inl (.refl _)
  | startCapture x => exact .inr (.startCapture x)
  | cancelTransaction ok n => exact .inr (.cancelTransaction ok n)
  | deleteStoredTare ok v => exact .inr (.deleteStoredTare ok v)
  | releaseTicket ok n => exact .inr (.releaseTicket ok n)
  | closeAudit ok => exact .inr (.closeAudit ok)
  | setCalendar ok t => exact .inr (.setCalendar ok t)
  | excludeChannel n => exact .inl (.excludeChannel n e)
  | reinstateChannel n => exact .inl (.reinstateChannel n e)
  | cancelOperation n => exact .inl (.cancelOperation n e)
  | openAdjustment => exact .inl (.openAdjustment e)
  | abandonAdjustment => exact .inl (.abandonAdjustment e)
  | stageParameter x => exact .inl (.stageParameter x e)
  | calibrate k d n => exact .inl (.calibrate k d n e)
  | openAudit => exact .inl (.openAudit e)
  | auditStep x => exact .inl (.auditStep x e)
  | abandonAudit => exact .inl (.abandonAudit e)
  | releaseVehicle => exact .inl (.ofSlot rfl rfl rfl)
  | writeCaptureSettings n =>
    refine .inl ?_
    unfold Machine.writeCaptureSettings
    split_ifs
    all_goals exact .ofSlot rfl rfl rfl
  | _ => exact .inl (.ofSlot (by simp) (by simp) (by simp))

/-- Every event but the second carry only follows the operation in the slot. -/
theorem EventEffect.course_or {f : Ev → Ev} (hf : EventEffect f) (e : Ev) :
    Course e.st (f e).st ∨ ∃ oks, f = Machine.secondCarry oks := by
  cases hf with
  | sampleEvent inp => exact .inl (.sampleEvent inp e)
  | activation ok l el t => exact .inl (.activation ok l el t e)
  | elementClear l el => exact .inl (.ofSlot rfl rfl rfl)
  | pairingGuard l => exact .inl (.ofSlot (by simp) (by simp) (by simp))
  | singleElementFault l => exact .inl (.singleElementFault l e)
  | loopChange ok lp b => exact .inl (.loopChange ok lp b e)
  | switchState b => exact .inl (.switchState b e)
  | secondCarry oks => exact .inr ⟨oks, rfl⟩
  | crystalStop => exact .inl (.ofSlot (by simp) (by simp) (by simp))
  | crystalReturn => exact .inl (.ofSlot (by simp) (by simp) (by simp))

/-! ## What the writing requests do -/

/-- STORE_FAULT latched, as a failed store write leaves it (R114). -/
def latched (s : State) : State := s.setTm { s.tm with storeFault := true }

/-- A store write makes its change, or latches STORE_FAULT and changes nothing else (R112, R114). -/
theorem storeWrite_st (ok : Bool) (w : StoreWrite) (f : State → State) (e : Ev) :
    (storeWrite ok w f e).st = if ok then f e.st else latched e.st := by
  cases ok with
  | true => rfl
  | false => exact latchStoreFault_st w e

theorem removalWrite_st (ok : Bool) (f : Store → Store) (e : Ev) :
    (removalWrite ok f e).1.st = if ok then e.st.setStore (f e.st.store) else latched e.st :=
  storeWrite_st ok .removal _ e

/-- Cancel Transaction removes the entry, which no SECOND in the slot names (R121). -/
theorem cancelTransaction_cases (ok : Bool) (n : Nat) (e : Ev) :
    (cancelTransaction ok n e).1.st = e.st ∨ (cancelTransaction ok n e).1.st = latched e.st ∨
      (cancelTransaction ok n e).1.st = e.st.setStore (removeEntry n e.st.store) := by
  unfold cancelTransaction
  split_ifs
  · exact .inl rfl
  · exact .inl rfl
  · exact .inl rfl
  · rw [removalWrite_st]
    cases ok with
    | true => exact .inr (.inr rfl)
    | false => exact .inr (.inl rfl)

/-- Delete Stored Tare empties a slot (R126). -/
theorem deleteStoredTare_cases (ok : Bool) (v : Text) (e : Ev) :
    (deleteStoredTare ok v e).1.st = e.st ∨ (deleteStoredTare ok v e).1.st = latched e.st ∨
      ∃ i, (deleteStoredTare ok v e).1.st =
        e.st.setStore { e.st.store with tares := e.st.store.tares.set i none } := by
  unfold deleteStoredTare
  split_ifs
  · exact .inl rfl
  · split
    · exact .inl rfl
    · rename_i i _
      rw [removalWrite_st]
      cases ok with
      | true => exact .inr (.inr ⟨i, rfl⟩)
      | false => exact .inr (.inl rfl)

/-- Release Ticket takes the oldest ticket (R131). -/
theorem releaseTicket_cases (ok : Bool) (n : Nat) (e : Ev) :
    (releaseTicket ok n e).1.st = e.st ∨ (releaseTicket ok n e).1.st = latched e.st ∨
      (releaseTicket ok n e).1.st = e.st.setStore { e.st.store with tickets := e.st.store.tickets.tail } := by
  unfold releaseTicket
  split_ifs
  · exact .inl rfl
  · split
    · exact .inl rfl
    · split_ifs
      · exact .inl rfl
      · rw [removalWrite_st]
        cases ok with
        | true => exact .inr (.inr rfl)
        | false => exact .inr (.inl rfl)

/-- Start Capture refuses, or takes the operation into the slot once every check has passed (R94, R95, R97). -/
theorem startCapture_cases (x : CaptureFields) (e : Ev) :
    (startCapture x e).1 = e ∨
      ∃ r, x.request = some r ∧ captureChecks e.st r = none ∧ (startCapture x e).1 = (acceptCapture r e).1 := by
  unfold startCapture
  split
  · exact .inl rfl
  · rename_i r hr
    split_ifs
    · exact .inl rfl
    · split
      · exact .inl rfl
      · rename_i hchecks
        exact .inr ⟨r, hr, hchecks, rfl⟩

/-- Commit Adjustment refuses, fails its write, or commits a complete staged copy (R143). -/
theorem commitAdjustment_cases (ok : Bool) (e : Ev) :
    (commitAdjustment ok e).1 = e ∨ (commitAdjustment ok e).1 = latchStoreFault .commit e ∨
      ∃ sess, ok = true ∧ e.st.cap.slot = .adjustment sess ∧ sess.staged.incomplete = none ∧
        (commitAdjustment ok e).1 =
          afterCommit (e.upd fun s => s.setStore (commitStore sess.staged s.cal.value s.store)) := by
  unfold commitAdjustment
  split
  · rename_i sess hslot
    split
    · exact .inl rfl
    · split
      · exact .inl rfl
      · split
        · exact .inl rfl
        · rename_i hcomplete
          split
          · exact .inl rfl
          · cases ok with
            | true => exact .inr (.inr ⟨sess, rfl, hslot, hcomplete, rfl⟩)
            | false => exact .inr (.inl rfl)
  all_goals exact .inl rfl

/-- Close Audit refuses, fails its write, or writes the record of the session on the calendar's date (R155, R156). -/
theorem closeAudit_cases (ok : Bool) (e : Ev) :
    (closeAudit ok e).1 = e ∨ (closeAudit ok e).1 = latchStoreFault .auditClose e ∨
      ∃ x now r, ok = true ∧ e.st.cap.slot = .audit x ∧ e.st.cal.value = some now ∧
        r = auditRecordOf e.st.store now.date x.steps ∧
        (closeAudit ok e).1 = recomputeStatus (((e.upd fun s => s.setStore (auditCloseStore r s.store)).upd
          (setSlot .free)).note (.auditClosed r.number r.passed r.reasons r.due)) := by
  unfold closeAudit
  split
  · exact .inl rfl
  · rename_i x hx
    split
    · rename_i now _ hnow
      cases ok with
      | true =>
        refine .inr (.inr ⟨x, now, _, rfl, ?_, hnow, rfl, rfl⟩)
        revert hx
        cases e.st.cap.slot <;> simp [Slot.auditSession]
      | false => exact .inr (.inl rfl)
    · exact .inl rfl
    · exact .inl rfl

/-- Set Calendar refuses, fails its write, or sets the value once every check has passed (R164). -/
theorem setCalendar_cases (ok : Bool) (t : DateTime) (e : Ev) :
    (setCalendar ok t e).1 = e ∨ (setCalendar ok t e).1 = latchStoreFault .calendarSet e ∨
      (ok = true ∧ calendarChecks e.st t = none ∧ (setCalendar ok t e).1 =
        recomputeStatus (((e.upd fun s => s.setStore (s.store.addTrail (.calendarSet e.st.cal.value t))).upd
          fun s => s.setCal (s.cal.setTo t)).when e.st.cal.value.isNone (·.note (.calendarState true)))) := by
  unfold setCalendar
  split
  · exact .inl rfl
  · rename_i hchecks
    cases ok with
    | true => exact .inr (.inr ⟨rfl, hchecks, rfl⟩)
    | false => exact .inr (.inl rfl)

/-- With the slot FREE the map at a commit leaves the record store and its manager (R68, R143). -/
theorem commitMap_store {e : Ev} (h : e.st.cap.slot = .free) :
    (commitMap e).st.store = e.st.store ∧ (commitMap e).st.tm = e.st.tm ∧ (commitMap e).st.cap.slot = .free := by
  unfold commitMap formOccupancy
  dsimp only
  rw [reportToCapture_of_no_capture]
  all_goals
    simp only [Ev.when_note_st, Ev.upd_st]
    split_ifs <;> simp [h]

/-- What follows a commit leaves the record store and its manager, with the slot FREE (R143). -/
theorem afterCommit_store (e : Ev) :
    (afterCommit e).st.store = e.st.store ∧ (afterCommit e).st.tm = e.st.tm ∧ (afterCommit e).st.cap.slot = .free := by
  unfold afterCommit
  generalize hg : enterZeroPending _ = e1
  have hslot : (e1.upd restart).st.cap.slot = .free := by simp [← hg, Slot.clearCalWindow]
  obtain ⟨hstore, htm, hfree⟩ := commitMap_store hslot
  exact ⟨hstore.trans (by simp [← hg]), htm.trans (by simp [← hg]), hfree⟩

/-! ## The second carry -/

/-- What the hour event makes of the record store: entries marked, and perhaps the latch (R119). -/
structure MarksStale (a b : State) : Prop where
  slot : b.cap.slot = a.cap.slot
  reserved : b.tm.reserved = a.tm.reserved
  entries : ∃ f : OpenEntry → OpenEntry, (∀ x, (f x).vehicle = x.vehicle) ∧
    b.store = { a.store with entries := a.store.entries.map f }

theorem MarksStale.refl (a : State) : MarksStale a a :=
  ⟨rfl, rfl, id, fun _ => rfl, by simp⟩

theorem MarksStale.trans {a b c : State} (h : MarksStale a b) (k : MarksStale b c) : MarksStale a c := by
  obtain ⟨hs, hr, f, hf, h⟩ := h
  obtain ⟨ks, kr, g, hg, k⟩ := k
  refine ⟨ks.trans hs, kr.trans hr, g ∘ f, fun x => (hg _).trans (hf x), ?_⟩
  rw [k, h, List.map_map]

theorem MarksStale.ofSame {a b : State} (h1 : b.cap.slot = a.cap.slot) (h2 : b.tm.reserved = a.tm.reserved)
    (h3 : b.store = a.store) : MarksStale a b :=
  ⟨h1, h2, id, fun _ => rfl, by simp [h3]⟩

theorem staleWrites_marks (l : List OpenEntry) (oks : List Bool) (e : Ev) : MarksStale e.st (staleWrites l oks e).st := by
  induction l generalizing oks e with
  | nil => exact .refl _
  | cons x r ih =>
    unfold staleWrites
    split_ifs
    · refine MarksStale.trans ?_ (ih _ _)
      refine ⟨rfl, rfl, fun y => if y.number = x.number then { y with stale := true } else y, fun y => ?_, rfl⟩
      exact (apply_ite OpenEntry.vehicle _ _ _).trans (ite_self _)
    · rw [storeWrite_false, latchStoreFault_st]
      exact .ofSame rfl rfl rfl

theorem secondCarry_marks (oks : List Bool) (e : Ev) : MarksStale e.st (secondCarry oks e).st := by
  unfold secondCarry
  split
  · exact .refl _
  · dsimp only
    split
    · exact .ofSame (by simp [recomputeStatus_st]) (by simp) (by simp)
    · rename_i t _ _ now _
      have hhour : ∀ e1 : Ev, MarksStale e1.st (hourEvent oks now e1).st := by
        intro e1
        unfold hourEvent
        split_ifs
        · exact .refl _
        · exact staleWrites_marks _ _ _
      have hday : ∀ e1 : Ev, MarksStale e1.st (dayEvent now e1).st := fun e1 => .ofSame (by simp) (by simp) (by simp)
      refine MarksStale.trans (b := (setCalValue t.carry.value e.st)) (.ofSame rfl rfl rfl) ?_
      refine MarksStale.trans (Ev.when_rel (R := MarksStale) t.carry.hourEvent (hourEvent oks now) (e.upd (setCalValue t.carry.value))
        (.refl _) (hhour _)) ?_
      exact Ev.when_rel (R := MarksStale) _ (dayEvent now) _ (.refl _) (hday _)

theorem backupCarry_marks (s : State) : MarksStale s (backupCarry s) := by
  unfold backupCarry
  split
  · exact .refl _
  · split_ifs
    · exact .refl _
    · exact .ofSame rfl rfl rfl

/-- The loss of the supply touches the calendar only. -/
theorem supplyFails_eq (s : State) : supplyFails s = s ∨
    ∃ c, supplyFails s = (s.setMainSupply false).setCal c ∧ c.value = s.cal.value := by
  unfold supplyFails
  split_ifs
  · exact .inr ⟨_, rfl, rfl⟩
  · exact .inl rfl

end Sys2Proof.Machine

namespace Sys2Proof.Machine

/-! ## The tickets (R115, R129, R131) -/

/-- A change that leaves the tickets and their counter keeps the ticket law. -/
theorem TicketLaw.of_tickets {a b : State} (h : TicketLaw a) (h1 : b.store.tickets = a.store.tickets)
    (h2 : b.store.ticketCounter = a.store.ticketCounter) : TicketLaw b := by
  unfold TicketLaw Store.ticketsLawful
  rw [h1, h2]
  exact h

theorem TicketLaw.marksStale {a b : State} (hm : MarksStale a b) (h : TicketLaw a) : TicketLaw b := by
  obtain ⟨-, -, f, -, hstore⟩ := hm
  exact h.of_tickets (by rw [hstore]) (by rw [hstore])

theorem TicketLaw.storeRequest {f : Ev → Ev × Reply} (hf : StoreRequest f) {e : Ev} (h : TicketLaw e.st) :
    TicketLaw (f e).1.st := by
  cases hf with
  | startCapture x => exact h.of_tickets (by simp) (by simp)
  | cancelTransaction ok n => rcases cancelTransaction_cases ok n e with h1 | h1 | h1 <;> rw [h1] <;> exact h
  | deleteStoredTare ok v => rcases deleteStoredTare_cases ok v e with h1 | h1 | ⟨i, h1⟩ <;> rw [h1] <;> exact h
  | releaseTicket ok n =>
    rcases releaseTicket_cases ok n e with h1 | h1 | h1
    · rw [h1]; exact h
    · rw [h1]; exact h
    · rw [h1]; exact ticketsLawful_tail h
  | commitAdjustment ok =>
    rcases commitAdjustment_cases ok e with h1 | h1 | ⟨sess, -, -, -, h1⟩
    · rw [h1]; exact h
    · exact h.of_tickets (by simp [h1]) (by simp [h1])
    · refine h.of_tickets ?_ ?_ <;> rw [h1, (afterCommit_store _).1] <;> rfl
  | closeAudit ok =>
    rcases closeAudit_cases ok e with h1 | h1 | ⟨x, now, r, -, -, -, -, h1⟩
    · rw [h1]; exact h
    · exact h.of_tickets (by simp [h1]) (by simp [h1])
    · exact h.of_tickets (by simp [h1, auditCloseStore]) (by simp [h1, auditCloseStore])
  | setCalendar ok t =>
    rcases setCalendar_cases ok t e with h1 | h1 | ⟨-, -, h1⟩
    · rw [h1]; exact h
    · exact h.of_tickets (by simp [h1]) (by simp [h1])
    · exact h.of_tickets (by simp [h1]) (by simp [h1])

theorem ticketLaw_kept : KeptByEffects TicketLaw where
  link _ _ h := h
  lamp _ _ h := h
  pending _ _ h := h
  request f e hf h := (hf.course_or e).elim h.course fun hs => h.storeRequest hs
  commit ok _ h := h.storeRequest (.commitAdjustment ok)
  event f e hf h := by
    rcases hf.course_or e with hc | ⟨oks, rfl⟩
    · exact h.course hc
    · exact h.marksStale (secondCarry_marks oks e)
  carry s _ h := h.marksStale (backupCarry_marks s)
  monitor _ _ _ h := h
  supplyFails s h := by
    rcases supplyFails_eq s with h1 | ⟨c, h1, -⟩ <;> rw [h1] <;> exact h
  coldStart _ _ h := h
  powerOnReset _ _ h := h
  warmReset _ _ h := h

/-- Settles O7: every effect either leaves the tickets, adds the next number at the rear or takes the oldest away. -/
theorem ticketLawKept : Obligations.TicketLawKept := fun _ _ h ht => ticketLaw_kept.step h ht

/-! ## The reservation (R130) -/

/-- A change that keeps the tickets, the reservations and the operation in the slot keeps the reservation law. -/
theorem ReservationLaw.of_same {a b : State} (h : ReservationLaw a) (h1 : b.store.tickets = a.store.tickets)
    (h2 : b.tm.reserved = a.tm.reserved) (h3 : b.cap.slot = a.cap.slot) : ReservationLaw b := by
  unfold ReservationLaw
  rw [h1, h2, h3]
  exact h

/-- A change that keeps the tickets and the reservations and leaves no operation keeps the reservation law. -/
theorem ReservationLaw.of_noCapture {a b : State} (h : ReservationLaw a) (h1 : b.store.tickets = a.store.tickets)
    (h2 : b.tm.reserved = a.tm.reserved) (h3 : ∀ op, b.cap.slot ≠ .capture op) : ReservationLaw b := by
  obtain ⟨hone, hroom, -⟩ := h
  exact ⟨h2 ▸ hone, by rw [h1, h2]; exact hroom, fun op hop => absurd hop (h3 op)⟩

/-- No operation holds the slot when it is not held. -/
theorem no_capture_of_free {x : Slot} (h : x = .free) : ∀ op, x ≠ .capture op := by
  rw [h]; intro op hop; cases hop

theorem ReservationLaw.marksStale {a b : State} (hm : MarksStale a b) (h : ReservationLaw a) : ReservationLaw b := by
  obtain ⟨hslot, hreserved, f, -, hstore⟩ := hm
  exact h.of_same (by rw [hstore]) hreserved hslot

/-- An accepted Start Capture of a kind that reserves found a free ticket slot (R117, R130). -/
theorem freeSlots_of_captureChecks {s : State} {r : CaptureRequest} (h : captureChecks s r = none)
    (hk : r.kind.reserves = true) : s.freeSlots ≠ 0 := by
  unfold captureChecks at h
  split at h
  · cases h
  · split_ifs at h
    unfold tmChecks at h
    dsimp only at h
    split at h
    case h_1 hkind => simp [hkind, CaptureKind.reserves] at hk
    case h_2 hkind => simp [hkind, CaptureKind.reserves] at hk
    case h_3 =>
      split at h
      · cases h
      · split at h
        · cases h
        · split_ifs at h with h1 h2 h3
          exact h3
    case h_4 =>
      split_ifs at h with h1 h2 h3 h4 h5
      exact h5
    case h_5 hkind => simp [hkind, CaptureKind.reserves] at hk

theorem acceptCapture_slot (r : CaptureRequest) (e : Ev) :
    (acceptCapture r e).1.st.cap.slot = .capture (newOperation e.st r) := by
  unfold acceptCapture; dsimp only [Ev.note_st, Ev.upd_st]; split_ifs <;> rfl

theorem acceptCapture_store (r : CaptureRequest) (e : Ev) : (acceptCapture r e).1.st.store = e.st.store := by
  unfold acceptCapture; dsimp only [Ev.note_st, Ev.upd_st]; split_ifs <;> rfl

theorem acceptCapture_reserved (r : CaptureRequest) (e : Ev) :
    (acceptCapture r e).1.st.tm.reserved = if r.kind.reserves then 1 else e.st.tm.reserved := by
  unfold acceptCapture; dsimp only [Ev.note_st, Ev.upd_st]; split_ifs <;> rfl

theorem ReservationLaw.accept {r : CaptureRequest} {e : Ev} (h : ReservationLaw e.st)
    (hchecks : captureChecks e.st r = none) : ReservationLaw (acceptCapture r e).1.st := by
  obtain ⟨hone, hroom, -⟩ := h
  unfold ReservationLaw
  rw [acceptCapture_slot, acceptCapture_store, acceptCapture_reserved]
  cases hk : r.kind.reserves with
  | true =>
    have hfree := freeSlots_of_captureChecks hchecks hk
    unfold State.freeSlots at hfree
    exact ⟨by simp, by simp only [if_true]; omega, fun _ _ _ => rfl⟩
  | false =>
    refine ⟨hone, hroom, fun op hop hres => ?_⟩
    cases hop
    exact absurd (hk.symm.trans hres) (by decide)

theorem ReservationLaw.storeRequest {f : Ev → Ev × Reply} (hf : StoreRequest f) {e : Ev} (h : ReservationLaw e.st) :
    ReservationLaw (f e).1.st := by
  cases hf with
  | startCapture x =>
    rcases startCapture_cases x e with h1 | ⟨r, -, hchecks, h1⟩
    · rw [h1]; exact h
    · rw [h1]; exact h.accept hchecks
  | cancelTransaction ok n => rcases cancelTransaction_cases ok n e with h1 | h1 | h1 <;> rw [h1] <;> exact h
  | deleteStoredTare ok v => rcases deleteStoredTare_cases ok v e with h1 | h1 | ⟨i, h1⟩ <;> rw [h1] <;> exact h
  | releaseTicket ok n =>
    rcases releaseTicket_cases ok n e with h1 | h1 | h1
    · rw [h1]; exact h
    · rw [h1]; exact h
    · obtain ⟨hone, hroom, hslot⟩ := h
      rw [h1]
      refine ⟨hone, ?_, hslot⟩
      simp only [State.setStore_store, State.setStore_tm, List.length_tail]
      omega
  | commitAdjustment ok =>
    rcases commitAdjustment_cases ok e with h1 | h1 | ⟨sess, -, -, -, h1⟩
    · rw [h1]; exact h
    · exact h.of_same (by simp [h1]) (by simp [h1, latchStoreFault_st]) (by simp [h1])
    · obtain ⟨hstore, htm, hslot⟩ := afterCommit_store
        (e.upd fun s => s.setStore (commitStore sess.staged s.cal.value s.store))
      rw [h1]
      exact h.of_noCapture (by rw [hstore]; rfl) (by rw [htm]; rfl) (no_capture_of_free hslot)
  | closeAudit ok =>
    rcases closeAudit_cases ok e with h1 | h1 | ⟨x, now, r, -, -, -, -, h1⟩
    · rw [h1]; exact h
    · exact h.of_same (by simp [h1]) (by simp [h1, latchStoreFault_st]) (by simp [h1])
    · rw [h1]
      exact h.of_noCapture (by simp [auditCloseStore]) (by simp) (by simp)
  | setCalendar ok t =>
    rcases setCalendar_cases ok t e with h1 | h1 | ⟨-, -, h1⟩
    · rw [h1]; exact h
    · exact h.of_same (by simp [h1]) (by simp [h1, latchStoreFault_st]) (by simp [h1])
    · exact h.of_same (by simp [h1]) (by simp [h1]) (by simp [h1])

/-- A reset frees the slot and its reservation (R111, R130). -/
theorem ReservationLaw.of_reset {a b : State} (h : ReservationLaw a) (h1 : b.store = a.store)
    (h2 : b.tm.reserved = 0) (h3 : b.cap.slot = .free) : ReservationLaw b := by
  obtain ⟨-, hroom, -⟩ := h
  exact ⟨by omega, by rw [h1]; omega, fun op hop => absurd hop (no_capture_of_free h3 op)⟩

theorem reservationLaw_kept : KeptByEffects ReservationLaw where
  link _ _ h := h
  lamp _ _ h := h
  pending _ _ h := h
  request f e hf h := (hf.course_or e).elim h.course fun hs => h.storeRequest hs
  commit ok _ h := h.storeRequest (.commitAdjustment ok)
  event f e hf h := by
    rcases hf.course_or e with hc | ⟨oks, rfl⟩
    · exact h.course hc
    · exact h.marksStale (secondCarry_marks oks e)
  carry s _ h := h.marksStale (backupCarry_marks s)
  monitor _ _ _ h := h
  supplyFails s h := by
    rcases supplyFails_eq s with h1 | ⟨c, h1, -⟩ <;> rw [h1] <;> exact h
  coldStart _ _ h := h.of_reset rfl rfl rfl
  powerOnReset _ _ h := h.of_reset rfl rfl rfl
  warmReset _ _ h := h.of_reset rfl rfl rfl

/-- Settles O8: a reservation is made against a free slot, and ends with its operation. -/
theorem reservationLawKept : Obligations.ReservationLawKept := fun _ _ h ht => reservationLaw_kept.step h ht

/-! ## The two tables (R116, R117, R123) -/

theorem TableLaw.of_same {a b : State} (h : TableLaw a) (h1 : b.store.entries = a.store.entries)
    (h2 : b.store.tares = a.store.tares) (h3 : ∀ op, b.cap.slot = .capture op → a.cap.slot = .capture op) :
    TableLaw b := by
  obtain ⟨htables, hslot⟩ := h
  unfold TableLaw Store.tablesLawful Store.hasVehicle
  rw [h1, h2]
  exact ⟨htables, fun op hop => hslot op (h3 op hop)⟩

theorem TableLaw.marksStale {a b : State} (hm : MarksStale a b) (h : TableLaw a) : TableLaw b := by
  obtain ⟨hslot, -, f, hf, hstore⟩ := hm
  obtain ⟨htables, hplace⟩ := h
  unfold TableLaw
  rw [hstore, hslot]
  refine ⟨tablesLawful_map f hf htables, fun op hop hopens => ?_⟩
  obtain ⟨hlen, hvehicle⟩ := hplace op hop hopens
  refine ⟨by simpa using hlen, ?_⟩
  simpa [Store.hasVehicle, hf] using hvehicle

/-- An accepted Start Capture of a kind that opens an entry found a place, and no entry of its vehicle (R117). -/
theorem place_of_captureChecks {s : State} {r : CaptureRequest} (h : captureChecks s r = none)
    (hk : r.kind.opens = true) : s.store.entries.length < 64 ∧ s.store.hasVehicle r.vehicle = false := by
  unfold captureChecks at h
  split at h
  · cases h
  · split_ifs at h
    unfold tmChecks at h
    dsimp only at h
    split at h
    case h_1 hkind => simp [hkind, CaptureKind.opens] at hk
    case h_2 =>
      split_ifs at h with h1 h2 h3 h4
      exact ⟨by omega, by simpa using h2⟩
    case h_3 hkind => simp [hkind, CaptureKind.opens] at hk
    case h_4 =>
      split_ifs at h with h1 h2 h3 h4 h5
      exact ⟨by omega, by simpa using h2⟩
    case h_5 hkind => simp [hkind, CaptureKind.opens] at hk

theorem TableLaw.accept {r : CaptureRequest} {e : Ev} (h : TableLaw e.st) (hchecks : captureChecks e.st r = none) :
    TableLaw (acceptCapture r e).1.st := by
  unfold TableLaw
  rw [acceptCapture_slot, acceptCapture_store]
  refine ⟨h.1, fun op hop hopens => ?_⟩
  cases hop
  exact place_of_captureChecks hchecks hopens

/-- An entry removed leaves the law of the tables and the place that an operation has. -/
theorem TableLaw.remove {s : State} (n : Nat) (h : TableLaw s) : TableLaw (s.setStore (removeEntry n s.store)) := by
  obtain ⟨htables, hplace⟩ := h
  refine ⟨tablesLawful_filter _ htables, fun op hop hopens => ?_⟩
  obtain ⟨hlen, hvehicle⟩ := hplace op hop hopens
  refine ⟨(List.length_filter_le _ _).trans_lt hlen, ?_⟩
  simp only [Store.hasVehicle, List.any_eq_false, State.setStore_store, removeEntry, List.mem_filter] at hvehicle ⊢
  exact fun x hx => hvehicle x hx.1

theorem TableLaw.storeRequest {f : Ev → Ev × Reply} (hf : StoreRequest f) {e : Ev} (h : TableLaw e.st) :
    TableLaw (f e).1.st := by
  cases hf with
  | startCapture x =>
    rcases startCapture_cases x e with h1 | ⟨r, -, hchecks, h1⟩
    · rw [h1]; exact h
    · rw [h1]; exact h.accept hchecks
  | cancelTransaction ok n =>
    rcases cancelTransaction_cases ok n e with h1 | h1 | h1
    · rw [h1]; exact h
    · rw [h1]; exact h
    · rw [h1]; exact h.remove n
  | deleteStoredTare ok v =>
    rcases deleteStoredTare_cases ok v e with h1 | h1 | ⟨i, h1⟩
    · rw [h1]; exact h
    · rw [h1]; exact h
    · rw [h1]; exact ⟨tablesLawful_noTare i h.1, h.2⟩
  | releaseTicket ok n => rcases releaseTicket_cases ok n e with h1 | h1 | h1 <;> rw [h1] <;> exact h
  | commitAdjustment ok =>
    rcases commitAdjustment_cases ok e with h1 | h1 | ⟨sess, -, -, -, h1⟩
    · rw [h1]; exact h
    · exact h.of_same (by simp [h1]) (by simp [h1]) (by simp [h1])
    · obtain ⟨hstore, -, hslot⟩ := afterCommit_store
        (e.upd fun s => s.setStore (commitStore sess.staged s.cal.value s.store))
      rw [h1]
      exact h.of_same (by rw [hstore]; rfl) (by rw [hstore]; rfl) fun op hop =>
        absurd hop (no_capture_of_free hslot op)
  | closeAudit ok =>
    rcases closeAudit_cases ok e with h1 | h1 | ⟨x, now, r, -, -, -, -, h1⟩
    · rw [h1]; exact h
    · exact h.of_same (by simp [h1]) (by simp [h1]) (by simp [h1])
    · rw [h1]
      exact h.of_same (by simp [auditCloseStore]) (by simp [auditCloseStore]) (by simp)
  | setCalendar ok t =>
    rcases setCalendar_cases ok t e with h1 | h1 | ⟨-, -, h1⟩
    · rw [h1]; exact h
    · exact h.of_same (by simp [h1]) (by simp [h1]) (by simp [h1])
    · exact h.of_same (by simp [h1]) (by simp [h1]) (by simp [h1])

theorem tableLaw_kept : KeptByEffects TableLaw where
  link _ _ h := h
  lamp _ _ h := h
  pending _ _ h := h
  request f e hf h := (hf.course_or e).elim h.course fun hs => h.storeRequest hs
  commit ok _ h := h.storeRequest (.commitAdjustment ok)
  event f e hf h := by
    rcases hf.course_or e with hc | ⟨oks, rfl⟩
    · exact h.course hc
    · exact h.marksStale (secondCarry_marks oks e)
  carry s _ h := h.marksStale (backupCarry_marks s)
  monitor _ _ _ h := h
  supplyFails s h := by
    rcases supplyFails_eq s with h1 | ⟨c, h1, -⟩ <;> rw [h1] <;> exact h
  coldStart _ _ h := h.of_same rfl rfl fun op hop => by cases hop
  powerOnReset _ _ h := h.of_same rfl rfl fun op hop => by cases hop
  warmReset _ _ h := h.of_same rfl rfl fun op hop => by cases hop

/-- Settles O6: an entry is opened only where acceptance found a place and no entry of the vehicle. -/
theorem tableLawKept : Obligations.TableLawKept := fun _ _ h ht => tableLaw_kept.step h ht

end Sys2Proof.Machine

/-! PROOFS. The queue, the event counter and the calendar: what no command touches, and what only one does. -/

namespace Sys2Proof.Machine

/-! ## The queue (logs 1, 2 and 32) -/

/-- Settles O1: by the definition of a step. -/
theorem stepTakesFront : Obligations.StepTakesFront := by
  constructor
  · intro s c r h
    rw [step, h]
  · intro s h
    rw [step, h]

/-- A queue is left as it is by every effect. -/
theorem exec_pending {c : Instr} {s t : State} (ht : exec c s = .next t) : t.pending = s.pending := by
  have hb : Blind fun x => x.pending = s.pending := ⟨fun _ _ h => h, fun _ _ h => h⟩
  cases exec_executes ht with
  | same => rfl
  | event hf _ ht => exact hb.event ht rfl (by cases hf <;> simp)
  | request hf ht =>
    refine hb.request ht rfl ?_
    cases hf with
    | answers h => rw [h]; rfl
    | _ => simp
  | commit hc ht => exact hb.request ht rfl (by simp)
  | linkError cause k => exact hb.linkError rfl
  | endFrame => rfl
  | transmitted inputs => exact hb.transmitted rfl rfl
  | backupCarry _ => unfold backupCarry; split <;> (try split_ifs) <;> rfl
  | monitor cal hvalue => rfl
  | supplyFails => unfold supplyFails; split_ifs <;> rfl
  | coldStart inputs => rfl
  | powerOnReset inputs => rfl
  | warmReset inputs => rfl

theorem sampleWhen_isNext (m : Mark) (inp : SampleInput) (s : State) : ∃ t, sampleWhen m inp s = .next t := by
  unfold sampleWhen
  split_ifs
  · exact ⟨_, rfl⟩
  · exact ⟨_, rfl⟩

theorem ite_isNext {b : Prop} [Decidable b] {x y : Host.Outcome State Fault Refusal} (hx : ∃ t, x = .next t)
    (hy : ∃ t, y = .next t) : ∃ t, (if b then x else y) = .next t := by
  split_ifs
  · exact hx
  · exact hy

/-- Every command answers a next state. -/
theorem exec_isNext (c : Instr) (s : State) : ∃ t, exec c s = .next t := by
  cases c with
  | warmupEnd inp => exact sampleWhen_isNext _ _ _
  | stuck ch inp => exact sampleWhen_isNext _ _ _
  | cleanHalfSecond ch inp => exact sampleWhen_isNext _ _ _
  | recoveryComplete ch inp => exact sampleWhen_isNext _ _ _
  | zeroTrackingStep inp => exact sampleWhen_isNext _ _ _
  | hiddenLoad inp => exact sampleWhen_isNext _ _ _
  | mapRecovery inp => exact sampleWhen_isNext _ _ _
  | unstableTimeout inp => exact sampleWhen_isNext _ _ _
  | calUnstable inp => exact sampleWhen_isNext _ _ _
  | stepFailedUnstable inp => exact sampleWhen_isNext _ _ _
  | adjustIdleAbort inp => exact sampleWhen_isNext _ _ _
  | auditIdleAbandon inp => exact sampleWhen_isNext _ _ _
  | secondCarry oks => exact ite_isNext (event_isNext _ _) ⟨_, rfl⟩
  | crystalStop => exact ite_isNext (event_isNext _ _) ⟨_, rfl⟩
  | crystalReturn => exact ite_isNext (event_isNext _ _) ⟨_, rfl⟩
  | mainSupplyLoss cause =>
    cases cause with
    | supplyFails => exact ⟨_, rfl⟩
    | crystalStops => exact ite_isNext ⟨_, rfl⟩ ⟨_, rfl⟩
  | unknownRequest kind payload => exact ite_isNext ⟨_, rfl⟩ (request_isNext _ _ _)
  | _ => exact ⟨_, rfl⟩

/-- Settles O2: every arm answers a next state, and no effect touches the queue. -/
theorem noCommandStops : Obligations.NoCommandStops := by
  intro c s
  obtain ⟨t, ht⟩ := exec_isNext c s
  exact ⟨t, ht, exec_pending ht⟩

/-! ## The metrological event counter (R144) -/

/-- The counter of `t` is that of `s`, or a commit of the session in the slot of `s` has raised it by one. -/
def CounterCommitted (ok : Bool) (s t : State) : Prop :=
  t.store.eventCounter = s.store.eventCounter ∨
    ∃ sess, ok = true ∧ s.cap.slot = .adjustment sess ∧ t.store.eventCounter = s.store.eventCounter + 1 ∧
      t.store.config = sess.staged

/-- A commit that is made raises the counter and stores the staged copy; any other outcome leaves the counter. -/
theorem commitAdjustment_counter (ok : Bool) (e : Ev) : CounterCommitted ok e.st (commitAdjustment ok e).1.st := by
  rcases commitAdjustment_cases ok e with h | h | ⟨sess, hok, hslot, -, h⟩
  · exact .inl (by rw [h])
  · exact .inl (by simp [h])
  · refine .inr ⟨sess, hok, hslot, ?_, ?_⟩
    · rw [h, (afterCommit_store _).1]; rfl
    · rw [h, (afterCommit_store _).1]; rfl

/-- Settles O13: of all effects only that of Commit Adjustment touches the counter. -/
theorem eventCounterRaised : Obligations.EventCounterRaised := by
  intro c s t ht
  have hb : Blind fun x => x.store.eventCounter = s.store.eventCounter := ⟨fun _ _ h => h, fun _ _ h => h⟩
  cases exec_executes ht with
  | same => exact .inl rfl
  | event hf _ ht => exact .inl (hb.event ht rfl (by cases hf <;> simp))
  | request hf ht =>
    refine .inl (hb.request ht rfl ?_)
    cases hf with
    | answers h => rw [h]; rfl
    | closeAudit ok =>
      rcases closeAudit_cases ok (Ev.start (endFrame s)) with h | h | ⟨x, now, r, -, -, -, -, h⟩
      · rw [h]; rfl
      · simp [h]
      · simp [h, auditCloseStore]
    | _ => simp
  | commit hc ht =>
    rename_i ok
    have hb : Blind (CounterCommitted ok s) := ⟨fun _ _ h => h, fun _ _ h => h⟩
    have hx : CounterCommitted ok s t :=
      hb.request ht (.inl rfl) (commitAdjustment_counter ok (Ev.start (endFrame s)))
    rcases hx with hx | ⟨sess, hok, hslot, hcounter, hconfig⟩
    · exact .inl hx
    · exact .inr ⟨sess, by rw [hc, hok], hslot, hcounter, hconfig⟩
  | linkError cause k => exact .inl (hb.linkError rfl)
  | endFrame => exact .inl rfl
  | transmitted inputs => exact .inl (hb.transmitted rfl rfl)
  | backupCarry _ =>
    obtain ⟨-, -, f, -, h⟩ := backupCarry_marks s
    exact .inl (by rw [h])
  | monitor cal hvalue => exact .inl rfl
  | supplyFails => rcases supplyFails_eq s with h | ⟨_, h, -⟩ <;> rw [h] <;> exact .inl rfl
  | coldStart inputs => exact .inl rfl
  | powerOnReset inputs => exact .inl rfl
  | warmReset inputs => exact .inl rfl

/-! ## The calendar and the newest audit record (R155, R164) -/

/-- A change that leaves the audit records and the calendar's value keeps the calendar law. -/
theorem CalendarLaw.of_same {a b : State} (h : CalendarLaw a) (h1 : b.store.audits = a.store.audits)
    (h2 : b.cal.value = a.cal.value) : CalendarLaw b := by
  intro t r ht hr
  exact h t r (h2 ▸ ht) (by rwa [Store.newestAudit, h1] at hr)

/-- An UNSET calendar lies before no record. -/
theorem CalendarLaw.of_unset {b : State} (h : b.cal.value = none) : CalendarLaw b := by
  intro t r ht
  rw [h] at ht
  cases ht

/-- A second carry on the records and the value keeps the calendar law (R161). -/
theorem CalendarLaw.of_carry {a b : State} {t : DateTime} (h : CalendarLaw a) (ht : a.cal.value = some t)
    (h1 : b.store.audits = a.store.audits) (h2 : b.cal.value = t.carry.value) : CalendarLaw b := by
  intro v r hv hr
  rw [Store.newestAudit, h1] at hr
  exact DateTime.carry_notBefore t v r.date (h t r ht hr) (h2 ▸ hv)

/-- A calendar set by R164 does not lie before the newest record. -/
theorem CalendarLaw.of_set {a b : State} {t : DateTime} (hchecks : calendarChecks a t = none)
    (h1 : b.store.audits = a.store.audits) (h2 : b.cal.value = some t) : CalendarLaw b := by
  intro v r hv hr
  rw [h2] at hv
  rw [Store.newestAudit, h1, ← Store.newestAudit] at hr
  cases hv
  unfold calendarChecks at hchecks
  rw [hr] at hchecks
  split_ifs at hchecks with h3 h4
  simpa using h4

/-- The record of an audit closed now bears the calendar's date (R156). -/
theorem CalendarLaw.of_close {a b : State} {now : DateTime} {x : List StepRecord}
    (hnow : a.cal.value = some now)
    (h1 : b.store.audits = (auditCloseStore (auditRecordOf a.store now.date x) a.store).audits)
    (h2 : b.cal.value = a.cal.value) : CalendarLaw b := by
  intro v r hv hr
  rw [h2, hnow] at hv
  rw [Store.newestAudit, h1] at hr
  simp only [auditCloseStore, addTrail_audits, List.getLast?_concat] at hr
  cases hv
  cases hr
  exact Date.before_self _

theorem secondCarry_value (oks : List Bool) (e : Ev) : (secondCarry oks e).st.store.audits = e.st.store.audits ∧
    (e.st.cal.value = none ∧ secondCarry oks e = e ∨
      ∃ t, e.st.cal.value = some t ∧ (secondCarry oks e).st.cal.value = t.carry.value) := by
  refine ⟨by simp, ?_⟩
  unfold secondCarry
  split
  · rename_i h
    exact .inl ⟨h, rfl⟩
  · rename_i t h
    refine .inr ⟨t, h, ?_⟩
    dsimp only
    split
    · rename_i hc
      simp [setCalValue, hc]
    · rename_i now hc
      have hcal : ∀ (b d : Bool) (e1 : Ev),
          ((e1.when b (hourEvent oks now)).when d (dayEvent now)).st.cal = e1.st.cal := by
        intro b d e1
        cases b <;> cases d <;> simp
      rw [hcal, hc]
      simp [setCalValue]

theorem calendarLaw_kept : KeptByEffects CalendarLaw where
  link _ _ h := h
  lamp _ _ h := h
  pending _ _ h := h
  request f e hf h := by
    cases hf with
    | answers hx => rw [hx]; exact h
    | closeAudit ok =>
      rcases closeAudit_cases ok e with h1 | h1 | ⟨x, now, r, -, -, hnow, hr, h1⟩
      · rw [h1]; exact h
      · exact h.of_same (by simp [h1]) (by simp [h1])
      · rw [h1, hr]
        exact CalendarLaw.of_close (x := x.steps) hnow (by simp) (by simp)
    | setCalendar ok t =>
      rcases setCalendar_cases ok t e with h1 | h1 | ⟨-, hchecks, h1⟩
      · rw [h1]; exact h
      · exact h.of_same (by simp [h1]) (by simp [h1])
      · exact CalendarLaw.of_set hchecks (by simp) (by simp [h1, Calendar.setTo])
    | _ => exact h.of_same (by simp) (by simp)
  commit ok e h := h.of_same (by simp) (by simp)
  event f e hf h := by
    cases hf with
    | secondCarry oks =>
      obtain ⟨haudits, ⟨-, hc⟩ | ⟨t, ht, hc⟩⟩ := secondCarry_value oks e
      · rw [hc]; exact h
      · exact h.of_carry ht haudits hc
    | crystalStop => exact h.of_same (by simp) (by unfold crystalStop; split_ifs <;> rfl)
    | crystalReturn => exact h.of_same (by simp) (by unfold crystalReturn; split_ifs <;> rfl)
    | _ => exact h.of_same (by simp) (by simp)
  carry s _ h := by
    unfold backupCarry
    split
    · exact h
    · rename_i t ht
      split_ifs
      · exact h
      · exact h.of_carry ht rfl rfl
  monitor s c hc h := h.of_same rfl hc
  supplyFails s h := by
    rcases supplyFails_eq s with h1 | ⟨c, h1, hc⟩
    · rw [h1]; exact h
    · rw [h1]; exact h.of_same rfl hc
  coldStart _ _ _ := .of_unset rfl
  powerOnReset inputs s h := by
    have hvalue : (supplyFails s).cal.value = s.cal.value := by
      rcases supplyFails_eq s with h1 | ⟨c, h1, hc⟩
      · rw [h1]
      · rw [h1]; exact hc
    by_cases hstop : (supplyFails s).cal.stopRecord = true
    · exact .of_unset (if_pos hstop)
    · exact h.of_same rfl ((if_neg hstop).trans hvalue)
  warmReset _ _ h := h.of_same rfl rfl

/-- Settles O10: the value only counts forwards, is set not before the newest record, and dates a new record itself. -/
theorem calendarLawKept : Obligations.CalendarLawKept := fun _ _ h ht => calendarLaw_kept.step h ht

end Sys2Proof.Machine

/-! PROOFS. The axle map law (04, 4.3) through every operation of the axle map unit. -/

namespace Sys2Proof.Machine

/-! ## Changes beside the vehicle record -/

/-- The vehicle record of `m` is that of `m'`: the lists, their counts and the certainty. -/
structure AxleMap.SameRecord (m m' : AxleMap) : Prop where
  decks : m'.decks = m.decks
  exited : m'.exited = m.exited
  entered : m'.entered = m.entered
  exitedCount : m'.exitedCount = m.exitedCount
  certain : m'.certain = m.certain

theorem AxleMap.SameRecord.lawful {n : Nat} {m m' : AxleMap} (hs : m.SameRecord m') (h : m.lawful n) :
    m'.lawful n := by
  obtain ⟨hdecks, hexited, hentered, hcount, hcertain⟩ := hs
  unfold AxleMap.lawful AxleMap.numbers
  rw [hdecks, hexited, hentered, hcount, hcertain]
  exact h

/-- A map that becomes CERTAIN with its record as it was stays lawful (R72). -/
theorem lawful_recovered {n : Nat} {m : AxleMap} (k : Nat) (h : m.lawful n) :
    AxleMap.lawful n { m with certain := true, recoveryCount := k } := by
  obtain ⟨hnumbers, hmost, hcount, hinactive, -⟩ := h
  exact ⟨hnumbers, hmost, hcount, hinactive, fun hf => by cases hf⟩

/-- Nothing lies on an UNCERTAIN map, over whatever decks (R68). -/
theorem lawful_of_uncertain {n n' : Nat} {m : AxleMap} (h : m.lawful n) (hc : m.certain = false) : m.lawful n' := by
  obtain ⟨hnumbers, -, hcount, -, hnone⟩ := h
  have hentered := hnone hc
  rw [hentered, List.range'_zero] at hnumbers
  simp only [AxleMap.numbers, List.map_eq_nil_iff, List.append_eq_nil_iff] at hnumbers
  obtain ⟨hexited, h3, h2, h1, h0⟩ := hnumbers
  refine lawful_empty hentered hexited (by rw [hcount, hexited]; rfl) fun d => ?_
  fin_cases d
  · exact h0
  · exact h1
  · exact h2
  · exact h3

/-! ## The operations of the axle map unit -/

section
variable {n : Nat} {e : Ev}

theorem formOccupancy_lawful (h : e.st.axle.lawful n) (ok : Bool) (m : AxleMap) (c : Bool) (l : Option LossCause) :
    (formOccupancy ok m c l e).st.axle.lawful n := by
  rw [formOccupancy_axle]
  exact AxleMap.SameRecord.lawful ⟨rfl, rfl, rfl, rfl, rfl⟩ h

theorem loseCertainty_lawful (h : e.st.axle.lawful n) (c : LossCause) (line : Option LineNo) :
    (loseCertainty c line e).st.axle.lawful n := by
  unfold loseCertainty
  split_ifs
  · exact lawful_lose n c _
  · exact AxleMap.SameRecord.lawful (m := e.st.axle) ⟨rfl, rfl, rfl, rfl, rfl⟩ h

/-- A loss of a CERTAIN map is lawful over any number of decks (R68). -/
theorem loseCertainty_lawful_of_certain (hc : e.st.axle.certain = true) (c : LossCause) (line : Option LineNo)
    (n : Nat) : (loseCertainty c line e).st.axle.lawful n := by
  unfold loseCertainty
  rw [if_pos hc]
  exact lawful_lose n c _

theorem serveHiddenLoad_lawful (h : e.st.axle.lawful n) (r : SampleResult) :
    (serveHiddenLoad r e).1.st.axle.lawful n := by
  unfold serveHiddenLoad
  dsimp only
  split_ifs
  · exact AxleMap.SameRecord.lawful (m := e.st.axle) ⟨rfl, rfl, rfl, rfl, rfl⟩ h
  · exact loseCertainty_lawful h _ _
  · exact AxleMap.SameRecord.lawful (m := e.st.axle) ⟨rfl, rfl, rfl, rfl, rfl⟩ h

theorem serveRecovery_lawful (h : e.st.axle.lawful n) (r : SampleResult) : (serveRecovery r e).st.axle.lawful n := by
  unfold serveRecovery
  dsimp only
  split_ifs
  · exact AxleMap.SameRecord.lawful (m := e.st.axle) ⟨rfl, rfl, rfl, rfl, rfl⟩ h
  · exact lawful_recovered 0 h
  · exact AxleMap.SameRecord.lawful (m := e.st.axle) ⟨rfl, rfl, rfl, rfl, rfl⟩ h

theorem serveMap_lawful (h : e.st.axle.lawful n) (ok : Bool) (r : SampleResult) :
    (serveMap ok r e).st.axle.lawful n := by
  unfold serveMap
  dsimp only
  split_ifs
  · exact formOccupancy_lawful (serveHiddenLoad_lawful h r) _ _ _ _
  · exact formOccupancy_lawful (serveRecovery_lawful h r) _ _ _ _

/-- At a sample event the map is what the axle map unit makes of it. -/
theorem sampleEvent_lawful (h : e.st.axle.lawful n) (inp : SampleInput) :
    (sampleEvent inp e).st.axle.lawful n := by
  unfold sampleEvent serveResult
  simp only [warmupEnd_keeps, serveAuditIdle_keeps, serveAdjustIdle_keeps, serveStep_keeps, serveCalibration_keeps,
    serveOperation_keeps]
  exact serveMap_lawful (by simpa using h) _ _

theorem singleElementFault_lawful (h : e.st.axle.lawful n) (l : LineNo) :
    (singleElementFault l e).st.axle.lawful n := by
  unfold singleElementFault
  dsimp only
  split
  · exact h
  · refine formOccupancy_lawful (loseCertainty_lawful ?_ _ _) _ _ _ _
    exact AxleMap.SameRecord.lawful (m := e.st.axle) ⟨rfl, rfl, rfl, rfl, rfl⟩ h

theorem pairingGuard_lawful (h : e.st.axle.lawful n) (l : LineNo) : (pairingGuard l e).st.axle.lawful n := by
  unfold pairingGuard
  dsimp only
  split
  · exact h
  · exact AxleMap.SameRecord.lawful (m := e.st.axle) ⟨rfl, rfl, rfl, rfl, rfl⟩ h

theorem AxleMap.loopChange_lawful {m : AxleMap} (h : m.lawful n) (lp : Loop) (b : Bool) :
    (m.loopChange lp b).lawful n := by
  have hclear : ∀ m' : AxleMap, m.SameRecord m' → (if b then m' else m'.clearIfGone).lawful n := by
    intro m' hs
    split_ifs
    · exact hs.lawful h
    · exact lawful_clearIfGone (hs.lawful h)
  cases lp with
  | entry =>
    refine hclear _ ?_
    split_ifs
    · exact ⟨rfl, rfl, rfl, rfl, rfl⟩
    · exact ⟨rfl, rfl, rfl, rfl, rfl⟩
  | exit => exact hclear { m with loopExit := b } ⟨rfl, rfl, rfl, rfl, rfl⟩

theorem loopChange_lawful (h : e.st.axle.lawful n) (ok : Bool) (lp : Loop) (b : Bool) :
    (loopChange ok lp b e).st.axle.lawful n := by
  unfold loopChange
  dsimp only
  split_ifs
  · exact h
  · refine formOccupancy_lawful ?_ _ _ _ _
    have hwake : ∀ x, ((e.upd fun s => s.setAxle (s.axle.loopChange lp b)).when x wake).st.axle =
        e.st.axle.loopChange lp b := by
      intro x; cases x <;> simp
    simp only [Ev.upd_st, restart_axle]
    exact (hwake _).symm ▸ AxleMap.loopChange_lawful h lp b

end

/-! ## Crossings -/

theorem deckCount_le (c : MetroConfig) : c.deckCount ≤ 4 := List.length_filter_le _ _

section
variable {n : Nat} {e : Ev}

/-- A crossing of a decoded line keeps the law (R65 to R68). -/
theorem applyCrossing_lawful {c : Crossing} (hcount : e.st.store.config.deckCount = n) (h : e.st.axle.lawful n)
    (hn : c.line.val ≤ n) (h1 : 1 ≤ n) : (applyCrossing c e).1.st.axle.lawful n := by
  unfold applyCrossing
  dsimp only
  split
  · exact h
  · rename_i hc
    have hcertain : e.st.axle.certain = true := by simpa using hc
    split
    · rename_i m a hmoved
      rw [hcount] at hmoved
      have hm := lawful_crossing hn (hcount ▸ deckCount_le _) h1 h hcertain hmoved
      simp only [Ev.upd_st, State.setAxle_axle]
      split_ifs
      · exact lawful_clearIfGone hm
      · exact hm
    · refine loseCertainty_lawful_of_certain ?_ _ _ _
      split_ifs
      · exact hcertain
      · exact hcertain

theorem decodeCrossing_lawful {c : Crossing} (ok : Bool) (hcount : e.st.store.config.deckCount = n)
    (h : e.st.axle.lawful n) (hn : c.line.val ≤ n) (h1 : 1 ≤ n) : (decodeCrossing ok c e).st.axle.lawful n := by
  unfold decodeCrossing
  refine formOccupancy_lawful ?_ _ _ _ _
  simp only [Ev.upd_st, restart_axle, Ev.note_st]
  exact applyCrossing_lawful hcount h hn h1

theorem decodeActivation_lawful {line : LineNo} (ok : Bool) (el : Element) (t : Nat)
    (hcount : e.st.store.config.deckCount = n) (h : e.st.axle.lawful n) (hn : line.val ≤ n) (h1 : 1 ≤ n) :
    (decodeActivation ok line el t e).st.axle.lawful n := by
  have hline : ∀ l, (e.upd fun s => s.setAxle (s.axle.setLine line l)).st.axle.lawful n := fun l =>
    AxleMap.SameRecord.lawful (m := e.st.axle) ⟨rfl, rfl, rfl, rfl, rfl⟩ h
  unfold decodeActivation
  dsimp only
  split
  · exact hline _
  · exact decodeCrossing_lawful ok hcount (hline _) hn h1

/-- An activation keeps the law: a line is decoded only under a valid configuration and up to line N (R59). -/
theorem activation_lawful (hcount : e.st.store.config.deckCount = n) (h : e.st.axle.lawful n)
    (hvalid : e.st.metro.valid = true → 1 ≤ n) (ok : Bool) (line : LineNo) (el : Element) (t : Nat) :
    (activation ok line el t e).st.axle.lawful n := by
  unfold activation
  dsimp only
  split_ifs
  · exact h
  · generalize hlevel : e.upd _ = e1
    have haxle : e1.st.axle.lawful n := by
      subst hlevel
      exact AxleMap.SameRecord.lawful (m := e.st.axle) ⟨rfl, rfl, rfl, rfl, rfl⟩ h
    have hstore : e1.st.store = e.st.store := by subst hlevel; rfl
    have hmetro : e1.st.metro = e.st.metro := by subst hlevel; rfl
    generalize hwoken : e1.when _ wake = e2
    have haxle2 : e2.st.axle = e1.st.axle := by subst hwoken; cases decide (line.val = 0) <;> simp
    have hstore2 : e2.st.store = e.st.store := by subst hwoken; cases decide (line.val = 0) <;> simp [hstore]
    have hmetro2 : e2.st.metro = e.st.metro := by subst hwoken; cases decide (line.val = 0) <;> simp [hmetro]
    cases hdecoded : e2.st.decoded line with
    | false => rw [Ev.when_false, haxle2]; exact haxle
    | true =>
      simp only [State.decoded, Bool.and_eq_true, decide_eq_true_eq, hstore2, hmetro2, hcount] at hdecoded
      exact decodeActivation_lawful ok el t (hstore2 ▸ hcount) (haxle2 ▸ haxle) hdecoded.2 (hvalid hdecoded.1)

end

/-! ## The commit and the resets (R68, R75, R135) -/

/-- A complete configuration has an active deck (R134). -/
theorem deckCount_pos_of_complete {c : MetroConfig} (h : c.incomplete = none) : 1 ≤ c.deckCount := by
  unfold MetroConfig.incomplete at h
  split_ifs at h with hnone
  exact List.length_pos_iff.mpr hnone

/-- A configuration that passes the start-up check has an active deck (R135). -/
theorem deckCount_pos_of_startup {st : Store} (h : startupValid st = true) : 1 ≤ st.config.deckCount := by
  simp only [startupValid, Bool.and_eq_true, bne_iff_ne] at h
  exact List.length_pos_iff.mpr h.2

/-- The map at a commit is lawful over the decks of any configuration: it becomes UNCERTAIN, or was so (R68). -/
theorem commitMap_lawful {n n' : Nat} {e : Ev} (h : e.st.axle.lawful n) : (commitMap e).st.axle.lawful n' := by
  unfold commitMap
  dsimp only
  refine formOccupancy_lawful ?_ _ _ _ _
  have hidle : ∀ m : AxleMap, m.lawful n' → m.idlePairings.lawful n' := fun m hm =>
    AxleMap.SameRecord.lawful ⟨rfl, rfl, rfl, rfl, rfl⟩ hm
  refine hidle _ ?_
  split_ifs with hc
  · exact loseCertainty_lawful_of_certain hc _ _ _
  · exact AxleMap.SameRecord.lawful (m := e.st.axle) ⟨rfl, rfl, rfl, rfl, rfl⟩
      (lawful_of_uncertain h (by simpa using hc))

theorem AxleLaw.commit {e : Ev} (ok : Bool) (h : AxleLaw e.st) : AxleLaw (commitAdjustment ok e).1.st := by
  rcases commitAdjustment_cases ok e with h1 | h1 | ⟨sess, -, -, hcomplete, h1⟩
  · rw [h1]; exact h
  · rw [h1]; simpa [AxleLaw] using h
  · rw [h1]
    have hconfig : (afterCommit (e.upd fun s => s.setStore (commitStore sess.staged s.cal.value s.store))).st.store.config
        = sess.staged := by rw [(afterCommit_store _).1]; rfl
    refine ⟨?_, fun _ => ?_⟩
    · rw [hconfig]
      exact commitMap_lawful (n := e.st.store.config.deckCount) (by simpa using h.1)
    · rw [hconfig]
      exact deckCount_pos_of_complete hcomplete

/-- The map after a reset is lawful over any number of decks (R75). -/
theorem bootAxle_lawful (inputs : ResetInputs) (t n : Nat) : (bootAxle inputs t).lawful n :=
  lawful_empty rfl rfl rfl fun d => Bank.get_fill [] d

/-- A change that leaves the map's record, the configuration and its validity keeps the axle law. -/
theorem AxleLaw.of_same {a b : State} (h : AxleLaw a) (hmap : b.axle.lawful a.store.config.deckCount)
    (h1 : b.store.config = a.store.config) (h2 : b.metro.valid = a.metro.valid) : AxleLaw b := by
  unfold AxleLaw
  rw [h1, h2]
  exact ⟨hmap, h.2⟩

theorem axleLaw_kept : KeptByEffects AxleLaw where
  link _ _ h := h
  lamp _ _ h := h
  pending _ _ h := h
  request f e hf h := by
    cases hf with
    | answers hx => rw [hx]; exact h
    | readTreadles =>
      exact h.of_same (AxleMap.SameRecord.lawful (m := e.st.axle) ⟨rfl, rfl, rfl, rfl, rfl⟩ h.1) rfl rfl
    | closeAudit ok =>
      rcases closeAudit_cases ok e with h1 | h1 | ⟨x, now, r, -, -, -, -, h1⟩
      · rw [h1]; exact h
      · rw [h1]; exact h.of_same (by simpa using h.1) (by simp) (by simp)
      · rw [h1]; exact h.of_same (by simpa using h.1) (by simp [auditCloseStore]) (by simp)
    | _ => exact h.of_same (by simpa using h.1) (by simp) (by simp)
  commit ok e h := h.commit ok
  event f e hf h := by
    cases hf with
    | sampleEvent inp => exact h.of_same (sampleEvent_lawful h.1 inp) (by simp) (by simp)
    | activation ok l el t => exact h.of_same (activation_lawful rfl h.1 h.2 ok l el t) (by simp) (by simp)
    | elementClear l el =>
      exact h.of_same (AxleMap.SameRecord.lawful (m := e.st.axle) ⟨rfl, rfl, rfl, rfl, rfl⟩ h.1) rfl rfl
    | pairingGuard l => exact h.of_same (pairingGuard_lawful h.1 l) (by simp) (by simp)
    | singleElementFault l => exact h.of_same (singleElementFault_lawful h.1 l) (by simp) (by simp)
    | loopChange ok lp b => exact h.of_same (loopChange_lawful h.1 ok lp b) (by simp) (by simp)
    | _ => exact h.of_same (by simpa using h.1) (by simp) (by simp)
  carry s _ h := by unfold backupCarry; split <;> (try split_ifs) <;> exact h
  monitor _ _ _ h := h
  supplyFails s h := by
    rcases supplyFails_eq s with h1 | ⟨c, h1, -⟩ <;> rw [h1] <;> exact h
  coldStart inputs s _ := ⟨bootAxle_lawful inputs _ _, deckCount_pos_of_startup⟩
  powerOnReset inputs s _ := ⟨bootAxle_lawful inputs _ _, deckCount_pos_of_startup⟩
  warmReset inputs s h := ⟨bootAxle_lawful inputs _ _, h.2⟩

/-- Settles O5: each operation of the axle map unit keeps the law, and no other touches the map's record. -/
theorem axleLawKept : Obligations.AxleLawKept := fun _ _ h ht => axleLaw_kept.step h ht

end Sys2Proof.Machine

/-! PROOFS. The metrology status (R147): what it is, and that every effect leaves it that of the state as it then stands. -/

namespace Sys2Proof.Machine

/-! ## The reasons -/

/-- The newest audit record while it has the current event counter (R147). -/
def Store.currentAudit (st : Store) : Option AuditRecord :=
  match st.newestAudit with
  | none => none
  | some r => if r.counter = st.eventCounter then some r else none

theorem Store.currentAudit_eq_some {st : Store} {x : AuditRecord} :
    st.currentAudit = some x ↔ st.audits.getLast? = some x ∧ x.counter = st.eventCounter := by
  unfold Store.currentAudit Store.newestAudit
  cases h : st.audits.getLast? with
  | none => simp
  | some r =>
    simp only [Option.ite_none_right_eq_some, Option.some.injEq]
    constructor
    · rintro ⟨hc, rfl⟩; exact ⟨rfl, hc⟩
    · rintro ⟨rfl, hc⟩; exact ⟨hc, rfl⟩

/-- The reasons, with the record that they go by named (R147). -/
theorem statusReasons_eq (valid adjusting : Bool) (st : Store) (now : Option DateTime) :
    statusReasons valid adjusting st now =
      { uncalibrated := !valid
        adjusting := adjusting
        auditRequired := st.currentAudit.isNone
        auditFailed := st.currentAudit.any fun r => !r.passed
        auditOverdue := st.currentAudit.any fun r => r.passed && overdue r.due now
        timeUnset := now.isNone } := by
  unfold statusReasons Store.currentAudit
  cases st.newestAudit with
  | none => rfl
  | some r =>
    dsimp only
    split_ifs <;> rfl

theorem overdue_iff {due : Option Date} {now : Option DateTime} : overdue due now = true ↔
    ∃ d t, due = some d ∧ now = some t ∧ d.dayNumber < t.date.dayNumber := by
  cases due <;> cases now <;> simp [overdue]

/-- TRADE_READY: none of the six reasons applies. -/
theorem tradeReady_iff (r : StatusReasons) : r.tradeReady = true ↔ r.uncalibrated = false ∧ r.adjusting = false ∧
    r.auditRequired = false ∧ r.auditFailed = false ∧ r.auditOverdue = false ∧ r.timeUnset = false := by
  simp [StatusReasons.tradeReady, StatusReasons.list]

/-! ## The law through the effects -/

theorem Store.currentAudit_congr {a b : Store} (h1 : b.audits = a.audits) (h2 : b.eventCounter = a.eventCounter) :
    b.currentAudit = a.currentAudit := by
  unfold Store.currentAudit Store.newestAudit
  rw [h1, h2]

/-- What the status goes by is the same in two states. -/
structure SameReasons (a b : State) : Prop where
  valid : b.metro.valid = a.metro.valid
  adjusting : b.cap.slot.isAdjustment = a.cap.slot.isAdjustment
  audits : b.store.audits = a.store.audits
  counter : b.store.eventCounter = a.store.eventCounter
  date : b.cal.value.map DateTime.date = a.cal.value.map DateTime.date

theorem overdue_congr {due : Option Date} {x y : Option DateTime} (h : x.map DateTime.date = y.map DateTime.date) :
    overdue due x = overdue due y := by
  cases due with
  | none => rfl
  | some d =>
    cases x <;> cases y <;> simp at h
    · rfl
    · simp [overdue, h]

theorem SameReasons.statusReasons_eq {a b : State} (h : SameReasons a b) :
    statusReasons b.metro.valid b.cap.slot.isAdjustment b.store b.cal.value =
      statusReasons a.metro.valid a.cap.slot.isAdjustment a.store a.cal.value := by
  obtain ⟨hvalid, hadjusting, haudits, hcounter, hdate⟩ := h
  have hset : b.cal.value.isNone = a.cal.value.isNone := by
    rw [← Option.isNone_map (f := DateTime.date), hdate, Option.isNone_map]
  simp only [Machine.statusReasons_eq, hvalid, hadjusting, Store.currentAudit_congr haudits hcounter, hset,
    overdue_congr hdate]

/-- The status stays right where neither it nor what it goes by changed. -/
theorem StatusLaw.of_same {a b : State} (h : StatusLaw a) (hs : SameReasons a b) (h1 : b.mainSupply = a.mainSupply)
    (h2 : b.metro.status = a.metro.status) : StatusLaw b := by
  intro hsupply
  rw [h2, hs.statusReasons_eq]
  exact h (h1 ▸ hsupply)

/-- A recomputation makes the status right. -/
theorem StatusLaw.recomputed (e : Ev) : StatusLaw (recomputeStatus e).st := by
  intro _
  rw [recomputeStatus_st]
  rfl

theorem StatusLaw.of_unsupplied {s : State} (h : s.mainSupply = false) : StatusLaw s := by
  intro hs
  rw [h] at hs
  cases hs

/-- A slot that is not held is FREE (R93). -/
theorem slotHeld_eq_none {x : Slot} : slotHeld x = none ↔ x = .free := by
  cases x <;> simp [slotHeld]

theorem slot_free_of_captureChecks {s : State} {r : CaptureRequest} (h : captureChecks s r = none) :
    s.cap.slot = .free := by
  unfold captureChecks at h
  split at h
  · cases h
  · rename_i hheld
    exact slotHeld_eq_none.mp hheld

theorem startCapture_adjusting (x : CaptureFields) (e : Ev) :
    (startCapture x e).1.st.cap.slot.isAdjustment = e.st.cap.slot.isAdjustment := by
  rcases startCapture_cases x e with h | ⟨r, -, hchecks, h⟩
  · rw [h]
  · rw [h, acceptCapture_slot, slot_free_of_captureChecks hchecks]
    rfl

/-- Open Audit refuses, or takes a FREE slot for the session (R149). -/
theorem openAudit_cases (e : Ev) : (openAudit e).1 = e ∨
    openAuditChecks e.st = none ∧ e.st.cap.slot = .free ∧ (openAudit e).1 = e.upd (setAudit
      { number := e.st.store.auditCounter + 1, steps := [], idle := 0, flight := none }) := by
  unfold openAudit
  dsimp only
  split
  · exact .inl rfl
  · rename_i hchecks
    refine .inr ⟨hchecks, ?_, rfl⟩
    unfold openAuditChecks at hchecks
    split at hchecks
    · cases hchecks
    · rename_i hheld
      exact slotHeld_eq_none.mp hheld

theorem openAudit_adjusting (e : Ev) :
    (openAudit e).1.st.cap.slot.isAdjustment = e.st.cap.slot.isAdjustment := by
  rcases openAudit_cases e with h | ⟨-, hfree, h⟩
  · rw [h]
  · rw [h, hfree]
    rfl

theorem excludeChannel_adjusting (n : Nat) (e : Ev) :
    (excludeChannel n e).1.st.cap.slot.isAdjustment = e.st.cap.slot.isAdjustment := by
  unfold excludeChannel
  split
  · rfl
  · dsimp only
    split_ifs
    · rfl
    · exact changeChannel_adjusting _ _ _

theorem reinstateChannel_adjusting (n : Nat) (e : Ev) :
    (reinstateChannel n e).1.st.cap.slot.isAdjustment = e.st.cap.slot.isAdjustment := by
  unfold reinstateChannel
  split
  · rfl
  · dsimp only
    split_ifs
    · exact changeChannel_adjusting _ _ _
    · rfl

/-- A session that ends or is aborted has the status recomputed (R145). -/
theorem StatusLaw.ended (e : Ev) : StatusLaw (endAdjustment e).st := .recomputed _

theorem StatusLaw.switchState {e : Ev} (b : Bool) (h : StatusLaw e.st) : StatusLaw (switchState b e).st := by
  unfold Machine.switchState
  dsimp only
  split_ifs
  · exact h
  · cases !b && e.st.cap.slot.isAdjustment with
    | false => exact h.of_same ⟨rfl, rfl, rfl, rfl, rfl⟩ rfl rfl
    | true => exact .ended _

theorem StatusLaw.openAdjustment {e : Ev} (h : StatusLaw e.st) : StatusLaw (openAdjustment e).1.st := by
  unfold Machine.openAdjustment
  dsimp only
  split
  · exact h
  · split
    · exact h
    · exact .recomputed _

theorem StatusLaw.abandonAdjustment {e : Ev} (h : StatusLaw e.st) : StatusLaw (abandonAdjustment e).1.st := by
  unfold Machine.abandonAdjustment
  split_ifs
  · exact .ended _
  · exact h

theorem StatusLaw.closeAudit {e : Ev} (ok : Bool) (h : StatusLaw e.st) : StatusLaw (closeAudit ok e).1.st := by
  rcases closeAudit_cases ok e with h1 | h1 | ⟨x, now, r, -, -, -, -, h1⟩
  · rw [h1]; exact h
  · rw [h1]; exact h.of_same ⟨by simp, by simp, by simp, by simp, by simp⟩ (by simp) (by simp)
  · rw [h1]; exact .recomputed _

theorem StatusLaw.setCalendar {e : Ev} (ok : Bool) (t : DateTime) (h : StatusLaw e.st) :
    StatusLaw (setCalendar ok t e).1.st := by
  rcases setCalendar_cases ok t e with h1 | h1 | ⟨-, -, h1⟩
  · rw [h1]; exact h
  · rw [h1]; exact h.of_same ⟨by simp, by simp, by simp, by simp, by simp⟩ (by simp) (by simp)
  · rw [h1]; exact .recomputed _

theorem StatusLaw.commit {e : Ev} (ok : Bool) (h : StatusLaw e.st) : StatusLaw (commitAdjustment ok e).1.st := by
  rcases commitAdjustment_cases ok e with h1 | h1 | ⟨sess, -, -, -, h1⟩
  · rw [h1]; exact h
  · rw [h1]; exact h.of_same ⟨by simp, by simp, by simp, by simp, by simp⟩ (by simp) (by simp)
  · rw [h1]
    unfold afterCommit
    generalize Ev.upd _ (Ev.upd _ e) = e1
    exact (StatusLaw.recomputed e1).of_same ⟨by simp, by simp, by simp, by simp, by simp⟩ (by simp) (by simp)

/-- A sample event recomputes the status where it aborts a session, and otherwise leaves what the status goes by. -/
theorem StatusLaw.sampleEvent {e : Ev} (inp : SampleInput) (h : StatusLaw e.st) :
    StatusLaw (sampleEvent inp e).st := by
  have hidle : ∀ e1 : Ev, StatusLaw e1.st → StatusLaw (serveAdjustIdle e1).st := by
    intro e1 h1
    unfold serveAdjustIdle
    split
    · rename_i sess hslot
      split_ifs
      · exact .ended _
      · exact h1.of_same ⟨rfl, by rw [hslot]; rfl, rfl, rfl, rfl⟩ rfl rfl
    all_goals exact h1
  unfold Machine.sampleEvent serveResult
  dsimp only
  generalize hserved : serveStep _ = e1
  have h1 : StatusLaw e1.st := by
    subst hserved
    exact h.of_same ⟨by simp, by simp, by simp, by simp, by simp⟩ (by simp) (by simp)
  exact (hidle e1 h1).of_same ⟨by simp, by simp, by simp, by simp, by simp⟩ (by simp) (by simp)

/-- A second carry that hands no day event, and does not end the calendar, leaves the date (R160). -/
theorem DateTime.carry_date {t now : DateTime} (hv : t.carry.value = some now) (hd : t.carry.dayEvent = false) :
    now.date = t.date := by
  unfold DateTime.carry at hv hd
  split_ifs at hv hd
  · cases hv; rfl
  · cases hv; rfl
  · cases hv; rfl
  · dsimp only at hv hd
    split_ifs at hv hd

theorem StatusLaw.secondCarry {e : Ev} (oks : List Bool) (h : StatusLaw e.st) : StatusLaw (secondCarry oks e).st := by
  unfold Machine.secondCarry
  split
  · exact h
  · rename_i t ht
    dsimp only
    split
    · exact .recomputed _
    · rename_i now hnow
      cases hday : t.carry.dayEvent with
      | true => exact (StatusLaw.recomputed _).of_same ⟨rfl, rfl, rfl, rfl, rfl⟩ rfl rfl
      | false =>
        rw [Ev.when_false]
        cases t.carry.hourEvent with
        | true =>
          exact h.of_same ⟨by simp, by simp, by simp, by simp, by simp [setCalValue, ht, hnow, DateTime.carry_date hnow hday]⟩
            (by simp) (by simp)
        | false =>
          exact h.of_same ⟨rfl, rfl, rfl, rfl, by simp [setCalValue, ht, hnow, DateTime.carry_date hnow hday]⟩ rfl rfl

theorem StatusLaw.reset (s : State) (h : s.cap.slot = .free) : StatusLaw (resetStatus s) := by
  intro _
  unfold resetStatus
  simp only [State.setMetro_metro, State.setMetro_cap, State.setMetro_store, State.setMetro_cal, h]
  rfl

theorem statusLaw_kept : KeptByEffects StatusLaw where
  link _ _ h := h
  lamp _ _ h := h
  pending _ _ h := h
  request f e hf h := by
    cases hf with
    | answers hx => rw [hx]; exact h
    | excludeChannel n =>
      exact h.of_same ⟨by simp, excludeChannel_adjusting n e, by simp, by simp, by simp⟩ (by simp) (by simp)
    | reinstateChannel n =>
      exact h.of_same ⟨by simp, reinstateChannel_adjusting n e, by simp, by simp, by simp⟩ (by simp) (by simp)
    | startCapture x =>
      exact h.of_same ⟨by simp, startCapture_adjusting x e, by simp, by simp, by simp⟩ (by simp) (by simp)
    | openAudit => exact h.of_same ⟨by simp, openAudit_adjusting e, by simp, by simp, by simp⟩ (by simp) (by simp)
    | releaseVehicle => exact h.of_same ⟨rfl, rfl, rfl, rfl, rfl⟩ rfl rfl
    | writeCaptureSettings n =>
      unfold writeCaptureSettings
      split_ifs
      · exact h.of_same ⟨rfl, rfl, rfl, rfl, rfl⟩ rfl rfl
      · exact h
    | openAdjustment => exact h.openAdjustment
    | abandonAdjustment => exact h.abandonAdjustment
    | closeAudit ok => exact h.closeAudit ok
    | setCalendar ok t => exact h.setCalendar ok t
    | _ => exact h.of_same ⟨by simp, by simp, by simp, by simp, by simp⟩ (by simp) (by simp)
  commit ok e h := h.commit ok
  event f e hf h := by
    cases hf with
    | sampleEvent inp => exact h.sampleEvent inp
    | switchState b => exact h.switchState b
    | secondCarry oks => exact h.secondCarry oks
    | crystalStop =>
      exact h.of_same ⟨by simp, by simp, by simp, by simp, by unfold crystalStop; split_ifs <;> rfl⟩ (by simp) (by simp)
    | crystalReturn =>
      exact h.of_same ⟨by simp, by simp, by simp, by simp, by unfold crystalReturn; split_ifs <;> rfl⟩ (by simp)
        (by simp)
    | _ => exact h.of_same ⟨by simp, by simp, by simp, by simp, by simp⟩ (by simp) (by simp)
  carry s hsupply _ := by
    refine .of_unsupplied ?_
    unfold backupCarry
    split
    · exact hsupply
    · split_ifs <;> exact hsupply
  monitor s c hc h := h.of_same ⟨rfl, rfl, rfl, rfl, by rw [State.setCal_cal, hc]⟩ rfl rfl
  supplyFails s h := by
    rcases supplyFails_eq s with h1 | ⟨c, h1, -⟩
    · rw [h1]; exact h
    · rw [h1]; exact .of_unsupplied rfl
  coldStart _ _ _ := .reset _ rfl
  powerOnReset _ _ _ := .reset _ rfl
  warmReset _ _ _ := .reset _ rfl

/-- Settles O9: every effect that changes what the status goes by ends in a recomputation, and the reasons are those of
R147 by the record that they go by. -/
theorem statusLawKept : Obligations.StatusLawKept := by
  refine ⟨fun _ _ h ht => statusLaw_kept.step h ht, fun valid adjusting st now => ?_⟩
  simp only [← Store.currentAudit_eq_some, ← overdue_iff, tradeReady_iff, statusReasons_eq]
  cases st.currentAudit with
  | none => simp
  | some x =>
    simp [Option.isSome_iff_ne_none]
    tauto

end Sys2Proof.Machine

/-! PROOFS. The entry lamp (R108): no effect turns it, and the end of every event forms it by its inputs. -/

namespace Sys2Proof.Machine

/-! ## No effect turns the entry lamp -/

section
variable (ok : Bool) (e : Ev) (s : State) (op : Operation) (r : SampleResult)

@[simp] theorem restart_entryLamp : (restart s).cap.entryLamp = s.cap.entryLamp := rfl
@[simp] theorem exitGreen_entryLamp : (exitGreen s).cap.entryLamp = s.cap.entryLamp := rfl
@[simp] theorem setSlot_entryLamp (x : Slot) : (setSlot x s).cap.entryLamp = s.cap.entryLamp := rfl
@[simp] theorem setSession_entryLamp (x : AdjustSession) : (setSession x s).cap.entryLamp = s.cap.entryLamp := rfl
@[simp] theorem setAudit_entryLamp (x : AuditSession) : (setAudit x s).cap.entryLamp = s.cap.entryLamp := rfl

/-! ### The capture controller -/

@[simp] theorem failOp_entryLamp (x : FailReason) : (failOp op x e).st.cap.entryLamp = e.st.cap.entryLamp := rfl

@[simp] theorem completionLamps_entryLamp (o : Completion) :
    (completionLamps o s).cap.entryLamp = s.cap.entryLamp := by
  unfold completionLamps; split <;> rfl

@[simp] theorem completeOp_entryLamp (x : CaptureResult) :
    (completeOp ok op x e).st.cap.entryLamp = e.st.cap.entryLamp := by
  unfold completeOp; dsimp only; split <;> simp

@[simp] theorem takeWhole_entryLamp : (takeWhole ok op e).st.cap.entryLamp = e.st.cap.entryLamp := by
  unfold takeWhole; dsimp only; split <;> simp

@[simp] theorem completeComposite_entryLamp : (completeComposite ok op e).st.cap.entryLamp = e.st.cap.entryLamp := by
  unfold completeComposite; dsimp only; split <;> simp

@[simp] theorem takePosition_entryLamp (cs : List Component) :
    (takePosition ok op cs e).st.cap.entryLamp = e.st.cap.entryLamp := by
  unfold takePosition; dsimp only; split_ifs <;> simp

@[simp] theorem serveOperation_entryLamp : (serveOperation ok r e).st.cap.entryLamp = e.st.cap.entryLamp := by
  unfold serveOperation
  split
  · dsimp only
    split
    · simp
    · split
      · rename_i h
        exact tryCapture_keeps (P := fun e1 => e1.st.cap.entryLamp = e.st.cap.entryLamp) h (fun _ => by simp)
          (fun _ => by simp) (by simp)
      · split <;> simp
  all_goals rfl

@[simp] theorem reportComposite_entryLamp (x : MapReport) :
    (reportComposite ok x op e).st.cap.entryLamp = e.st.cap.entryLamp := by
  unfold reportComposite
  split
  · rfl
  · split
    · simp
    · split
      · simp
      · simp
      · split <;> simp

@[simp] theorem reportWhole_entryLamp (x : MapReport) :
    (reportWhole x op e).st.cap.entryLamp = e.st.cap.entryLamp := by
  unfold reportWhole; dsimp only; split_ifs <;> simp

@[simp] theorem resumeSettling_entryLamp (b : Bool) :
    (resumeSettling b op e).2.st.cap.entryLamp = e.st.cap.entryLamp := by
  unfold resumeSettling; dsimp only; split_ifs <;> simp

@[simp] theorem reportToCapture_entryLamp (x : MapReport) :
    (reportToCapture ok x e).st.cap.entryLamp = e.st.cap.entryLamp := by
  unfold reportToCapture
  split
  · dsimp only
    split <;> simp
  all_goals rfl

/-! ### The blocks before it at a sample event -/

@[simp] theorem acquire_entryLamp (inp : SampleInput) :
    (acquire inp e).ev.st.cap.entryLamp = e.st.cap.entryLamp := by
  unfold acquire acquireRun
  dsimp only
  split
  · dsimp only
    split_ifs <;> rfl
  all_goals rfl

@[simp] theorem warmupEnd_entryLamp : (warmupEnd e).st.cap.entryLamp = e.st.cap.entryLamp := by
  unfold warmupEnd; split_ifs <;> rfl

@[simp] theorem takeResult_entryLamp : (takeResult r s).cap.entryLamp = s.cap.entryLamp := by
  unfold takeResult; dsimp only; split <;> rfl

@[simp] theorem serveZero_entryLamp : (serveZero r e).st.cap.entryLamp = e.st.cap.entryLamp := by
  unfold serveZero; dsimp only; split_ifs <;> simp

/-! ### The axle map unit -/

@[simp] theorem formOccupancy_entryLamp (m : AxleMap) (c : Bool) (l : Option LossCause) :
    (formOccupancy ok m c l e).st.cap.entryLamp = e.st.cap.entryLamp := by
  unfold formOccupancy
  dsimp only
  rw [reportToCapture_entryLamp]
  simp only [Ev.when_note_st, Ev.upd_st]
  split_ifs <;> rfl

@[simp] theorem serveMap_entryLamp : (serveMap ok r e).st.cap.entryLamp = e.st.cap.entryLamp := by
  unfold serveMap; dsimp only; split_ifs <;> simp

@[simp] theorem decodeCrossing_entryLamp (c : Crossing) :
    (decodeCrossing ok c e).st.cap.entryLamp = e.st.cap.entryLamp := by
  simp [decodeCrossing]

@[simp] theorem decodeActivation_entryLamp (l : LineNo) (el : Element) (t : Nat) :
    (decodeActivation ok l el t e).st.cap.entryLamp = e.st.cap.entryLamp := by
  unfold decodeActivation; dsimp only; split <;> simp

@[simp] theorem activation_entryLamp (l : LineNo) (el : Element) (t : Nat) :
    (activation ok l el t e).st.cap.entryLamp = e.st.cap.entryLamp := by
  unfold activation
  dsimp only
  split_ifs
  · rfl
  · unfold Ev.when; split_ifs <;> simp

@[simp] theorem singleElementFault_entryLamp (l : LineNo) :
    (singleElementFault l e).st.cap.entryLamp = e.st.cap.entryLamp := by
  unfold singleElementFault; dsimp only; split <;> simp

@[simp] theorem loopChange_entryLamp (lp : Loop) (b : Bool) :
    (loopChange ok lp b e).st.cap.entryLamp = e.st.cap.entryLamp := by
  unfold loopChange
  dsimp only
  split_ifs
  · rfl
  · unfold Ev.when; split_ifs <;> simp

@[simp] theorem commitMap_entryLamp : (commitMap e).st.cap.entryLamp = e.st.cap.entryLamp := by
  unfold commitMap; dsimp only; split_ifs <;> simp

/-! ### The sessions -/

@[simp] theorem endAdjustment_entryLamp : (endAdjustment e).st.cap.entryLamp = e.st.cap.entryLamp := by
  simp [endAdjustment]

@[simp] theorem abortAdjustment_entryLamp (x : AbortCause) :
    (abortAdjustment x e).st.cap.entryLamp = e.st.cap.entryLamp := by
  simp [abortAdjustment]

@[simp] theorem switchState_entryLamp (b : Bool) : (switchState b e).st.cap.entryLamp = e.st.cap.entryLamp := by
  unfold switchState
  dsimp only
  split_ifs
  · rfl
  · unfold Ev.when; split_ifs <;> simp

@[simp] theorem openAdjustment_entryLamp : (openAdjustment e).1.st.cap.entryLamp = e.st.cap.entryLamp := by
  unfold openAdjustment
  dsimp only
  split
  · rfl
  · split <;> simp

@[simp] theorem abandonAdjustment_entryLamp : (abandonAdjustment e).1.st.cap.entryLamp = e.st.cap.entryLamp := by
  unfold abandonAdjustment; split_ifs <;> simp

@[simp] theorem stageParameter_entryLamp (f : StageFields) :
    (stageParameter f e).1.st.cap.entryLamp = e.st.cap.entryLamp := by
  unfold stageParameter
  split
  · dsimp only
    split
    · rfl
    · split <;> rfl
  all_goals rfl

@[simp] theorem calibrate_entryLamp (k : CalKind) (d n : Nat) :
    (calibrate k d n e).1.st.cap.entryLamp = e.st.cap.entryLamp := by
  unfold calibrate
  split
  · dsimp only
    split
    · rfl
    · split
      · rfl
      · split_ifs <;> rfl
  all_goals rfl

@[simp] theorem serveCalibration_entryLamp (v : Chan → Int) (t : Nat) :
    (serveCalibration r v t e).st.cap.entryLamp = e.st.cap.entryLamp := by
  unfold serveCalibration
  split
  · split
    · rfl
    · dsimp only
      split_ifs <;> rfl
  all_goals rfl

@[simp] theorem serveAdjustIdle_entryLamp : (serveAdjustIdle e).st.cap.entryLamp = e.st.cap.entryLamp := by
  unfold serveAdjustIdle
  split
  · split_ifs <;> simp
  all_goals rfl

@[simp] theorem serveStep_entryLamp : (serveStep e).st.cap.entryLamp = e.st.cap.entryLamp := by
  unfold serveStep
  split
  · rfl
  · split
    · rfl
    · dsimp only
      split_ifs <;> rfl

@[simp] theorem serveAuditIdle_entryLamp : (serveAuditIdle e).st.cap.entryLamp = e.st.cap.entryLamp := by
  unfold serveAuditIdle
  split
  · rfl
  · split_ifs <;> rfl

@[simp] theorem auditStep_entryLamp (f : StepFields) :
    (auditStep f e).1.st.cap.entryLamp = e.st.cap.entryLamp := by
  unfold auditStep
  split
  · rfl
  · unfold stepInSession
    dsimp only
    split
    · rfl
    · split
      · rfl
      · split_ifs <;> rfl

@[simp] theorem openAudit_entryLamp : (openAudit e).1.st.cap.entryLamp = e.st.cap.entryLamp := by
  rcases openAudit_cases e with h | ⟨-, -, h⟩ <;> rw [h]
  rfl

@[simp] theorem abandonAudit_entryLamp : (abandonAudit e).1.st.cap.entryLamp = e.st.cap.entryLamp := by
  unfold abandonAudit; split <;> rfl

@[simp] theorem sampleEvent_entryLamp (inp : SampleInput) :
    (sampleEvent inp e).st.cap.entryLamp = e.st.cap.entryLamp := by
  simp [sampleEvent, serveResult]

/-! ### The requests -/

@[simp] theorem changeChannel_entryLamp (i : Chan) (c : Channel) :
    (changeChannel i c e).st.cap.entryLamp = e.st.cap.entryLamp := by
  unfold changeChannel; dsimp only; unfold Ev.when; split_ifs <;> rfl

@[simp] theorem excludeChannel_entryLamp (n : Nat) :
    (excludeChannel n e).1.st.cap.entryLamp = e.st.cap.entryLamp := by
  unfold excludeChannel
  split
  · rfl
  · dsimp only
    split_ifs <;> simp

@[simp] theorem reinstateChannel_entryLamp (n : Nat) :
    (reinstateChannel n e).1.st.cap.entryLamp = e.st.cap.entryLamp := by
  unfold reinstateChannel
  split
  · rfl
  · dsimp only
    split_ifs <;> simp

@[simp] theorem startCapture_entryLamp (x : CaptureFields) :
    (startCapture x e).1.st.cap.entryLamp = e.st.cap.entryLamp := by
  rcases startCapture_cases x e with h | ⟨c, -, -, h⟩ <;> rw [h]
  unfold acceptCapture; dsimp only [Ev.note_st, Ev.upd_st]; split_ifs <;> rfl

@[simp] theorem cancelOperation_entryLamp (n : Nat) :
    (cancelOperation n e).1.st.cap.entryLamp = e.st.cap.entryLamp := by
  unfold cancelOperation
  split
  · split_ifs <;> simp
  all_goals rfl

@[simp] theorem writeCaptureSettings_entryLamp (n : Nat) :
    (writeCaptureSettings n e).1.st.cap.entryLamp = e.st.cap.entryLamp := by
  unfold writeCaptureSettings; split_ifs <;> rfl

@[simp] theorem closeAudit_entryLamp : (closeAudit ok e).1.st.cap.entryLamp = e.st.cap.entryLamp := by
  rcases closeAudit_cases ok e with h | h | ⟨x, now, r, -, -, -, -, h⟩ <;> simp [h]

@[simp] theorem commitAdjustment_entryLamp : (commitAdjustment ok e).1.st.cap.entryLamp = e.st.cap.entryLamp := by
  rcases commitAdjustment_cases ok e with h | h | ⟨sess, -, -, -, h⟩ <;> simp [h, afterCommit]

end

/-- No event turns the entry lamp itself. -/
theorem EventEffect.entryLamp {f : Ev → Ev} (hf : EventEffect f) (e : Ev) :
    (f e).st.cap.entryLamp = e.st.cap.entryLamp := by
  cases hf <;> simp

theorem EventEffect.mainSupply {f : Ev → Ev} (hf : EventEffect f) (e : Ev) :
    (f e).st.mainSupply = e.st.mainSupply := by
  cases hf <;> simp

/-- No request turns the entry lamp itself. -/
theorem RequestEffect.entryLamp {f : Ev → Ev × Reply} (hf : RequestEffect f) (e : Ev) :
    (f e).1.st.cap.entryLamp = e.st.cap.entryLamp := by
  cases hf with
  | answers h => rw [h]
  | releaseVehicle => rfl
  | _ => simp

theorem RequestEffect.mainSupply {f : Ev → Ev × Reply} (hf : RequestEffect f) (e : Ev) :
    (f e).1.st.mainSupply = e.st.mainSupply := by
  cases hf with
  | answers h => rw [h]
  | _ => simp

/-! ## The lamp law -/

/-- The lamp stays right where neither it nor an input of it changed. -/
theorem LampLaw.of_same {a b : State} (h : LampLaw a) (h1 : b.mainSupply = a.mainSupply)
    (h2 : b.cap.entryLamp = a.cap.entryLamp) (h3 : b.lampInputs = a.lampInputs) : LampLaw b := by
  intro hsupply
  have hlamp : b.entryLampOf = a.entryLampOf := by
    simp only [State.lampInputs, Prod.mk.injEq] at h3
    simp only [State.entryLampOf, h3]
  rw [h2, hlamp]
  exact h (h1 ▸ hsupply)

/-- The end of an event leaves the lamp right when the event itself did not turn it (R108). -/
theorem LampLaw.settle {s0 : State} {e : Ev} (h : LampLaw s0) (h1 : e.st.mainSupply = s0.mainSupply)
    (h2 : e.st.cap.entryLamp = s0.cap.entryLamp) : LampLaw (settle s0 e) := by
  by_cases hin : e.st.lampInputs = s0.lampInputs
  · have hsettled : LampLaw (formEntryLamp s0 e.st) := by
      rw [formEntryLamp_same s0 e.st hin]
      exact h.of_same h1 h2 hin
    rw [settle_eq]
    exact hsettled
  · rw [settle_eq]
    intro _
    have hof : (formEntryLamp s0 e.st).entryLampOf = e.st.entryLampOf := by simp [State.entryLampOf]
    change (formEntryLamp s0 e.st).cap.entryLamp = (formEntryLamp s0 e.st).entryLampOf
    rw [formEntryLamp_changed s0 e.st hin, hof]

theorem LampLaw.request {k : Byte} {f : Ev → Ev × Reply} {s t : State} (ht : request k f s = .next t)
    (h1 : ∀ e, (f e).1.st.mainSupply = e.st.mainSupply) (h2 : ∀ e, (f e).1.st.cap.entryLamp = e.st.cap.entryLamp)
    (h : LampLaw s) : LampLaw t := by
  simp only [Machine.request, Host.Outcome.next.injEq] at ht
  subst ht
  split_ifs
  · split
    · have hsettled : LampLaw (Machine.settle (endFrame s) (f (Ev.start (endFrame s))).1) :=
        LampLaw.settle (s0 := endFrame s) h (h1 _) (h2 _)
      exact hsettled
    · exact h
    · exact h
  · exact h

/-- After a reset the lamp is RED, and occupancy PARTIAL makes it so (R75, R111). -/
theorem LampLaw.of_reset {s : State} (h1 : s.cap.entryLamp = .red) (h2 : s.axle.occupancy = .part) : LampLaw s := by
  intro _
  simp [State.entryLampOf, h1, h2]

theorem LampLaw.executes {c : Instr} {s t : State} (hx : Executes c s t) (h : LampLaw s) : LampLaw t := by
  have hreset : ∀ inputs, LampLaw (warmReset inputs s) := fun inputs => .of_reset rfl rfl
  cases hx with
  | same => exact h
  | event hf hsupply ht =>
    rename_i f
    rw [event_on f s hsupply] at ht
    cases ht
    have hsettled := LampLaw.settle (e := f (Ev.start s)) h (hf.mainSupply _) (hf.entryLamp _)
    exact hsettled
  | request hf ht => exact LampLaw.request ht hf.mainSupply hf.entryLamp h
  | commit hc ht => exact LampLaw.request ht (by simp) (by simp) h
  | linkError cause k =>
    unfold linkError
    dsimp only
    split_ifs <;> exact h
  | endFrame => exact h
  | transmitted inputs =>
    unfold transmitted
    split
    · exact h
    · exact h
    · split_ifs
      · exact hreset inputs
      · exact h
  | backupCarry _ =>
    unfold backupCarry
    split
    · exact h
    · split_ifs <;> exact h
  | monitor cal _ => exact h
  | supplyFails =>
    rcases supplyFails_eq s with h1 | ⟨c, h1, -⟩
    · rw [h1]; exact h
    · rw [h1]
      intro hs
      cases hs
  | coldStart inputs => exact .of_reset rfl rfl
  | powerOnReset inputs => exact .of_reset rfl rfl
  | warmReset inputs => exact hreset inputs

theorem isSession_eq_false_iff {x : Slot} :
    x.isSession = false ↔ (∀ y, x ≠ .adjustment y) ∧ ∀ y, x ≠ .audit y := by
  cases x <;> simp [Slot.isSession]

/-- Settles O11: the effects leave the entry lamp, and the end of each event forms it anew where an input changed. -/
theorem lampLawKept : Obligations.LampLawKept := by
  refine ⟨fun s t h ht => ?_, fun s => ?_⟩
  · obtain ⟨c, r, hx⟩ := step_executes ht
    exact LampLaw.executes hx h
  · dsimp only
    constructor
    · rintro ⟨hocc, hscale, hzero, hvalid, hadjust, haudit, hhold⟩
      exact if_pos ⟨hocc, hscale, hzero, hvalid, isSession_eq_false_iff.mpr ⟨hadjust, haudit⟩, hhold⟩
    · intro hn
      refine if_neg ?_
      rintro ⟨hocc, hscale, hzero, hvalid, hsession, hhold⟩
      obtain ⟨hadjust, haudit⟩ := isSession_eq_false_iff.mp hsession
      exact hn ⟨hocc, hscale, hzero, hvalid, hadjust, haudit, hhold⟩

end Sys2Proof.Machine

/-! PROOFS. The zero law (R41, R42, R50 to R54, R95) through the zero and motion unit. -/

namespace Sys2Proof.Machine

/-! ## Changes that leave the zero -/

/-- From `a` to `b` the zero stays, and the window and the settling clock stay or begin again. -/
structure KeepsZero (a b : State) : Prop where
  window : b.zm.window.length ≤ a.zm.window.length
  clock : b.zm.clock ≤ a.zm.clock
  trackCount : b.zm.trackCount = a.zm.trackCount
  zeroState : b.zm.zeroState = a.zm.zeroState
  offset : b.zm.offset = a.zm.offset
  initial : b.zm.initial = a.zm.initial
  halt : b.zm.halt = a.zm.halt

theorem KeepsZero.of_zm {a b : State} (h : b.zm = a.zm) : KeepsZero a b := by
  constructor <;> rw [h]

theorem KeepsZero.restart (s : State) : KeepsZero s (restart s) :=
  ⟨Nat.zero_le _, Nat.zero_le _, rfl, rfl, rfl, rfl, rfl⟩

theorem KeepsZero.trans {a b c : State} (h : KeepsZero a b) (k : KeepsZero b c) : KeepsZero a c :=
  ⟨k.window.trans h.window, k.clock.trans h.clock, k.trackCount.trans h.trackCount, k.zeroState.trans h.zeroState,
    k.offset.trans h.offset, k.initial.trans h.initial, k.halt.trans h.halt⟩

/-- From `a` to `b` no operation is taken into the slot. -/
def TakesNone (a b : State) : Prop := (∀ op, a.cap.slot ≠ .capture op) → ∀ op, b.cap.slot ≠ .capture op

theorem Course.takesNone {a b : State} (h : Course a b) : TakesNone a b := by
  intro hnone
  cases h with
  | goesOn _ _ hslot =>
    intro op hop
    obtain ⟨op', hop', -⟩ := hslot op hop
    exact hnone op' hop'
  | ends _ _ hslot => exact hslot

theorem TakesNone.of_slot {a b : State} (h : b.cap.slot = a.cap.slot) : TakesNone a b := by
  intro hnone
  rw [h]
  exact hnone

theorem TakesNone.of_free {a b : State} (h : b.cap.slot = .free) : TakesNone a b := fun _ => no_capture_of_free h

theorem ZeroLaw.of_keeps {a b : State} (h : ZeroLaw a) (hz : KeepsZero a b)
    (hconfig : b.store.config = a.store.config) (hslot : TakesNone a b) : ZeroLaw b := by
  obtain ⟨hwindow, hclock, htrack, hpending, hset⟩ := h
  obtain ⟨kwindow, kclock, ktrack, kstate, koffset, kinitial, khalt⟩ := hz
  unfold ZeroLaw
  rw [ktrack, kstate, koffset, kinitial, khalt, hconfig]
  refine ⟨kwindow.trans hwindow, kclock.trans hclock, htrack, fun hp => ?_, hset⟩
  obtain ⟨hcount, hnone, hclear⟩ := hpending hp
  exact ⟨hcount, hslot hnone, hclear⟩

/-! ## The result taken (R41, R42) -/

theorem pushWindow_length_le {α : Type} (w : Nat) (l : List α) (x : α) : (pushWindow w l x).length ≤ w := by
  simp only [pushWindow, List.length_drop]
  omega

theorem nextClock_le {t : Nat} (h : t ≤ 60000) : nextClock t ≤ 60000 := by
  unfold nextClock
  split_ifs <;> omega

/-- A result without VALUE restarts the window and clears the tracking count (R42, R54). -/
theorem ZeroLaw.restarted {s : State} (h : ZeroLaw s) (l : Option LatestResult) :
    ZeroLaw ((restart s).setZm { (restart s).zm with latest := l, trackCount := 0 }) := by
  obtain ⟨-, -, -, hpending, hset⟩ := h
  refine ⟨Nat.zero_le _, Nat.zero_le _, Nat.zero_le _, fun hp => ?_, hset⟩
  obtain ⟨-, hnone, hclear⟩ := hpending hp
  exact ⟨rfl, (Course.restart s).takesNone hnone, hclear⟩

theorem ZeroLaw.takeResult {s : State} (h : ZeroLaw s) (r : SampleResult) : ZeroLaw (takeResult r s) := by
  cases r with
  | value decks t g z =>
    obtain ⟨-, hclock, htrack, hpending, hset⟩ := h
    exact ⟨pushWindow_length_le _ _ _, nextClock_le hclock, htrack, hpending, hset⟩
  | scaleNotRunning => exact h.restarted _
  | uncalibrated => exact h.restarted _
  | deckDown decks => exact h.restarted _

/-! ## Initial zero and Set Zero (R50 to R53) -/

theorem activeDecks_mem {c : MetroConfig} {d : Deck} : d ∈ c.activeDecks ↔ c.active d = true := by
  have hall : d ∈ allDecks := by fin_cases d <;> decide
  simp [MetroConfig.activeDecks, hall]

/-- What a passed test of the zero means says of each active deck. -/
theorem zeroWithin_iff {s : State} {range : Nat} {centre : Deck → Int} : zeroWithin s range centre = true ↔
    ∀ d, s.store.config.active d = true → (zeroMean s d - centre d).natAbs ≤ range := by
  simp [zeroWithin, activeDecks_mem]

theorem zeroOffsets_get (s : State) (other : Deck → Int) (d : Deck) :
    (zeroOffsets s other).get d = if s.store.config.active d then zeroMean s d else other d := Bank.get_ofFn _ d

/-- The zero taken from ZERO_PENDING lies within Li, and each offset at its initial zero (R51, R52). -/
theorem ZeroLaw.takeInitialZero {e : Ev} (h : ZeroLaw e.st)
    (hwithin : zeroWithin e.st e.st.store.config.initialRange (fun _ => 0) = true) :
    ZeroLaw (takeInitialZero e).st := by
  obtain ⟨hwindow, hclock, htrack, -, -⟩ := h
  refine ⟨by simpa [Machine.takeInitialZero, setOffsets] using hwindow, hclock, htrack, fun hp => (by cases hp),
    fun _ d => ⟨?_, ?_⟩⟩
  · change ((zeroOffsets e.st fun _ => 0).get d).natAbs ≤ e.st.store.config.initialRange
    rw [zeroOffsets_get]
    split_ifs with hactive
    · simpa using zeroWithin_iff.mp hwithin d hactive
    · exact Nat.zero_le _
  · change ((zeroOffsets e.st fun _ => 0).get d - (zeroOffsets e.st fun _ => 0).get d).natAbs ≤ _
    simp

theorem ZeroLaw.initialZero {e : Ev} (h : ZeroLaw e.st) : ZeroLaw (initialZero e).st := by
  unfold Machine.initialZero
  dsimp only
  split_ifs with _ hwithin
  · exact h.takeInitialZero hwithin
  · exact h
  · exact h
  · exact h

/-- Set Zero in ZERO_SET keeps each offset within Lz of its initial zero (R52). -/
theorem ZeroLaw.setZeroAgain {e : Ev} (h : ZeroLaw e.st) (hz : e.st.zm.zeroState = .set) :
    ZeroLaw (setZeroAgain e).1.st := by
  unfold Machine.setZeroAgain
  dsimp only
  split_ifs with hwithin
  · obtain ⟨hwindow, hclock, -, -, hset⟩ := h
    refine ⟨by simpa [setOffsets] using hwindow, hclock, Nat.zero_le _, fun hp => ?_, fun _ d => ⟨(hset hz d).1, ?_⟩⟩
    · cases hz.symm.trans hp
    · change ((zeroOffsets e.st e.st.zm.offset.get).get d - e.st.zm.initial.get d).natAbs ≤ _
      rw [zeroOffsets_get]
      split_ifs with hactive
      · exact zeroWithin_iff.mp hwithin d hactive
      · exact (hset hz d).2
  · exact h

theorem ZeroLaw.setZeroFirst {e : Ev} (h : ZeroLaw e.st) : ZeroLaw (setZeroFirst e).1.st := by
  unfold Machine.setZeroFirst
  dsimp only
  split_ifs with hwithin
  · exact h.takeInitialZero hwithin
  · exact h

theorem ZeroLaw.setZero {e : Ev} (h : ZeroLaw e.st) : ZeroLaw (setZero e).1.st := by
  unfold Machine.setZero
  dsimp only
  split
  · exact h
  · split
    · exact h
    · split
      · exact h
      · split
        · exact h
        · split
          · rename_i hz
            exact h.setZeroAgain hz
          · exact h.setZeroFirst

/-! ## Zero tracking (R54) -/

theorem clamp_natAbs_le (b : Nat) (x : Int) : (clamp b x).natAbs ≤ b := by
  unfold clamp
  split_ifs <;> omega

/-- A tracking step leaves each offset within Lz of its initial zero. -/
theorem ZeroLaw.trackingStep {e : Ev} (h : ZeroLaw e.st) (hz : e.st.zm.zeroState = .set) :
    ZeroLaw (trackingStep e).st := by
  obtain ⟨hwindow, hclock, -, -, hset⟩ := h
  refine ⟨by simpa [Machine.trackingStep, setOffsets] using hwindow, hclock, Nat.zero_le _, fun hp => ?_,
    fun _ d => ⟨(hset hz d).1, ?_⟩⟩
  · cases hz.symm.trans hp
  · change ((Bank.ofFn (offsetAfterStep e.st)).get d - e.st.zm.initial.get d).natAbs ≤ _
    rw [Bank.get_ofFn]
    unfold offsetAfterStep
    split_ifs
    · rw [add_sub_cancel_left]
      exact clamp_natAbs_le _ _
    · exact (hset hz d).2

theorem ZeroLaw.tracking {e : Ev} (h : ZeroLaw e.st) : ZeroLaw (tracking e).st := by
  unfold Machine.tracking
  split_ifs with hholds hcount
  · have hz : e.st.zm.zeroState = .set := by
      simp only [trackingHolds, Bool.and_eq_true, decide_eq_true_eq] at hholds
      exact hholds.1.1.1.1.1.2
    exact h.trackingStep hz
  · have hz : e.st.zm.zeroState = .set := by
      simp only [trackingHolds, Bool.and_eq_true, decide_eq_true_eq] at hholds
      exact hholds.1.1.1.1.1.2
    obtain ⟨hwindow, hclock, -, -, hset⟩ := h
    refine ⟨hwindow, hclock, ?_, fun hp => ?_, hset⟩
    · change e.st.zm.trackCount + 1 ≤ 49
      omega
    · cases hz.symm.trans hp
  · obtain ⟨hwindow, hclock, -, hpending, hset⟩ := h
    exact ⟨hwindow, hclock, Nat.zero_le _, fun hp => ⟨rfl, (hpending hp).2⟩, hset⟩

theorem ZeroLaw.serveZero {e : Ev} (h : ZeroLaw e.st) (r : SampleResult) : ZeroLaw (serveZero r e).st := by
  have htaken : ZeroLaw (e.upd (Machine.takeResult r)).st := h.takeResult r
  unfold Machine.serveZero
  dsimp only
  split_ifs
  · exact htaken.initialZero.tracking
  · exact htaken

/-! ## The events -/

theorem acquire_keepsZero (inp : SampleInput) (e : Ev) : KeepsZero e.st (acquire inp e).ev.st := by
  unfold acquire acquireRun
  dsimp only
  split
  · dsimp only
    split_ifs
    · refine KeepsZero.trans ?_ (.restart _)
      exact .of_zm rfl
    · exact .of_zm rfl
  · exact .of_zm rfl
  · exact .of_zm rfl

theorem warmupEnd_keepsZero (e : Ev) : KeepsZero e.st (warmupEnd e).st := by
  unfold warmupEnd
  split_ifs
  · refine KeepsZero.trans ?_ (.restart _)
    exact .of_zm rfl
  · exact .of_zm rfl

theorem ZeroLaw.sampleEvent {e : Ev} (h : ZeroLaw e.st) (inp : SampleInput) : ZeroLaw (sampleEvent inp e).st := by
  have hacquired : ZeroLaw (acquire inp e).ev.st :=
    h.of_keeps (acquire_keepsZero inp e) (by simp) (Course.acquire inp e).takesNone
  unfold Machine.sampleEvent serveResult
  dsimp only
  generalize hz : Machine.serveZero _ (acquire inp e).ev = e1
  have hzero : ZeroLaw e1.st := hz ▸ hacquired.serveZero _
  generalize hserved : serveAuditIdle _ = e2
  have hserved2 : ZeroLaw e2.st := by
    subst hserved
    refine hzero.of_keeps (.of_zm (by simp)) (by simp) (Course.takesNone ?_)
    exact (Course.serveMap _ _ _).trans ((Course.serveOperation _ _ _).trans ((Course.serveCalibration _ _ _ _).trans
      ((Course.serveStep _).trans ((Course.serveAdjustIdle _).trans (Course.serveAuditIdle _)))))
  exact hserved2.of_keeps (warmupEnd_keepsZero e2) (by simp) (Course.warmupEnd e2).takesNone

theorem decodeCrossing_keepsZero (ok : Bool) (c : Crossing) (e : Ev) : KeepsZero e.st (decodeCrossing ok c e).st := by
  unfold decodeCrossing
  dsimp only
  generalize hnoted : Ev.note _ _ = e1
  have hzm : e1.st.zm = e.st.zm := by
    subst hnoted
    simp
  exact (KeepsZero.of_zm hzm).trans ((KeepsZero.restart e1.st).trans (.of_zm (by simp)))

theorem decodeActivation_keepsZero (ok : Bool) (l : LineNo) (el : Element) (t : Nat) (e : Ev) :
    KeepsZero e.st (decodeActivation ok l el t e).st := by
  unfold decodeActivation
  dsimp only
  split
  · exact .of_zm rfl
  · refine KeepsZero.trans (.of_zm ?_) (decodeCrossing_keepsZero _ _ _)
    rfl

theorem activation_keepsZero (ok : Bool) (l : LineNo) (el : Element) (t : Nat) (e : Ev) :
    KeepsZero e.st (activation ok l el t e).st := by
  unfold activation
  dsimp only
  split_ifs
  · exact .of_zm rfl
  · generalize hwoken : Ev.when _ wake _ = e2
    have hzm : e2.st.zm = e.st.zm := by subst hwoken; cases decide (l.val = 0) <;> simp
    refine KeepsZero.trans (.of_zm hzm) ?_
    cases e2.st.decoded l with
    | false => exact .of_zm rfl
    | true => exact decodeActivation_keepsZero _ _ _ _ _

theorem loopChange_keepsZero (ok : Bool) (lp : Loop) (b : Bool) (e : Ev) :
    KeepsZero e.st (loopChange ok lp b e).st := by
  unfold loopChange
  dsimp only
  split_ifs
  · exact .of_zm rfl
  · generalize hwoken : Ev.when _ wake _ = e2
    have hzm : e2.st.zm = e.st.zm := by subst hwoken; cases decide (lp = .entry) && b <;> simp
    refine KeepsZero.trans (.of_zm hzm) ((KeepsZero.restart e2.st).trans (.of_zm ?_))
    simp

theorem changeChannel_keepsZero (i : Chan) (c : Channel) (e : Ev) : KeepsZero e.st (changeChannel i c e).st := by
  unfold changeChannel
  dsimp only
  cases e.st.onDeck i && ((e.st.acq.channels.get i).health.included != c.health.included) with
  | false => exact .of_zm rfl
  | true =>
    refine KeepsZero.trans ?_ (.restart _)
    exact .of_zm rfl

/-! ## The requests, the commit and the resets -/

theorem excludeChannel_keepsZero (n : Nat) (e : Ev) : KeepsZero e.st (excludeChannel n e).1.st := by
  unfold excludeChannel
  split
  · exact .of_zm rfl
  · dsimp only
    split_ifs
    · exact .of_zm rfl
    · exact changeChannel_keepsZero _ _ _

theorem reinstateChannel_keepsZero (n : Nat) (e : Ev) : KeepsZero e.st (reinstateChannel n e).1.st := by
  unfold reinstateChannel
  split
  · exact .of_zm rfl
  · dsimp only
    split_ifs
    · exact changeChannel_keepsZero _ _ _
    · exact .of_zm rfl

/-- An operation is accepted in ZERO_SET only (R95). -/
theorem zeroSet_of_captureChecks {s : State} {r : CaptureRequest} (h : captureChecks s r = none) :
    s.zm.zeroState = .set := by
  unfold captureChecks at h
  split at h
  · cases h
  · split_ifs at h with hready
    simpa using fun hz => hready (.inr (.inl hz))

theorem ZeroLaw.startCapture {e : Ev} (h : ZeroLaw e.st) (x : CaptureFields) : ZeroLaw (startCapture x e).1.st := by
  rcases startCapture_cases x e with h1 | ⟨r, -, hchecks, h1⟩
  · rw [h1]; exact h
  · have hzm : (acceptCapture r e).1.st.zm = e.st.zm := by
      unfold acceptCapture; dsimp only [Ev.note_st, Ev.upd_st]; split_ifs <;> rfl
    obtain ⟨hwindow, hclock, htrack, -, hset⟩ := h
    rw [h1]
    unfold ZeroLaw
    rw [hzm, acceptCapture_store]
    refine ⟨hwindow, hclock, htrack, fun hp => ?_, hset⟩
    cases (zeroSet_of_captureChecks hchecks).symm.trans hp

/-- What follows a commit leaves a clear zero, an empty window and a FREE slot (R43, R50, R143). -/
theorem ZeroLaw.afterCommit (e : Ev) : ZeroLaw (afterCommit e).st := by
  have hfree := (afterCommit_store e).2.2
  have hzm : (Machine.afterCommit e).st.zm =
      { zeroState := .pending, offset := Bank.fill 4 0, initial := Bank.fill 4 0, halt := Bank.fill 4 false,
        rangeReported := false, trackCount := 0, clock := 0, window := [], latest := e.st.zm.latest,
        decisions := notStable } := by
    unfold Machine.afterCommit
    rw [(commitMap_keeps _).2.2.2.2.1]
    unfold enterZeroPending
    simp [recomputeStatus_st]
  unfold ZeroLaw
  rw [hzm]
  refine ⟨Nat.zero_le _, Nat.zero_le _, Nat.zero_le _, fun _ => ⟨rfl, no_capture_of_free hfree, fun d => ?_⟩,
    fun hz => by cases hz⟩
  simp

theorem ZeroLaw.commit {e : Ev} (h : ZeroLaw e.st) (ok : Bool) : ZeroLaw (commitAdjustment ok e).1.st := by
  rcases commitAdjustment_cases ok e with h1 | h1 | ⟨sess, -, -, -, h1⟩
  · rw [h1]; exact h
  · rw [h1]; exact h.of_keeps (.of_zm (by simp)) (by simp) (.of_slot (by simp))
  · rw [h1]; exact .afterCommit _

/-- A warm reset keeps the zero and frees the slot (R56, R111). -/
theorem ZeroLaw.warmReset {s : State} (h : ZeroLaw s) (inputs : ResetInputs) : ZeroLaw (warmReset inputs s) := by
  obtain ⟨-, -, -, hpending, hset⟩ := h
  exact ⟨Nat.zero_le _, Nat.zero_le _, Nat.zero_le _,
    fun hp => ⟨rfl, fun op hop => (by cases hop), (hpending hp).2.2⟩, hset⟩

theorem ZeroLaw.powerUp (inputs : ResetInputs) (cal : Calendar) (s : State) : ZeroLaw (powerUp inputs cal s) :=
  ⟨Nat.zero_le _, Nat.zero_le _, Nat.zero_le _,
    fun _ => ⟨rfl, fun op hop => (by cases hop), fun d => ⟨Bank.get_fill _ d, Bank.get_fill _ d, Bank.get_fill _ d⟩⟩,
    fun hz => by cases hz⟩

theorem zeroLaw_kept : KeptByEffects ZeroLaw where
  link _ _ h := h
  lamp _ _ h := h
  pending _ _ h := h
  request f e hf h := by
    rcases hf.course_or e with hcourse | hstore
    · cases hf with
      | answers hx => rw [hx]; exact h
      | setZero => exact h.setZero
      | excludeChannel n => exact h.of_keeps (excludeChannel_keepsZero n e) (by simp) hcourse.takesNone
      | reinstateChannel n => exact h.of_keeps (reinstateChannel_keepsZero n e) (by simp) hcourse.takesNone
      | closeAudit ok =>
        refine h.of_keeps (.of_zm (by simp)) ?_ hcourse.takesNone
        rcases closeAudit_cases ok e with h1 | h1 | ⟨x, now, r, -, -, -, -, h1⟩ <;> simp [h1, auditCloseStore]
      | _ => exact h.of_keeps (.of_zm (by simp)) (by simp) hcourse.takesNone
    · cases hstore with
      | startCapture x => exact h.startCapture x
      | cancelTransaction ok n => exact h.of_keeps (.of_zm (by simp)) (by simp) (.of_slot (by simp))
      | deleteStoredTare ok v => exact h.of_keeps (.of_zm (by simp)) (by simp) (.of_slot (by simp))
      | releaseTicket ok n => exact h.of_keeps (.of_zm (by simp)) (by simp) (.of_slot (by simp))
      | commitAdjustment ok => exact h.commit ok
      | closeAudit ok =>
        rcases closeAudit_cases ok e with h1 | h1 | ⟨x, now, r, -, -, -, -, h1⟩
        · rw [h1]; exact h
        · rw [h1]; exact h.of_keeps (.of_zm (by simp)) (by simp) (.of_slot (by simp))
        · rw [h1]; exact h.of_keeps (.of_zm (by simp)) (by simp [auditCloseStore]) (.of_free (by simp))
      | setCalendar ok t => exact h.of_keeps (.of_zm (by simp)) (by simp) (.of_slot (by simp))
  commit ok e h := h.commit ok
  event f e hf h := by
    rcases hf.course_or e with hcourse | ⟨oks, rfl⟩
    · cases hf with
      | sampleEvent inp => exact h.sampleEvent inp
      | activation ok l el t => exact h.of_keeps (activation_keepsZero ok l el t e) (by simp) hcourse.takesNone
      | loopChange ok lp b => exact h.of_keeps (loopChange_keepsZero ok lp b e) (by simp) hcourse.takesNone
      | _ => exact h.of_keeps (.of_zm (by simp)) (by simp) hcourse.takesNone
    · exact h.of_keeps (.of_zm (by simp)) (by simp) (.of_slot (by simp))
  carry s _ h := by
    unfold backupCarry
    split
    · exact h
    · split_ifs <;> exact h
  monitor _ _ _ h := h
  supplyFails s h := by
    rcases supplyFails_eq s with h1 | ⟨c, h1, -⟩ <;> rw [h1] <;> exact h
  coldStart inputs s _ := .powerUp inputs _ s
  powerOnReset inputs s _ := .powerUp inputs _ s
  warmReset inputs s h := h.warmReset inputs

/-- Settles O12: each stage of the zero and motion unit keeps the law, and nothing else touches the zero. -/
theorem zeroLawKept : Obligations.ZeroLawKept := fun _ _ h ht => zeroLaw_kept.step h ht

end Sys2Proof.Machine

/-! PROOFS. The law of the link port (R168 to R172), and the ranges and capacities of the settings and the records (R57,
R76, R77, R96, R132, R146, R156). -/

namespace Sys2Proof.Machine

/-! ## The link port's capacities and mask -/

/-- The part of the link law that speaks of the port alone. -/
def Link.Lawful (l : Link) : Prop :=
  l.slots.length ≤ 2 ∧ l.queue.length ≤ 16 ∧ (l.tx = some .answer → l.slots ≠ []) ∧ maskAllowed l.mask = true

theorem linkLaw_iff {s : State} : LinkLaw s ↔ s.link.Lawful ∧ maskAllowed s.site.defaultMask = true := by
  unfold LinkLaw Link.Lawful
  tauto

section
variable {l : Link}

theorem Link.Lawful.hand (h : l.Lawful) (n : Notice) : (l.hand n).Lawful := by
  obtain ⟨hslots, hqueue, htx, hmask⟩ := h
  unfold Link.hand
  split_ifs with hoff hroom
  · exact ⟨hslots, hqueue, htx, hmask⟩
  · exact ⟨hslots, by simpa using hroom, htx, hmask⟩
  · exact ⟨hslots, hqueue, htx, hmask⟩

theorem Link.Lawful.handAll (h : l.Lawful) (ns : List Notice) : (l.handAll ns).Lawful := by
  induction ns generalizing l with
  | nil => exact h
  | cons n ns ih => exact ih (h.hand n)

theorem Link.Lawful.transmit (h : l.Lawful) : l.transmit.Lawful := by
  obtain ⟨hslots, hqueue, htx, hmask⟩ := h
  unfold Link.transmit
  split
  · exact ⟨hslots, hqueue, htx, hmask⟩
  · split
    · rename_i a r _ hfull
      exact ⟨hslots, hqueue, fun _ => by simp [hfull], hmask⟩
    · rename_i n r _ hq
      refine ⟨hslots, ?_, by simp, hmask⟩
      have hlength : (n :: r).length ≤ 16 := hq ▸ hqueue
      exact (Nat.le_succ _).trans hlength
    · exact ⟨hslots, hqueue, htx, hmask⟩

theorem Link.Lawful.place (h : l.Lawful) (hroom : l.slots.length < 2) (a : Answer) : (l.place a).Lawful := by
  obtain ⟨-, hqueue, -, hmask⟩ := h
  exact ⟨by simpa [Link.place] using hroom, hqueue, fun _ => by simp [Link.place], hmask⟩

theorem Link.Lawful.discard (h : l.Lawful) : ({ l with rxBuffer := [] } : Link).Lawful := h

theorem Link.Lawful.boot (inputs : ResetInputs) {m : BitVec 32} (h : maskAllowed m = true) : (bootLink inputs m).Lawful :=
  ⟨Nat.zero_le _, Nat.zero_le _, by simp [bootLink], h⟩

end

/-! ## The effects and the port -/

/-- An event's own effect leaves the link port and the site settings. -/
theorem EventEffect.link_site {f : Ev → Ev} (hf : EventEffect f) (e : Ev) :
    (f e).st.link = e.st.link ∧ (f e).st.site = e.st.site := by
  cases hf <;> simp

/-- A request's own effect leaves the answer slots and the queue, and no mask that it writes has an unassigned bit. -/
theorem RequestEffect.linkLaw {f : Ev → Ev × Reply} (hf : RequestEffect f) {e : Ev} (h : LinkLaw e.st) :
    LinkLaw (f e).1.st ∧ (f e).1.st.link.slots = e.st.link.slots := by
  have of_same : ∀ {t : State}, t.link = e.st.link → t.site.defaultMask = e.st.site.defaultMask →
      LinkLaw t ∧ t.link.slots = e.st.link.slots := fun hlink hmask => by
    unfold LinkLaw
    rw [hlink, hmask]
    exact ⟨h, rfl⟩
  cases hf with
  | answers hx => rw [hx]; exact ⟨h, rfl⟩
  | readStatus => exact ⟨h, rfl⟩
  | setNoticeMask ok m b =>
    obtain ⟨hslots, hqueue, htx, hmask, hdefault⟩ := h
    unfold Machine.setNoticeMask settingsWrite
    split_ifs with hm hb hok
    · exact ⟨⟨hslots, hqueue, htx, hmask, hdefault⟩, rfl⟩
    · exact ⟨⟨hslots, hqueue, htx, by simpa using hm, by simpa using hm⟩, rfl⟩
    · exact ⟨⟨hslots, hqueue, htx, hmask, hdefault⟩, rfl⟩
    · exact ⟨⟨hslots, hqueue, htx, by simpa using hm, hdefault⟩, rfl⟩
  | writeTreadleSettings ok x => exact of_same (by simp) (by unfold Machine.writeTreadleSettings settingsWrite; split_ifs <;> rfl)
  | writeGroupLimits ok x => exact of_same (by simp) (by unfold Machine.writeGroupLimits settingsWrite; split_ifs <;> rfl)
  | writeClass ok x => exact of_same (by simp) (by unfold Machine.writeClass settingsWrite; repeat' split <;> try rfl)
  | writeTicketSettings ok x => exact of_same (by simp) (by unfold Machine.writeTicketSettings settingsWrite; split_ifs <;> rfl)
  | _ => exact of_same (by simp) (by simp)

/-! ## The law of the link port through a command -/

section
variable {s : State}

theorem LinkLaw.setLink {l : Link} (h : LinkLaw s) (hl : l.Lawful) : LinkLaw (s.setLink l) :=
  linkLaw_iff.mpr ⟨hl, (linkLaw_iff.mp h).2⟩

theorem LinkLaw.settle {e : Ev} (h : LinkLaw e.st) (s0 : State) : LinkLaw (settle s0 e) := by
  rw [settle_eq]
  refine LinkLaw.setLink ?_ ((linkLaw_iff.mp h).1.handAll _)
  unfold LinkLaw
  rw [formEntryLamp_link, formEntryLamp_site]
  exact h

theorem LinkLaw.serveLink (h : LinkLaw s) : LinkLaw (serveLink s) := h.setLink (linkLaw_iff.mp h).1.transmit

theorem LinkLaw.answer (h : LinkLaw s) (hroom : s.link.slots.length < 2) (k : Byte) (r : Reply) :
    LinkLaw (answer k r s) := h.setLink ((linkLaw_iff.mp h).1.place hroom _)

theorem LinkLaw.endFrame (h : LinkLaw s) : LinkLaw (endFrame s) := h.setLink (linkLaw_iff.mp h).1.discard

theorem LinkLaw.boot {t : State} (inputs : ResetInputs) {m : BitVec 32} (hm : maskAllowed m = true)
    (hlink : t.link = bootLink inputs m) (hsite : t.site = s.site) (h : LinkLaw s) : LinkLaw t := by
  rw [linkLaw_iff, hlink, hsite]
  exact ⟨.boot inputs hm, (linkLaw_iff.mp h).2⟩

theorem LinkLaw.warmReset (h : LinkLaw s) (inputs : ResetInputs) : LinkLaw (warmReset inputs s) :=
  h.boot inputs (linkLaw_iff.mp h).1.2.2.2 (warmReset_link inputs s) (warmReset_site inputs s)

theorem LinkLaw.linkError (h : LinkLaw s) (c : LinkCause) (k : Byte) : LinkLaw (linkError c k s) := by
  unfold Machine.linkError
  dsimp only
  split_ifs with hroom
  · exact (h.endFrame.answer hroom _ _).serveLink
  · exact h.endFrame

theorem LinkLaw.transmitted (h : LinkLaw s) (inputs : ResetInputs) : LinkLaw (transmitted inputs s) := by
  obtain ⟨hslots, hqueue, htx, hmask, hdefault⟩ := h
  unfold Machine.transmitted
  split
  · exact ⟨hslots, hqueue, htx, hmask, hdefault⟩
  · exact LinkLaw.serveLink ⟨hslots, hqueue, by simp, hmask, hdefault⟩
  · split_ifs
    · exact LinkLaw.warmReset ⟨hslots, hqueue, htx, hmask, hdefault⟩ inputs
    · refine LinkLaw.serveLink ⟨?_, hqueue, by simp, hmask, hdefault⟩
      simp only [State.setLink_link, List.length_tail]
      omega

/-- A request fills a slot only when it found one empty (R168). -/
theorem LinkLaw.request {t : State} (h : LinkLaw s) {k : Byte} {f : Ev → Ev × Reply}
    (hf : LinkLaw (f (Ev.start (Machine.endFrame s))).1.st ∧
      (f (Ev.start (Machine.endFrame s))).1.st.link.slots = s.link.slots)
    (ht : request k f s = .next t) : LinkLaw t := by
  obtain ⟨hlaw, hkept⟩ := hf
  cases hsupply : s.mainSupply with
  | false =>
    rw [request_off _ _ _ hsupply] at ht
    cases ht
    exact h
  | true =>
    match hslots : s.link.slots with
    | [] =>
      rw [request_empty _ _ _ hsupply hslots] at ht
      cases ht
      refine (LinkLaw.answer (hlaw.settle _) ?_ _ _).serveLink
      rw [settle_slots, hkept, hslots]
      exact Nat.zero_lt_two
    | [a] =>
      rw [request_one _ _ _ hsupply hslots] at ht
      cases ht
      refine (h.endFrame.answer ?_ _ _).serveLink
      rw [endFrame_link, hslots]
      exact Nat.one_lt_two
    | a :: b :: r =>
      rw [request_full _ _ _ hsupply (by simp [hslots])] at ht
      cases ht
      exact h.endFrame

theorem LinkLaw.executes {c : Instr} {t : State} (hx : Executes c s t) (h : LinkLaw s) : LinkLaw t := by
  cases hx with
  | same => exact h
  | @event f _ hf hsupply ht =>
    rw [event_on _ _ hsupply] at ht
    cases ht
    obtain ⟨hlink, hsite⟩ := hf.link_site (Ev.start s)
    refine (LinkLaw.settle ?_ s).serveLink
    unfold LinkLaw
    rw [hlink, hsite]
    exact h
  | request hf ht => exact h.request (hf.linkLaw (e := Ev.start (Machine.endFrame s)) h.endFrame) ht
  | commit hc ht =>
    refine h.request ⟨?_, by simp⟩ ht
    unfold LinkLaw
    simp only [commitAdjustment_keeps]
    exact h.endFrame
  | linkError cause k => exact h.linkError cause k
  | endFrame => exact h.endFrame
  | transmitted inputs => exact h.transmitted inputs
  | backupCarry _ =>
    unfold Machine.backupCarry
    split
    · exact h
    · split_ifs <;> exact h
  | monitor cal _ => exact h
  | supplyFails =>
    rcases supplyFails_eq s with h1 | ⟨c, h1, -⟩ <;> rw [h1] <;> exact h
  | coldStart inputs => exact h.boot inputs (linkLaw_iff.mp h).2 (coldStart_link inputs s) (coldStart_site inputs s)
  | powerOnReset inputs =>
    exact h.boot inputs (linkLaw_iff.mp h).2 (powerOnReset_link inputs s) (powerOnReset_site inputs s)
  | warmReset inputs => exact h.warmReset inputs

end

/-! ## The excitation and the scale state (R22, R23) -/

/-- The excitation is off exactly in STANDBY. -/
def Acq.Excited (a : Acq) : Prop := a.excitation = decide (a.scale ≠ .standby)

theorem Acq.Excited.of_same {a b : Acq} (h : a.Excited) (hscale : b.scale = a.scale)
    (hexc : b.excitation = a.excitation) : b.Excited := by
  unfold Acq.Excited
  rw [hscale, hexc]
  exact h

section
variable {e : Ev}

theorem wake_excited (h : e.st.acq.Excited) : (wake e).st.acq.Excited := by
  unfold wake
  split_ifs
  · exact rfl
  · exact h

theorem acquire_excited (inp : SampleInput) (h : e.st.acq.Excited) : (acquire inp e).ev.st.acq.Excited := by
  unfold acquire acquireRun
  dsimp only
  split
  · dsimp only
    split_ifs <;> exact h
  · exact h
  · exact h

theorem sampleEvent_excited (inp : SampleInput) (h : e.st.acq.Excited) : (sampleEvent inp e).st.acq.Excited := by
  unfold sampleEvent warmupEnd
  dsimp only
  split_ifs
  · exact rfl
  · simpa using acquire_excited inp h

theorem changeChannel_excited (i : Chan) (c : Channel) (h : e.st.acq.Excited) :
    (changeChannel i c e).st.acq.Excited := by
  unfold changeChannel
  dsimp only
  cases e.st.onDeck i && ((e.st.acq.channels.get i).health.included != c.health.included) <;> exact h

end

/-! ## What keeps the settings law -/

/-- A change that leaves the settings, lets neither record outgrow its capacity, and leaves the excitation right. -/
structure KeepsSettings (s t : State) : Prop where
  site : t.site = s.site
  timeout : t.cap.timeout = s.cap.timeout
  spikeLimit : t.acq.spikeLimit = s.acq.spikeLimit
  trail : s.store.trail.length ≤ 48 → t.store.trail.length ≤ 48
  audits : s.store.audits.length ≤ 8 → t.store.audits.length ≤ 8
  excited : s.acq.Excited → t.acq.Excited

section
variable {s t : State}

theorem KeepsSettings.of_same (hsite : t.site = s.site) (htimeout : t.cap.timeout = s.cap.timeout)
    (hacq : t.acq = s.acq) (htrail : t.store.trail = s.store.trail) (haudits : t.store.audits = s.store.audits) :
    KeepsSettings s t :=
  ⟨hsite, htimeout, by rw [hacq], by rw [htrail]; exact id, by rw [haudits]; exact id, by rw [hacq]; exact id⟩

/-- A new trail entry and a new audit record push the oldest out (R146, R156). -/
theorem KeepsSettings.of_records (hsite : t.site = s.site) (htimeout : t.cap.timeout = s.cap.timeout)
    (hacq : t.acq = s.acq) (htrail : s.store.trail.length ≤ 48 → t.store.trail.length ≤ 48)
    (haudits : s.store.audits.length ≤ 8 → t.store.audits.length ≤ 8) : KeepsSettings s t :=
  ⟨hsite, htimeout, by rw [hacq], htrail, haudits, by rw [hacq]; exact id⟩

theorem KeepsSettings.of_acq (hsite : t.site = s.site) (htimeout : t.cap.timeout = s.cap.timeout)
    (hstore : t.store.trail = s.store.trail) (haudits : t.store.audits = s.store.audits)
    (hspike : t.acq.spikeLimit = s.acq.spikeLimit) (hexc : s.acq.Excited → t.acq.Excited) : KeepsSettings s t :=
  ⟨hsite, htimeout, hspike, by rw [hstore]; exact id, by rw [haudits]; exact id, hexc⟩

theorem SettingsLaw.of_keeps (h : SettingsLaw s) (k : KeepsSettings s t) : SettingsLaw t := by
  obtain ⟨htreadle, hlimits, hticket, hclasses, htimeout, hspike, htrail, haudits, hexc⟩ := h
  unfold SettingsLaw
  rw [k.site, k.timeout, k.spikeLimit]
  exact ⟨htreadle, hlimits, hticket, hclasses, htimeout, hspike, k.trail htrail, k.audits haudits, k.excited hexc⟩

end

theorem auditCloseStore_audits_le {st : Store} (r : AuditRecord) (h : st.audits.length ≤ 8) :
    (auditCloseStore r st).audits.length ≤ 8 := by
  unfold auditCloseStore
  simp only [addTrail_audits, List.length_append, List.length_singleton]
  split_ifs with hfull
  · simp only [List.length_drop]
    omega
  · omega

theorem auditCloseStore_trail_le {st : Store} (r : AuditRecord) (h : st.trail.length ≤ 48) :
    (auditCloseStore r st).trail.length ≤ 48 := addTrail_trail_le _ _ h

theorem commitStore_trail_le {st : Store} (c : MetroConfig) (stamp : Option DateTime) (h : st.trail.length ≤ 48) :
    (commitStore c stamp st).trail.length ≤ 48 := addTrail_trail_le _ _ h

/-- A class that Write Class writes lies in its ranges (R77). -/
theorem ClassWrite.entry_inRange {w : ClassWrite} {i : Fin 32} {x : ClassEntry} (h : w.entry = some (i, x)) :
    x.inRange = true := by
  unfold ClassWrite.entry at h
  split at h
  · split_ifs at h
    cases h
    simp [ClassEntry.inRange, *]
  · cases h

/-- A class written over one entry leaves every entry in its ranges. -/
theorem classes_inRange_set {b : Bank ClassEntry 32} (h : ∀ j, (b.get j).inRange = true) (i : Fin 32) {x : ClassEntry}
    (hx : x.inRange = true) (j : Fin 32) : ((b.set i x).get j).inRange = true := by
  rw [Bank.get_set]
  split_ifs
  · exact hx
  · exact h j

/-! ## The settings law through the effects -/

section
variable {e : Ev}

/-- A write of the settings area that keeps the law when it verifies keeps it (R113). -/
theorem SettingsLaw.settingsWrite (ok : Bool) {f : State → State} (h : SettingsLaw e.st) (hf : SettingsLaw (f e.st)) :
    SettingsLaw (settingsWrite ok f e).1.st := by
  unfold Machine.settingsWrite
  split_ifs
  · exact hf
  · exact h

theorem SettingsLaw.closeAudit (h : SettingsLaw e.st) (ok : Bool) : SettingsLaw (closeAudit ok e).1.st := by
  rcases closeAudit_cases ok e with h1 | h1 | ⟨x, now, r, -, -, -, -, h1⟩
  · rwa [h1]
  · rw [h1]
    exact h.of_keeps (.of_same (by simp) (by simp) (by simp) (by simp) (by simp))
  · rw [h1]
    exact h.of_keeps (.of_records (by simp) (by simp) (by simp)
      (fun htrail => by simpa using auditCloseStore_trail_le r htrail)
      (fun haudits => by simpa using auditCloseStore_audits_le r haudits))

theorem SettingsLaw.setCalendar (h : SettingsLaw e.st) (ok : Bool) (t : DateTime) :
    SettingsLaw (setCalendar ok t e).1.st := by
  rcases setCalendar_cases ok t e with h1 | h1 | ⟨-, -, h1⟩
  · rwa [h1]
  · rw [h1]
    exact h.of_keeps (.of_same (by simp) (by simp) (by simp) (by simp) (by simp))
  · rw [h1]
    exact h.of_keeps (.of_records (by simp) (by simp) (by simp)
      (fun htrail => by simpa using addTrail_trail_le _ _ htrail) (fun haudits => by simpa using haudits))

theorem SettingsLaw.commit (h : SettingsLaw e.st) (ok : Bool) : SettingsLaw (commitAdjustment ok e).1.st := by
  rcases commitAdjustment_cases ok e with h1 | h1 | ⟨sess, -, -, -, h1⟩
  · rwa [h1]
  · rw [h1]
    exact h.of_keeps (.of_same (by simp) (by simp) (by simp) (by simp) (by simp))
  · rw [h1]
    exact h.of_keeps (.of_records (by simp) (by simp) (by simp)
      (fun htrail => by simpa [(afterCommit_store _).1] using commitStore_trail_le sess.staged e.st.cal.value htrail)
      (fun haudits => by simpa [(afterCommit_store _).1, commitStore] using haudits))

/-- Every request writes settings in their ranges, or none. -/
theorem SettingsLaw.request {f : Ev → Ev × Reply} (hf : RequestEffect f) (h : SettingsLaw e.st) :
    SettingsLaw (f e).1.st := by
  have hlaw := h
  obtain ⟨htreadle, hlimits, hticket, hclasses, htimeout, hspike, htrail, haudits, hexc⟩ := hlaw
  have of_acq : ∀ {t : State}, t.site = e.st.site → t.cap.timeout = e.st.cap.timeout →
      t.store = e.st.store → t.acq.spikeLimit = e.st.acq.spikeLimit → t.acq.Excited → SettingsLaw t :=
    fun h1 h2 h3 h4 h5 => h.of_keeps (.of_acq h1 h2 (by rw [h3]) (by rw [h3]) h4 fun _ => h5)
  cases hf with
  | answers hx => rwa [hx]
  | setNoticeMask ok m b =>
    unfold Machine.setNoticeMask
    split_ifs
    · exact h
    · exact h.settingsWrite ok h
    · exact h
  | enterStandby =>
    refine of_acq (by simp) (by simp) (by simp) (by simp) ?_
    unfold Machine.enterStandby
    dsimp only
    split_ifs
    · exact hexc
    · exact hexc
    · exact hexc
    · exact hexc
    · exact rfl
  | leaveStandby => exact of_acq (by simp) (by simp) (by simp) (by simp) (wake_excited hexc)
  | writeChannelSettings n =>
    unfold Machine.writeChannelSettings
    split_ifs with hrange
    · exact ⟨htreadle, hlimits, hticket, hclasses, htimeout, hrange, htrail, haudits, hexc⟩
    · exact h
  | excludeChannel n =>
    refine of_acq (by simp) (by simp) (by simp) (by simp) ?_
    unfold Machine.excludeChannel
    split
    · exact hexc
    · dsimp only
      split_ifs
      · exact hexc
      · exact changeChannel_excited _ _ hexc
  | reinstateChannel n =>
    refine of_acq (by simp) (by simp) (by simp) (by simp) ?_
    unfold Machine.reinstateChannel
    split
    · exact hexc
    · dsimp only
      split_ifs
      · exact changeChannel_excited _ _ hexc
      · exact hexc
  | readChannel n =>
    refine of_acq (by simp) (by simp) (by simp) (by simp) ?_
    unfold Machine.readChannel
    split <;> exact hexc
  | readFaultCapture =>
    refine of_acq (by simp) (by simp) (by simp) (by simp) ?_
    unfold Machine.readFaultCapture
    split <;> exact hexc
  | writeTreadleSettings ok x =>
    unfold Machine.writeTreadleSettings
    split_ifs with hrange
    · exact h.settingsWrite ok ⟨hrange, hlimits, hticket, hclasses, htimeout, hspike, htrail, haudits, hexc⟩
    · exact h
  | writeGroupLimits ok x =>
    unfold Machine.writeGroupLimits
    split_ifs with hrange
    · exact h.settingsWrite ok ⟨htreadle, hrange, hticket, hclasses, htimeout, hspike, htrail, haudits, hexc⟩
    · exact h
  | writeClass ok x =>
    unfold Machine.writeClass
    split
    · exact h
    · rename_i i c hentry
      split_ifs
      · exact h
      · exact h.settingsWrite ok ⟨htreadle, hlimits, hticket,
          classes_inRange_set hclasses i (ClassWrite.entry_inRange hentry), htimeout, hspike, htrail, haudits, hexc⟩
  | writeTicketSettings ok x =>
    unfold Machine.writeTicketSettings
    split_ifs with hrange
    · exact h.settingsWrite ok ⟨htreadle, hlimits, hrange, hclasses, htimeout, hspike, htrail, haudits, hexc⟩
    · exact h
  | writeCaptureSettings n =>
    unfold Machine.writeCaptureSettings
    split_ifs with hrange
    · exact ⟨htreadle, hlimits, hticket, hclasses, hrange, hspike, htrail, haudits, hexc⟩
    · exact h
  | closeAudit ok => exact h.closeAudit ok
  | setCalendar ok t => exact h.setCalendar ok t
  | _ => exact h.of_keeps (.of_same (by simp) (by simp) (by simp) (by simp) (by simp))

theorem activation_excited (ok : Bool) (l : LineNo) (el : Element) (t : Nat) (h : e.st.acq.Excited) :
    (activation ok l el t e).st.acq.Excited := by
  unfold activation
  dsimp only
  split_ifs with hlevel
  · exact h
  · generalize hset : Ev.upd _ e = e1
    have h1 : e1.st.acq.Excited := hset ▸ h
    generalize hwoken : e1.when _ wake = e2
    have h2 : e2.st.acq.Excited := by
      subst hwoken
      unfold Ev.when
      split_ifs
      · exact wake_excited h1
      · exact h1
    unfold Ev.when
    split_ifs
    · simpa using h2
    · exact h2

theorem loopChange_excited (ok : Bool) (lp : Loop) (b : Bool) (h : e.st.acq.Excited) :
    (loopChange ok lp b e).st.acq.Excited := by
  unfold loopChange
  dsimp only
  split_ifs with hsame
  · exact h
  · simp only [formOccupancy_keeps, Ev.upd_st, restart_keeps]
    unfold Ev.when
    split_ifs
    · exact wake_excited h
    · exact h

theorem SettingsLaw.event {f : Ev → Ev} (hf : EventEffect f) (h : SettingsLaw e.st) : SettingsLaw (f e).st := by
  have hexc := h.2.2.2.2.2.2.2.2
  cases hf with
  | sampleEvent inp =>
    exact h.of_keeps (.of_acq (by simp) (by simp) (by simp) (by simp) (by simp) fun _ => sampleEvent_excited inp hexc)
  | activation ok l el t =>
    exact h.of_keeps (.of_acq (by simp) (by simp) (by simp) (by simp) (by simp)
      fun _ => activation_excited ok l el t hexc)
  | loopChange ok lp b =>
    exact h.of_keeps (.of_acq (by simp) (by simp) (by simp) (by simp) (by simp)
      fun _ => loopChange_excited ok lp b hexc)
  | _ => exact h.of_keeps (.of_same (by simp) (by simp) (by simp) (by simp) (by simp))

end

/-- Every reset keeps the settings and the records, and sets the timeout and the spike limit (R30, R39, R96). -/
theorem SettingsLaw.boot {s t : State} (h : SettingsLaw s) (hsite : t.site = s.site) (hstore : t.store = s.store)
    (hcap : t.cap = bootCap) (hspike : t.acq.spikeLimit = resetSpikeLimit) (hexc : t.acq.Excited) : SettingsLaw t := by
  obtain ⟨htreadle, hlimits, hticket, hclasses, -, -, htrail, haudits, -⟩ := h
  unfold SettingsLaw
  rw [hsite, hstore, hcap, hspike]
  exact ⟨htreadle, hlimits, hticket, hclasses, by decide, by decide, htrail, haudits, hexc⟩

theorem settingsLaw_kept : KeptByEffects SettingsLaw where
  link _ _ h := h
  lamp _ _ h := h
  pending _ _ h := h
  request _ _ hf h := h.request hf
  commit ok _ h := h.commit ok
  event _ _ hf h := h.event hf
  carry s _ h := by
    unfold backupCarry
    split
    · exact h
    · split_ifs <;> exact h
  monitor _ _ _ h := h
  supplyFails s h := by
    rcases supplyFails_eq s with h1 | ⟨c, h1, -⟩ <;> rw [h1] <;> exact h
  coldStart _ _ h := h.boot rfl rfl rfl rfl rfl
  powerOnReset _ _ h := h.boot rfl rfl rfl rfl rfl
  warmReset _ _ h := h.boot rfl rfl rfl rfl h.2.2.2.2.2.2.2.2

/-- Settles O4: the port by its operations, the settings by what each effect writes of them. -/
theorem linkAndSettingsLawsKept : Obligations.LinkAndSettingsLawsKept := by
  refine ⟨fun s t h ht => ?link, fun s t h ht => settingsLaw_kept.step h ht⟩
  case link =>
    obtain ⟨c, r, hx⟩ := step_executes ht
    exact LinkLaw.executes hx h

end Sys2Proof.Machine

/-! PROOFS. The state after reset (logs 8 and 9): the cold start of a part never written, and the laws in it. -/

namespace Sys2Proof.Machine

/-! ## The cold start of a part never written -/

/-- No deck is active in the default configuration. -/
theorem defaultConfig_activeDecks : defaultConfig.activeDecks = [] := by decide

/-- The default configuration agrees with its checksum and is INVALID for want of an active deck (R134, R135). -/
theorem startupValid_reset : startupValid State.reset.store = false := by
  change (_ && defaultConfig.activeDecks != []) = false
  rw [defaultConfig_activeDecks]
  exact Bool.and_false _

/-- Every input at rest. -/
def inputsAtRest : ResetInputs :=
  { levelA := Bank.fill 5 false, levelB := Bank.fill 5 false, loopEntry := false, loopExit := false
    switchCal := false, fastBaud := false }

theorem bootAxle_atRest : bootAxle inputsAtRest 0 = State.reset.axle := by decide +kernel

theorem bootAcq_reset :
    bootAcq State.reset.acq.assign (warmupLength (startupValid State.reset.store) State.reset.store.config) =
      State.reset.acq := by
  rw [startupValid_reset]
  rfl

theorem statusReasons_reset :
    statusReasons false false State.reset.store none = State.reset.metro.status := by decide +kernel

/-- The state after reset is its own cold start. -/
theorem coldStart_reset : coldStart inputsAtRest State.reset = State.reset := by
  unfold coldStart powerUp resetStatus
  dsimp only
  rw [bootAcq_reset, bootAxle_atRest, startupValid_reset]
  change State.setMetro _ { valid := false, switchCal := false, status := statusReasons false false State.reset.store none } = _
  rw [statusReasons_reset]
  rfl

/-! ## The laws of the state after reset -/

theorem reset_slot : State.reset.cap.slot = .free := rfl

theorem linkLaw_reset : LinkLaw .reset := by
  unfold LinkLaw
  decide

theorem axleLaw_reset : AxleLaw .reset := by
  unfold AxleLaw AxleMap.lawful
  decide +kernel

theorem tableLaw_reset : TableLaw .reset := by
  refine ⟨⟨Nat.zero_le _, List.nodup_nil, fun i j a b hi _ _ => ?_⟩, fun op hop => (by cases hop)⟩
  have hempty : State.reset.store.tares.get i = none := Bank.get_fill none i
  rw [hempty] at hi
  cases hi

theorem ticketLaw_reset : TicketLaw .reset := ⟨Nat.zero_le _, rfl⟩

theorem reservationLaw_reset : ReservationLaw .reset :=
  ⟨Nat.zero_le _, Nat.zero_le _, fun op hop => (by cases hop)⟩

theorem calendarLaw_reset : CalendarLaw .reset := fun t _ ht => by cases ht

theorem settingsLaw_reset : SettingsLaw .reset := by
  unfold SettingsLaw
  decide +kernel

theorem zeroLaw_reset : ZeroLaw .reset :=
  ⟨Nat.zero_le _, Nat.zero_le _, Nat.zero_le _,
    fun _ => ⟨rfl, no_capture_of_free rfl, fun d => ⟨Bank.get_fill _ d, Bank.get_fill _ d, Bank.get_fill _ d⟩⟩,
    fun hset => by cases hset⟩

/-- The default mask has every bit but those that no notice is assigned to (R172). -/
theorem fullMask_bits : ∀ b : Fin 32, fullMask.getLsbD b = true ↔ b.val ≠ 9 ∧ b.val ≠ 31 := by decide

theorem reset_checksum : State.reset.store.checksum = configChecksum State.reset.store.config := by
  rw [State.reset]

/-- Settles O3: the cold start by its parts, the laws one by one, and the default records by evaluation. -/
theorem resetState : Obligations.ResetState := by
  refine ⟨?cold, ⟨linkLaw_reset, axleLaw_reset, tableLaw_reset, ticketLaw_reset,
    reservationLaw_reset, fun _ => statusReasons_reset.symm, calendarLaw_reset, settingsLaw_reset, fun _ => rfl,
    zeroLaw_reset⟩, ?site, ?config, ?records⟩
  case cold => exact congrArg Host.Outcome.next coldStart_reset
  case site => exact ⟨rfl, rfl, fun i => Bank.get_fill _ i, rfl, fun b hb => fullMask_bits ⟨b, hb⟩⟩
  case config =>
    exact ⟨fun i => Bank.get_fill _ i, fun d => ⟨Bank.get_fill _ d, Bank.get_fill _ d⟩, rfl, rfl, rfl, rfl, rfl, rfl,
      rfl, rfl, rfl, defaultConfig_activeDecks⟩
  case records => exact ⟨reset_checksum, rfl, rfl, rfl, rfl, rfl, rfl, fun i => Bank.get_fill _ i, rfl, rfl, rfl, rfl, rfl⟩

end Sys2Proof.Machine

/-! PROOFS. The frames of the link (R167, R168, R169): a frame is received as the request that it carries, and the
frames that are turned down. -/

namespace Sys2Proof.Machine

/-! ## Numbers in bytes -/

@[simp] theorem leBytes_length (k n : Nat) : (leBytes k n).length = k := by
  induction k generalizing n with
  | zero => rfl
  | succ k ih => simp [leBytes, ih]

/-- The bytes of a number spell it modulo what they can hold. -/
theorem leValue_leBytes (k n : Nat) : leValue (leBytes k n) = n % 256 ^ k := by
  induction k generalizing n with
  | zero => simp [leBytes, leValue, Nat.mod_one]
  | succ k ih => simp [leBytes, leValue, ih, Nat.pow_succ', Nat.mod_mul]

theorem leValue_leBytes_of_lt {k n : Nat} (h : n < 256 ^ k) : leValue (leBytes k n) = n := by
  rw [leValue_leBytes, Nat.mod_eq_of_lt h]

/-! ## A frame received (R167) -/

theorem receiveFrame_frame (ok : Bool) (kind : Byte) {p : List Byte} (hfits : p.length ≤ maxPayload) :
    receiveFrame ok (kind :: leBytes 2 p.length ++ p ++ leBytes 2 (frameCrc kind p).toNat) =
      some (commandOf kind p ok, []) := by
  have hlength : leValue [BitVec.ofNat 8 p.length, BitVec.ofNat 8 (p.length / 256)] = p.length :=
    leValue_leBytes_of_lt (k := 2) (lt_of_le_of_lt hfits (by decide))
  have hcrc : leValue (leBytes 2 (frameCrc kind p).toNat) = (frameCrc kind p).toNat :=
    leValue_leBytes_of_lt (frameCrc kind p).isLt
  change receiveFrame ok (kind :: BitVec.ofNat 8 p.length :: BitVec.ofNat 8 (p.length / 256) ::
    (p ++ leBytes 2 (frameCrc kind p).toNat)) = _
  rw [receiveFrame]
  simp only [hlength]
  rw [if_neg (by omega), if_neg (by simp)]
  simp [List.take_of_length_le, hcrc]

/-- The receiver hunts through what is not a start byte (R167). -/
theorem receiveFrom_noise (ok : Bool) {noise : List Byte} (h : (0xA5 : Byte) ∉ noise) (fuel : Nat) (bs : List Byte) :
    receiveFrom ok (noise.length + fuel) (noise ++ bs) = receiveFrom ok fuel bs := by
  induction noise with
  | nil => simp
  | cons b r ih =>
    obtain ⟨hb, hr⟩ := not_or.mp (mt List.mem_cons.mpr h)
    rw [List.length_cons, Nat.add_right_comm, List.cons_append, receiveFrom, if_neg (Ne.symm hb), ih hr]

theorem receiveFrom_nil (ok : Bool) (fuel : Nat) : receiveFrom ok fuel [] = [] := by
  cases fuel <;> rfl

theorem receive_frame (ok : Bool) (kind : Byte) {p noise : List Byte} (hfits : p.length ≤ maxPayload)
    (hnoise : (0xA5 : Byte) ∉ noise) : receive ok (noise ++ frameBytes kind p) = [commandOf kind p ok] := by
  unfold receive
  rw [List.length_append, receiveFrom_noise ok hnoise]
  change receiveFrom ok (_ + 1) (0xA5 :: (kind :: leBytes 2 p.length ++ p ++ leBytes 2 (frameCrc kind p).toNat)) = _
  rw [receiveFrom, if_pos rfl, receiveFrame_frame ok kind hfits]
  dsimp only
  rw [receiveFrom_nil]

/-! ## The command of a kind byte (R169) -/

/-- Each row of the table of kinds makes a command that carries its kind. -/
theorem requestTable_frame (p : List Byte) (ok : Bool) :
    ∀ r ∈ requestTable, (r.2 p ok).frame? = some (r.1, p) := by
  simp [requestTable, Instr.frame?]

theorem commandOf_frame (kind : Byte) (p : List Byte) (ok : Bool) : (commandOf kind p ok).frame? = some (kind, p) := by
  unfold commandOf
  split
  · rename_i r hr
    rw [requestTable_frame p ok r (List.mem_of_find?_eq_some hr)]
    have hkind := List.find?_some hr
    simp at hkind
    rw [hkind]
  · rfl

theorem commandOf_unknown {kind : Byte} (h : namesRequest kind = false) (p : List Byte) (ok : Bool) :
    commandOf kind p ok = .unknownRequest kind p := by
  have hnone : requestTable.find? (fun r => r.1 == kind) = none := by
    rw [List.find?_eq_none]
    intro r hr hkind
    have hmem : requestKinds.contains kind = true :=
      List.contains_iff_mem.mpr (List.mem_map.mpr ⟨r, hr, by simpa using hkind⟩)
    exact absurd hmem (by rw [show requestKinds.contains kind = false from h]; decide)
  unfold commandOf
  rw [hnone]

/-- The payload of a request that can come about fits a frame (R167). -/
theorem payload_fits {i : Instr} {kind : Byte} {p : List Byte} (h : i.frame? = some (kind, p))
    (hwf : i.wellFormed = true) : p.length ≤ maxPayload := by
  cases i with
  | unknownRequest k q =>
    cases h
    obtain ⟨hfits, -⟩ := Bool.and_eq_true_iff.mp hwf
    exact of_decide_eq_true hfits
  | lengthError k n => cases h
  | crcError k q crc => cases h
  | _ => cases h <;> exact of_decide_eq_true hwf

/-- A request is the command of its frame, with the outcome of its write (log 7). -/
theorem commandOf_request {i : Instr} {kind : Byte} {p : List Byte} (h : i.frame? = some (kind, p))
    (hwf : i.wellFormed = true) : ∃ ok, commandOf kind p ok = i := by
  cases i with
  | unknownRequest k q =>
    cases h
    obtain ⟨-, hunknown⟩ := Bool.and_eq_true_iff.mp hwf
    exact ⟨true, commandOf_unknown (by simpa using hunknown) p true⟩
  | setNoticeMask q ok => cases h; exact ⟨ok, rfl⟩
  | writeTreadleSettings q ok => cases h; exact ⟨ok, rfl⟩
  | writeGroupLimits q ok => cases h; exact ⟨ok, rfl⟩
  | writeClass q ok => cases h; exact ⟨ok, rfl⟩
  | cancelTransaction q ok => cases h; exact ⟨ok, rfl⟩
  | deleteStoredTare q ok => cases h; exact ⟨ok, rfl⟩
  | releaseTicket q ok => cases h; exact ⟨ok, rfl⟩
  | writeTicketSettings q ok => cases h; exact ⟨ok, rfl⟩
  | commitAdjustment q ok => cases h; exact ⟨ok, rfl⟩
  | closeAudit q ok => cases h; exact ⟨ok, rfl⟩
  | setCalendar q ok => cases h; exact ⟨ok, rfl⟩
  | _ => cases h <;> exact ⟨true, rfl⟩

/-- Settles O14: the receiver finds the frame behind the noise, and its kind names the command. -/
theorem frameRoundTrip : Obligations.FrameRoundTrip := by
  intro i kind p noise hframe hwf hnoise
  have hencode : i.encode = frameBytes kind p := by rw [Instr.encode, hframe]
  have hreceived : ∀ ok, receive ok (noise ++ i.encode) = [commandOf kind p ok] := fun ok => by
    rw [hencode]
    exact receive_frame ok kind (payload_fits hframe hwf) hnoise
  refine ⟨?_, fun ok => ⟨_, hreceived ok, commandOf_frame kind p ok⟩⟩
  obtain ⟨ok, hok⟩ := commandOf_request hframe hwf
  exact ⟨ok, (hreceived ok).trans (by rw [hok])⟩

end Sys2Proof.Machine

/-! PROOFS. The frames that are turned down (R167, R168), and the notices and the transmitter (R170, R171). -/

namespace Sys2Proof.Machine

/-! ## Every request is a request of the link port (R168) -/

/-- The kind byte of the answer to a kind byte (R168, log 18). -/
def answerKind (kind : Byte) : Byte := if namesRequest kind then kind + 0x80 else 0xFF

theorem answerKind_of_names {kind : Byte} (h : namesRequest kind = true) : answerKind kind = kind + 0x80 := if_pos h

theorem answerKind_of_unknown {kind : Byte} (h : namesRequest kind = false) : answerKind kind = 0xFF :=
  if_neg (by simp [h])

/-- The answer to a request whose payload does not match (R168). -/
def badRequestEffect (e : Ev) : Ev × Reply := (e, Reply.bare .badRequest)

theorem exec_unknownRequest {kind : Byte} (h : namesRequest kind = false) (p : List Byte) (s : State) :
    exec (.unknownRequest kind p) s = request 0xFF badRequestEffect s := if_neg (by simp [h])

/-- A command that reads its payload as a request of an answer kind. -/
theorem exec_frame_of_requestWith {α : Type} {i : Instr} {kind k : Byte} {p : Option α} {f : α → Ev → Ev × Reply}
    (he : ∀ s, exec i s = requestWith k p f s) (hk : answerKind kind = k) :
    ∃ g, ∀ s, exec i s = request (answerKind kind) g s := by
  subst hk
  exact ⟨_, he⟩

/-- A command that a frame carries is a request with the answer kind of its kind byte. -/
theorem exec_frame {i : Instr} {kind : Byte} {p : List Byte} (h : i.frame? = some (kind, p))
    (hwf : i.wellFormed = true) : ∃ f, ∀ s, exec i s = request (answerKind kind) f s := by
  cases i with
  | unknownRequest k q =>
    cases h
    obtain ⟨-, hunknown⟩ := Bool.and_eq_true_iff.mp hwf
    have hunknown : namesRequest kind = false := by simpa using hunknown
    refine ⟨badRequestEffect, fun s => ?_⟩
    rw [answerKind_of_unknown hunknown, exec_unknownRequest hunknown]
  | _ => cases h <;> exact exec_frame_of_requestWith (fun _ => rfl) (by decide)

theorem requestWith_unread {α : Type} {k : Byte} {p : Option α} {f : α → Ev → Ev × Reply} {s : State}
    (h : p.isSome = false) : requestWith k p f s = request k badRequestEffect s := by
  cases p with
  | none => rfl
  | some x => cases h

/-- A payload that does not match is all that a request without a match does (R168). -/
theorem exec_unread {i : Instr} {kind : Byte} {p : List Byte} (h : i.frame? = some (kind, p))
    (hnames : namesRequest kind = true) (hread : payloadReads i = false) (s : State) :
    exec i s = request (kind + 0x80) badRequestEffect s := by
  cases i with
  | unknownRequest k q => cases hread
  | _ => cases h <;> exact requestWith_unread hread

/-! ## Frames that are not executed (R167, R168) -/

section
variable {s : State}

/-- One held slot: the answer LINK_BUSY takes the other (R168). -/
theorem request_busy (k : Byte) (f : Ev → Ev × Reply) (hsupply : s.mainSupply = true) {a : Answer}
    (hslots : s.link.slots = [a]) :
    request k f s = .next (s.setLink ({ s.link with
      rxBuffer := []
      slots := [a, { kind := k, reply := { status := .linkBusy, body := .none } }] } : Link).transmit) := by
  rw [request_one k f s hsupply hslots]
  have hplaced : (answer k (Reply.bare .linkBusy) (endFrame s)).link = { s.link with
      rxBuffer := []
      slots := [a, { kind := k, reply := { status := .linkBusy, body := .none } }] } := by
    rw [answer_link, endFrame_link, Link.place]
    simp [hslots, Reply.bare]
  rw [serveLink, hplaced]
  rfl

theorem request_badRequest (k : Byte) (h : s.ready) :
    request k badRequestEffect s = .next (answered k { status := .badRequest, body := .none } [] s) := by
  change requestWith k (some ()) (fun _ => badRequestEffect) s = _
  exact requestWith_refused rfl h rfl

theorem dropFrame_of_supply (h : s.mainSupply = true) : dropFrame s = s.setLink { s.link with rxBuffer := [] } := if_pos h

/-- A LINK_ERROR answer takes an empty slot, and is dropped when there is none. -/
theorem linkError_eq (cause : LinkCause) (kind : Byte) (s : State) :
    linkError cause kind s = s.setLink
      (if s.link.slots.length < 2 then
        ({ s.link with
          rxBuffer := []
          slots := s.link.slots ++
            [{ kind := 0xFF, reply := { status := .linkError, body := .linkError cause kind } }] } : Link).transmit
      else { s.link with rxBuffer := [] }) := by
  rw [apply_ite s.setLink]
  rfl

theorem exec_lengthError (kind : Byte) {n : BitVec 16} (hlong : 1024 < n.toNat) (h : s.mainSupply = true) :
    exec (.lengthError kind n) s = .next (linkError .length kind s) :=
  congrArg Host.Outcome.next (if_pos (by simp [h, maxPayload, hlong]))

theorem exec_crcError (kind : Byte) {p : List Byte} {crc : BitVec 16} (hcrc : crc ≠ frameCrc kind p)
    (h : s.mainSupply = true) : exec (.crcError kind p crc) s = .next (linkError .crc kind s) :=
  congrArg Host.Outcome.next (if_pos (by simp [h, hcrc]))

end

/-- Settles O15: each frame by what it is a request of, and by how many answer slots it finds held. -/
theorem framesTurnedDown : Obligations.FramesTurnedDown := by
  refine ⟨fun i kind p s hframe hwf hsupply => ?held, fun i kind p s hframe hnames hread hready => ?unread,
    fun kind p s hunknown hready => ?unknown, fun s hsupply => ⟨?gap, ?framing, fun kind n hlong => ?length,
      fun kind p crc hcrc => ?crc⟩⟩
  case held =>
    obtain ⟨f, hf⟩ := exec_frame hframe hwf
    rw [hf]
    exact ⟨fun a hslots => request_busy _ f hsupply hslots,
      fun a b hslots => request_full _ f s hsupply (by simp [hslots])⟩
  case unread => rw [exec_unread hframe hnames hread, request_badRequest _ hready]
  case unknown => rw [exec_unknownRequest hunknown, request_badRequest _ hready]
  case gap => exact congrArg Host.Outcome.next (dropFrame_of_supply hsupply)
  case framing => exact congrArg Host.Outcome.next (dropFrame_of_supply hsupply)
  case length => rw [exec_lengthError kind hlong hsupply, linkError_eq]
  case crc => rw [exec_crcError kind hcrc hsupply, linkError_eq]

/-! ## Notices handed over, and the end of a transmission (R168, R170, R171) -/

theorem Link.hand_of_disabled {l : Link} {n : Notice} (h : l.mask.getLsbD n.code = false) : l.hand n = l := if_pos h

theorem Link.hand_of_room {l : Link} {n : Notice} (henabled : l.mask.getLsbD n.code = true)
    (hroom : l.queue.length < 16) : l.hand n = { l with queue := l.queue ++ [n] } := by
  rw [Link.hand, if_neg (by simp [henabled]), if_pos hroom]

theorem exec_transmitComplete {inputs : ResetInputs} {s : State} (h : s.mainSupply = true) :
    exec (.transmitComplete inputs) s = .next (transmitted inputs s) := congrArg Host.Outcome.next (if_pos h)

theorem transmitted_notice (inputs : ResetInputs) {s : State} {n : Notice} (htx : s.link.tx = some (.notice n)) :
    transmitted inputs s = s.setLink ({ s.link with tx := none } : Link).transmit := by
  unfold transmitted
  rw [htx]
  rfl

/-- An answer other than that to an executed Warm Reset frees its slot. -/
theorem transmitted_answer (inputs : ResetInputs) {s : State} {a : Answer} {r : List Answer}
    (htx : s.link.tx = some .answer) (hslots : s.link.slots = a :: r) (h : a.asksReset = false) :
    transmitted inputs s = s.setLink ({ s.link with tx := none, slots := r } : Link).transmit := by
  unfold transmitted
  rw [htx]
  simp [hslots, h]
  rfl

theorem transmit_answer {l : Link} {a : Answer} {r : List Answer} (htx : l.tx = none) (hslots : l.slots = a :: r) :
    l.transmit = { l with tx := some .answer } := by simp [Link.transmit, htx, hslots]

theorem transmit_oldest {l : Link} {n : Notice} {q : List Notice} (htx : l.tx = none) (hslots : l.slots = [])
    (hqueue : l.queue = n :: q) : l.transmit = { l with tx := some (.notice n), queue := q } := by
  simp [Link.transmit, htx, hslots, hqueue]

theorem transmit_idle {l : Link} (htx : l.tx = none) (hslots : l.slots = []) (hqueue : l.queue = []) :
    l.transmit = l := by simp [Link.transmit, htx, hslots, hqueue]

/-- Settles O16: the cases of a hand-over, and the port after each end of a transmission. -/
theorem noticesAndTransmission : Obligations.NoticesAndTransmission := by
  refine ⟨fun l n ns => List.foldl_cons, fun l n hoff => Link.hand_of_disabled hoff,
    fun l n hon hroom => Link.hand_of_room hon hroom, fun l n hon hfull => Link.hand_of_full hon hfull,
    fun inputs s hsupply => ⟨?noticeAnswer, ?noticeNotice, ?noticeIdle, ?answerAnswer, ?answerNotice, ?answerIdle⟩⟩
  all_goals simp only [exec_transmitComplete hsupply, Host.Outcome.next.injEq]
  case noticeAnswer =>
    intro n a r htx hslots
    exact (transmitted_notice inputs htx).trans (congrArg _ (transmit_answer rfl hslots))
  case noticeNotice =>
    intro n m q htx hslots hqueue
    exact (transmitted_notice inputs htx).trans (congrArg _ (transmit_oldest rfl hslots hqueue))
  case noticeIdle =>
    intro n htx hslots hqueue
    exact (transmitted_notice inputs htx).trans (congrArg _ (transmit_idle rfl hslots hqueue))
  case answerAnswer =>
    intro a b r htx hslots hreset
    refine (transmitted_answer inputs htx hslots hreset).trans (congrArg _ ?_)
    rw [transmit_answer rfl rfl, ← htx]
  case answerNotice =>
    intro a m q htx hslots hreset hqueue
    exact (transmitted_answer inputs htx hslots hreset).trans (congrArg _ (transmit_oldest rfl rfl hqueue))
  case answerIdle =>
    intro a htx hslots hreset hqueue
    exact (transmitted_answer inputs htx hslots hreset).trans (congrArg _ (transmit_idle rfl rfl hqueue))

end Sys2Proof.Machine

/-! PROOFS. Warm Reset and Set Notice Mask (R172, R175), and what the resets make of the blocks (R39, R56, R75, R111,
R133, R135, R147, R166). -/

namespace Sys2Proof.Machine

/-! ## Warm Reset and Set Notice Mask -/

theorem exec_warmReset_of_ready {s : State} (h : s.ready) :
    exec (.warmReset []) s = .next (answered 0x83 { status := .ok, body := .none } [] s) := by
  change requestWith 0x83 (parseEmpty []) (fun _ => askWarmReset) s = _
  exact requestWith_refused parseEmpty_nil h rfl

theorem maskAllowed_eq_false_iff {m : BitVec 32} :
    maskAllowed m = false ↔ m.getLsbD 9 = true ∨ m.getLsbD 31 = true := by
  unfold maskAllowed
  cases m.getLsbD 9 <;> cases m.getLsbD 31 <;> simp

section
variable {m : BitVec 32} {e : Ev}

theorem setNoticeMask_of_unassigned (ok flag : Bool) (h : m.getLsbD 9 = true ∨ m.getLsbD 31 = true) :
    setNoticeMask ok m flag e = (e, Reply.bare .badRequest) := if_pos (maskAllowed_eq_false_iff.mpr h)

variable (h : ¬(m.getLsbD 9 = true ∨ m.getLsbD 31 = true))
include h

theorem setNoticeMask_of_inForce (ok : Bool) : setNoticeMask ok m false e =
    (e.upd fun s => s.setLink { s.link with mask := m }, Reply.bare .ok) :=
  if_neg (mt maskAllowed_eq_false_iff.mp h)

theorem setNoticeMask_of_fault : setNoticeMask false m true e = (e, Reply.bare .storeFault) :=
  if_neg (mt maskAllowed_eq_false_iff.mp h)

theorem setNoticeMask_of_stored : setNoticeMask true m true e =
    (e.upd fun s => (s.setLink { s.link with mask := m }).setSite { s.site with defaultMask := m }, Reply.bare .ok) :=
  if_neg (mt maskAllowed_eq_false_iff.mp h)

end

/-- The answer to Warm Reset asks for the reset, which empties the port (R175). -/
theorem transmitted_warmReset (inputs : ResetInputs) {s : State} {r : List Answer} (htx : s.link.tx = some .answer)
    (hslots : s.link.slots = { kind := 0x83, reply := { status := .ok, body := .none } } :: r) :
    transmitted inputs s = warmReset inputs s := by
  unfold transmitted
  rw [htx, hslots]
  rfl

/-- Settles O18: the answer, the reset that it asks for, and the mask's cases. -/
theorem warmResetAndNoticeMask : Obligations.WarmResetAndNoticeMask := by
  refine ⟨fun s hready => exec_warmReset_of_ready hready, fun inputs s r hsupply htx hslots => ?reset,
    fun p ok flag m s hp hready => ?mask⟩
  case reset =>
    have hreset : exec (.transmitComplete inputs) s = .next (warmReset inputs s) := by
      rw [exec_transmitComplete hsupply, transmitted_warmReset inputs htx hslots]
    refine ⟨by rw [hreset, exec_resetLine_of_supply inputs hsupply], fun t ht => ?_⟩
    rw [hreset] at ht
    cases ht
    rw [warmReset_link]
    rfl
  case mask =>
    change requestWith 0x84 (parseNoticeMask p) (fun x => setNoticeMask ok x.1 x.2) s = _
    split_ifs with hbits hflag hok
    · exact requestWith_refused hp hready (setNoticeMask_of_unassigned ok flag hbits)
    · subst hflag
      exact requestWith_answered hp hready (setNoticeMask_of_inForce hbits ok) rfl rfl rfl rfl rfl
    · rw [Bool.not_eq_false] at hflag
      subst hok hflag
      exact requestWith_refused hp hready (setNoticeMask_of_fault hbits)
    · rw [Bool.not_eq_false] at hflag hok
      subst hok hflag
      exact requestWith_answered hp hready (setNoticeMask_of_stored hbits) rfl rfl rfl rfl rfl

/-! ## What the resets make of the blocks -/

theorem startupValid_iff {st : Store} :
    startupValid st = true ↔ configChecksum st.config = st.checksum ∧ st.config.activeDecks ≠ [] := by
  simp [startupValid]

theorem warmupSamples_eq (n : Nat) :
    warmupSamples n = match n with | 0 => 100 | 1 => 250 | 2 => 500 | _ => 1000 :=
  match n with | 0 => rfl | 1 => rfl | 2 => rfl | _ + 3 => rfl

/-- The warm-up length that the stored configuration gives as the start-up check finds it (R22, R135). -/
theorem warmupLength_startup (st : Store) : warmupLength (startupValid st) st.config =
    if configChecksum st.config = st.checksum ∧ st.config.activeDecks ≠ [] then
      match st.config.warmupCode with | 0 => 100 | 1 => 250 | 2 => 500 | _ => 1000
    else 1000 := by
  simp only [warmupLength, startupValid_iff, warmupSamples_eq]

/-- A power-on reset finds the calendar SET when it was, and neither the stop record was set nor the supply fails now on
the MAIN source (R162, R166, log 11). -/
theorem powerOn_value (s : State) : (supplyFails s).cal.powerOn.value =
    if s.cal.stopRecord = true ∨ s.mainSupply = true ∧ s.cal.source = .main then none else s.cal.value := by
  unfold supplyFails Calendar.powerOn
  cases s.mainSupply <;> simp

theorem powerOn_kept (s : State) : (supplyFails s).cal.powerOn.subSecond = s.cal.subSecond ∧
    (supplyFails s).cal.powerOn.degraded = s.cal.degraded := by
  unfold supplyFails
  split_ifs <;> exact ⟨rfl, rfl⟩

theorem bootAxle_lines (inputs : ResetInputs) (n : Nat) (i : LineNo) : (bootAxle inputs n).lines.get i =
    { levelA := inputs.levelA.get i, levelB := inputs.levelB.get i, pairing := .idle, code := .none } :=
  Bank.get_ofFn _ i

/-- Settles O20: the reset of a supply that returns block by block, what the two calendars become, and the warm reset. -/
theorem resetOfBlocks : Obligations.ResetOfBlocks := by
  intro inputs s
  refine ⟨fun t ht => ?powerUp, fun t ht => ?coldCalendar, fun t ht => ?powerOnCalendar, fun t hsupply ht => ?warm⟩
  case powerUp =>
    obtain ⟨cal, hcal⟩ : ∃ cal, t = powerUp inputs cal s := by
      rcases ht with ht | ht <;> cases ht <;> exact ⟨_, rfl⟩
    subst hcal
    refine ⟨?_, rfl, ⟨bootAxle_lines inputs 0, rfl⟩, startupValid_iff, rfl, rfl, rfl, rfl, rfl, rfl, rfl, rfl⟩
    exact congrArg (bootAcq s.acq.assign) (warmupLength_startup s.store)
  case coldCalendar => cases ht; rfl
  case powerOnCalendar =>
    cases ht
    change (supplyFails s).cal.powerOn = _
    obtain ⟨hsub, hdegraded⟩ := powerOn_kept s
    rw [← powerOn_value, ← hdegraded, ← hsub]
    rfl
  case warm =>
    rw [exec_resetLine_of_supply inputs hsupply] at ht
    cases ht
    exact ⟨rfl, rfl, ⟨bootAxle_lines inputs _, rfl⟩, rfl, rfl, rfl, rfl, rfl, rfl, rfl, rfl, rfl, hsupply⟩

end Sys2Proof.Machine

/-! PROOFS. What a sample event takes of the channels (R25, R26): the sample number, the health assignment in force, the
raw samples, the latest sample result. -/

namespace Sys2Proof.Machine

/-! ## The sample event as a whole -/

/-- What a sample event makes of a state, before its end. -/
def sampled (inp : SampleInput) (s : State) : Ev := sampleEvent inp (Ev.start s)

/-- The state after a sample event on the main supply. -/
def afterSample (inp : SampleInput) (s : State) : State := happened (sampled inp s).notes s (sampled inp s).st

section
variable {inp : SampleInput} {s : State}

theorem exec_sampleEvent (h : s.mainSupply = true) : exec (.sampleEvent inp) s = .next (afterSample inp s) :=
  event_happened h

/-- A row that names a count does what the sample event does that finds it (log 4). -/
theorem sampleWhen_of_mark {m : Mark} (h : s.mainSupply = true) (hm : finds m inp s = true) :
    sampleWhen m inp s = .next (afterSample inp s) := by
  rw [sampleWhen_found hm]
  exact event_happened h

@[simp] theorem afterSample_acq : (afterSample inp s).acq = (sampled inp s).st.acq := by simp [afterSample]
@[simp] theorem afterSample_zm : (afterSample inp s).zm = (sampled inp s).st.zm := by simp [afterSample]
@[simp] theorem afterSample_axle : (afterSample inp s).axle = (sampled inp s).st.axle := by simp [afterSample]
@[simp] theorem afterSample_store : (afterSample inp s).store = (sampled inp s).st.store := by simp [afterSample]
@[simp] theorem afterSample_tm : (afterSample inp s).tm = (sampled inp s).st.tm := by simp [afterSample]
@[simp] theorem afterSample_metro : (afterSample inp s).metro = (sampled inp s).st.metro := by simp [afterSample]
@[simp] theorem afterSample_slot : (afterSample inp s).cap.slot = (sampled inp s).st.cap.slot := by simp [afterSample]
@[simp] theorem afterSample_site : (afterSample inp s).site = s.site := by simp [afterSample, sampled]
@[simp] theorem afterSample_cal : (afterSample inp s).cal = s.cal := by simp [afterSample, sampled]

theorem afterSample_raised : s.raised (sampled inp s).notes (afterSample inp s) :=
  ⟨_, by simp [sampled], rfl⟩

/-! ## The acquisition unit at a sample event -/

theorem afterSample_sampleNumber : (afterSample inp s).acq.sampleNumber = s.acq.sampleNumber + 1 := by
  rw [afterSample_acq]
  exact sampleEvent_sampleNumber inp s

theorem afterSample_healthAssign (i : Chan) : (afterSample inp s).healthAssign i = s.assignmentDue i := by
  have hassign : (afterSample inp s).healthAssign = (sampled inp s).st.healthAssign := by
    unfold State.healthAssign
    rw [afterSample_acq]
  rw [hassign]
  exact congrFun (sampleEvent_healthAssign inp s) i

theorem afterSample_channel_run (h : s.acq.scale = .run) (i : Chan) : (afterSample inp s).acq.channels.get i =
    channelAfter s.assignmentDue s.acq.spikeLimit s.acq.channels inp i := by
  rw [afterSample_acq]
  exact sampleEvent_run inp s h i

theorem afterSample_channel_warmup (h : s.acq.scale = .warmup) (i : Chan) :
    (afterSample inp s).acq.channels.get i = (s.acq.channels.get i).takeRaw (inp.raw.get i).toInt := by
  rw [afterSample_acq]
  exact sampleEvent_warmup inp s h i

theorem afterSample_channel_standby (h : s.acq.scale = .standby) (i : Chan) :
    (afterSample inp s).acq.channels.get i = { s.acq.channels.get i with evaluated := false } := by
  rw [afterSample_acq]
  exact sampleEvent_standby inp s h i

end

/-! ### One channel -/

section
variable (c : Channel) (raw : Int)

@[simp] theorem Channel.faulted_raw : c.faulted.raw = c.raw := by
  unfold Channel.faulted
  split <;> (try split_ifs) <;> rfl

@[simp] theorem Channel.clean_raw : c.clean.raw = c.raw := by
  unfold Channel.clean
  split <;> (try split_ifs) <;> rfl

theorem Channel.evaluate_raw (k : Option FaultKind) : (c.evaluate raw k).raw = some raw := by
  cases k <;> simp [Channel.evaluate, Channel.sampled]

end

/-- In RUN every channel takes its raw sample, be it evaluated or not (R25). -/
theorem channelAfter_raw (assign : Chan → Option Deck) (limit : Nat) (chans : Bank Channel 16) (inp : SampleInput)
    (i : Chan) : (channelAfter assign limit chans inp i).raw = some (inp.raw.get i).toInt := by
  unfold channelAfter
  split
  · rfl
  · exact Channel.evaluate_raw _ _ _

/-- A channel without a deck only takes its raw sample (R26). -/
theorem channelAfter_unassigned {assign : Chan → Option Deck} {i : Chan} (h : assign i = none) (limit : Nat)
    (chans : Bank Channel 16) (inp : SampleInput) :
    channelAfter assign limit chans inp i = (chans.get i).takeRaw (inp.raw.get i).toInt := by
  simp only [channelAfter, h]

/-! ## The latest sample result -/

theorem initialZero_latest (e : Ev) : (initialZero e).st.zm.latest = e.st.zm.latest := (initialZero_rebases e).latest
theorem tracking_latest (e : Ev) : (tracking e).st.zm.latest = e.st.zm.latest := (tracking_rebases e).latest

theorem serveZero_latest (r : SampleResult) (e : Ev) : (serveZero r e).st.zm.latest =
    some { result := r, sampleNumber := e.st.acq.sampleNumber, eHg := e.st.store.config.eHg } := by
  have htaken : (takeResult r e.st).zm.latest =
      some { result := r, sampleNumber := e.st.acq.sampleNumber, eHg := e.st.store.config.eHg } := by
    cases r <;> rfl
  unfold serveZero
  dsimp only
  split_ifs
  · rw [tracking_latest, initialZero_latest]
    exact htaken
  · exact htaken

/-- The latest sample result after a sample event is the one formed at it (R1, R25). -/
theorem sampled_latest (inp : SampleInput) (s : State) :
    (sampled inp s).st.zm.latest = some
      { result := formedResult (acquire inp (Ev.start s)).ev.st (acquire inp (Ev.start s)).value
        sampleNumber := s.acq.sampleNumber + 1, eHg := s.store.config.eHg } := by
  have hnumber : (acquire inp (Ev.start s)).ev.st.acq.sampleNumber = s.acq.sampleNumber + 1 := by
    have h := sampleEvent_sampleNumber inp s
    unfold sampleEvent at h
    simpa only [warmupEnd_acq, serveResult_keeps] using h
  have hserved : (serveZero (formedResult (acquire inp (Ev.start s)).ev.st (acquire inp (Ev.start s)).value)
      (acquire inp (Ev.start s)).ev).st.zm.latest = some
      { result := formedResult (acquire inp (Ev.start s)).ev.st (acquire inp (Ev.start s)).value
        sampleNumber := s.acq.sampleNumber + 1, eHg := s.store.config.eHg } := by
    rw [serveZero_latest, hnumber]
    simp
  rcases sampleEvent_zm inp s with h | ⟨-, h⟩
  · exact (congrArg ZeroMotion.latest h).trans hserved
  · exact (congrArg ZeroMotion.latest h).trans hserved

/-! ## The health assignment in force through every command (R26, log 25) -/

/-- Only a sample event puts a health assignment in force. -/
theorem EventEffect.assign {f : Ev → Ev} (hf : EventEffect f) (e : Ev) :
    (f e).st.acq.assign = e.st.acq.assign ∨ ∃ inp, f = Machine.sampleEvent inp := by
  cases hf with
  | sampleEvent inp => exact .inr ⟨inp, rfl⟩
  | _ => exact .inl (by simp)

theorem RequestEffect.assign {f : Ev → Ev × Reply} (hf : RequestEffect f) (e : Ev) :
    (f e).1.st.acq.assign = e.st.acq.assign := by
  cases hf with
  | answers h => rw [h]
  | _ => simp

/-- The statement that the health assignment in force is `a` speaks neither of the link port nor of the entry lamp. -/
theorem assign_blind (a : Bank (Option Deck) 16) : Blind fun s => s.acq.assign = a where
  link _ _ h := h
  lamp _ _ h := h

theorem Executes.assign {c : Instr} {s t : State} (hx : Executes c s t) : t.acq.assign = s.acq.assign ∨
    (s.acq.sampleNumber + 1 = t.acq.sampleNumber ∧ ∀ i, t.healthAssign i = s.assignmentDue i) := by
  have hb := assign_blind s.acq.assign
  cases hx with
  | same => exact .inl rfl
  | @event f _ hf hsupply ht =>
    rcases hf.assign (Ev.start s) with h | ⟨inp, rfl⟩
    · exact .inl (hb.event ht rfl h)
    · right
      have hafter : t = afterSample inp s := by
        have h := (event_happened hsupply).symm.trans ht
        cases h
        rfl
      subst hafter
      exact ⟨afterSample_sampleNumber.symm, afterSample_healthAssign⟩
  | request hf ht => exact .inl (hb.request ht rfl (hf.assign _))
  | commit _ ht => exact .inl (hb.request ht rfl (by simp))
  | linkError cause k => exact .inl (hb.linkError rfl)
  | endFrame => exact .inl rfl
  | transmitted inputs => exact .inl (hb.transmitted rfl rfl)
  | backupCarry _ =>
    left
    unfold Machine.backupCarry
    split
    · rfl
    · split_ifs <;> rfl
  | monitor cal _ => exact .inl rfl
  | supplyFails =>
    left
    obtain h1 | ⟨c, h1, -⟩ := supplyFails_eq s
    · rw [h1]
    · rw [h1]
      rfl
  | coldStart inputs => exact .inl rfl
  | powerOnReset inputs => exact .inl rfl
  | warmReset inputs => exact .inl rfl

/-! ## The assignment that is due (R26, R137, R145) -/

section
variable {s : State}

theorem assignmentDue_of_adjustment {x : AdjustSession} (h : s.cap.slot = .adjustment x) (i : Chan) :
    s.assignmentDue i = (x.staged.channels.get i).deck := by
  unfold State.assignmentDue
  rw [h]
  rfl

theorem assignmentDue_of_no_adjustment (h : ∀ x, s.cap.slot ≠ .adjustment x) (i : Chan) :
    s.assignmentDue i = s.liveAssign i := by
  unfold State.assignmentDue
  split
  · rename_i x hx
    exact absurd hx (h x)
  all_goals rfl

end

/-- The channels at a sample event in every scale state: the raw sample, and what a channel that is not evaluated keeps
(R25, R26). -/
theorem afterSample_raw (inp : SampleInput) (s : State) (i : Chan) : ((afterSample inp s).acq.channels.get i).raw =
    if s.acq.scale = .standby then (s.acq.channels.get i).raw else some (inp.raw.get i).toInt := by
  cases hscale : s.acq.scale with
  | warmup => rw [afterSample_channel_warmup hscale, if_neg (by decide)]; rfl
  | run => rw [afterSample_channel_run hscale, if_neg (by decide), channelAfter_raw]
  | standby => rw [afterSample_channel_standby hscale, if_pos rfl]

/-- A channel that is not evaluated has its raw samples changed at most. -/
theorem afterSample_unevaluated {inp : SampleInput} {s : State} {i : Chan}
    (h : s.acq.scale ≠ .run ∨ s.assignmentDue i = none) :
    ∃ raw prev, (afterSample inp s).acq.channels.get i =
      { s.acq.channels.get i with raw := raw, prev := prev, evaluated := false } := by
  cases hscale : s.acq.scale with
  | warmup => exact ⟨_, _, afterSample_channel_warmup hscale i⟩
  | standby => exact ⟨_, _, afterSample_channel_standby hscale i⟩
  | run =>
    have hnone := h.resolve_left (by simp [hscale])
    exact ⟨_, _, (afterSample_channel_run hscale i).trans (channelAfter_unassigned hnone _ _ _)⟩

/-- Settles O21: the sample event part by part, the assignment that is due by who holds the slot, and every command. -/
theorem sampleTaken : Obligations.SampleTaken := by
  refine ⟨fun inp s hsupply => ⟨_, exec_sampleEvent hsupply, afterSample_sampleNumber, ?spike, afterSample_site,
    afterSample_cal, ?latest, afterSample_healthAssign, afterSample_raw inp s, fun i hi => ?kept⟩,
    fun s i => ⟨fun x hx => assignmentDue_of_adjustment hx i, fun h hvalid => ?stored, fun h hinvalid => ?none⟩,
    fun c s t ht => (exec_executes ht).assign⟩
  case spike => simp [sampled]
  case latest => rw [afterSample_zm, sampled_latest]; rfl
  case kept =>
    obtain ⟨raw, prev, hchannel⟩ := afterSample_unevaluated (inp := inp) hi
    rw [hchannel]
    exact ⟨rfl, rfl, rfl, rfl, rfl, rfl, rfl, rfl⟩
  case stored => rw [assignmentDue_of_no_adjustment h]; simp [State.liveAssign, hvalid, MetroConfig.assign]
  case none => rw [assignmentDue_of_no_adjustment h]; simp [State.liveAssign, hinvalid]

end Sys2Proof.Machine

/-! PROOFS. The faults of a sample and what they make of a channel (R27 to R35). -/

namespace Sys2Proof.Machine

/-! ## The fault of a sample (R27 to R29) -/

theorem Health.included_iff {h : Health} : h.included = true ↔ h = .good ∨ h = .watch := by
  cases h <;> simp [Health.included]

/-- The included deck-mates of a channel, other than itself (R29). -/
def deckMates (assign : Chan → Option Deck) (chans : Bank Channel 16) (i : Chan) (d : Deck) : List Chan :=
  allChans.filter fun j =>
    decide (j ≠ i ∧ assign j = some d ∧ ((chans.get j).health = .good ∨ (chans.get j).health = .watch))

theorem mateChanges_eq (assign : Chan → Option Deck) (chans : Bank Channel 16) (raw : Chan → Int) (i : Chan) (d : Deck) :
    mateChanges assign chans raw i d =
      (deckMates assign chans i d).filterMap fun j => (chans.get j).previous.map fun x => (raw j - x).natAbs := by
  unfold mateChanges deckMates
  congr 1
  refine List.filter_congr fun j _ => ?_
  rw [Bool.eq_iff_iff]
  simp [Health.included_iff, and_assoc]

/-- The SPIKE test in the words of R29. -/
theorem spikeTest_iff {limit : Nat} {c : Channel} {raw : Int} {mates : List Nat} :
    spikeTest limit (c.change raw) mates = true ↔
      ∃ x, c.previous = some x ∧ limit < (raw - x).natAbs ∧ mates ≠ [] ∧ 4 * mates.sum < limit * mates.length := by
  unfold Channel.change spikeTest
  cases c.previous with
  | none => simp
  | some p => simp [and_assoc]

theorem Channel.isStuck_iff {c : Channel} {raw : Int} :
    c.isStuck raw = true ↔ c.previous = some raw ∧ 99 ≤ c.stuckRun := by
  unfold Channel.isStuck Channel.nextStuck
  split_ifs with h
  · simp [h]
  · simp [h]

/-- The first of its four conditions that a sample meets is its fault (R27). -/
theorem faultOf_cases (a b c d : Bool) :
    (a = true → faultOf a b c d = some .senseLost) ∧
      (a = false → b = true → faultOf a b c d = some .overrange) ∧
      (a = false → ¬b = true → c = true → faultOf a b c d = some .spike) ∧
      (a = false → ¬b = true → ¬c = true → d = true → faultOf a b c d = some .stuck) ∧
      (a = false → ¬b = true → ¬c = true → ¬d = true → faultOf a b c d = none) := by
  cases a <;> cases b <;> cases c <;> cases d <;> simp [faultOf]

theorem channelFault_assigned {assign : Chan → Option Deck} {i : Chan} {d : Deck} (h : assign i = some d) (limit : Nat)
    (chans : Bank Channel 16) (inp : SampleInput) : channelFault assign limit chans inp i =
      faultOf (inp.senseLow.get d) (decide (8300000 ≤ (inp.raw.get i).toInt.natAbs))
        (spikeTest limit ((chans.get i).change (inp.raw.get i).toInt)
          (mateChanges assign chans (fun j => (inp.raw.get j).toInt) i d))
        ((chans.get i).isStuck (inp.raw.get i).toInt) := by
  simp only [channelFault, h]

/-- A channel with a deck is evaluated with its fault (R26). -/
theorem channelAfter_assigned {assign : Chan → Option Deck} {i : Chan} {d : Deck} (h : assign i = some d) (limit : Nat)
    (chans : Bank Channel 16) (inp : SampleInput) : channelAfter assign limit chans inp i =
      (chans.get i).evaluate (inp.raw.get i).toInt (channelFault assign limit chans inp i) := by
  simp only [channelAfter, h]

/-! ## What a fault makes of a channel (R32, R35) -/

section
variable {c : Channel}

theorem Channel.faulted_out (h : c.health = .good ∨ c.health = .watch) (hcount : 160 ≤ c.counter + 16) :
    c.faulted = { c with counter := 160, cleanRun := 0, health := .excluded, cause := some .automatic } := by
  unfold Channel.faulted
  rcases h with h | h <;> simp [h, hcount]

theorem Channel.faulted_in (h : c.health = .good ∨ c.health = .watch) (hcount : c.counter + 16 < 160) :
    c.faulted = { c with counter := c.counter + 16, cleanRun := 0, health := healthOfCounter (c.counter + 16) } := by
  unfold Channel.faulted
  rcases h with h | h <;> simp [h, Nat.not_le.mpr hcount]

theorem Channel.faulted_recovering (h : c.health = .recovering) : c.faulted = { c with recovery := 0, cleanRun := 0 } := by
  simp only [Channel.faulted, h]

theorem Channel.faulted_excluded (h : c.health = .excluded) : c.faulted = c := by
  simp only [Channel.faulted, h]

theorem Channel.faulted_lastGood : c.faulted.lastGood = c.lastGood := by
  unfold Channel.faulted
  split <;> (try split_ifs) <;> rfl

theorem Channel.faulted_evaluated : c.faulted.evaluated = c.evaluated := by
  unfold Channel.faulted
  split <;> (try split_ifs) <;> rfl

end

/-- A fault in GOOD or WATCH raises the counter by 16, to 160 at most, which excludes the channel (R32). -/
theorem Channel.faulted_included {c : Channel} (h : c.health = .good ∨ c.health = .watch) :
    c.faulted.cleanRun = 0 ∧ c.faulted.counter = min 160 (c.counter + 16) ∧
      (c.counter + 16 < 80 → c.faulted.health = .good ∧ c.faulted.cause = c.cause) ∧
      (80 ≤ c.counter + 16 ∧ c.counter + 16 < 160 → c.faulted.health = .watch ∧ c.faulted.cause = c.cause) ∧
      (160 ≤ c.counter + 16 → c.faulted.health = .excluded ∧ c.faulted.cause = some .automatic) := by
  rcases Nat.lt_or_ge (c.counter + 16) 160 with hcount | hcount
  · rw [Channel.faulted_in h hcount]
    refine ⟨rfl, by simp only; omega, fun hgood => ⟨if_pos hgood, rfl⟩,
      fun hwatch => ⟨if_neg (Nat.not_lt.mpr hwatch.1), rfl⟩, fun hout => absurd hout (by omega)⟩
  · rw [Channel.faulted_out h hcount]
    refine ⟨rfl, by simp only; omega, fun hgood => absurd hgood (by omega), fun hwatch => absurd hwatch.2 (by omega),
      fun _ => ⟨rfl, rfl⟩⟩

/-- Settles O22: the fault by its four conditions, and the faulted channel by its health. -/
theorem faultsOfASample : Obligations.FaultsOfASample := by
  refine ⟨fun assign limit chans inp i d hd => ?kinds, fun inp s i d k hsupply hrun hd hk =>
    ⟨_, exec_sampleEvent hsupply, ?channel⟩⟩
  case kinds =>
    have h := faultOf_cases (inp.senseLow.get d) (decide (8300000 ≤ (inp.raw.get i).toInt.natAbs))
      (spikeTest limit ((chans.get i).change (inp.raw.get i).toInt)
        (mateChanges assign chans (fun j => (inp.raw.get j).toInt) i d))
      ((chans.get i).isStuck (inp.raw.get i).toInt)
    rw [← channelFault_assigned hd limit chans inp, mateChanges_eq] at h
    simp only [spikeTest_iff, Channel.isStuck_iff, decide_eq_true_eq] at h
    exact h
  case channel =>
    intro c n
    have hn : n = { (c.sampled (inp.raw.get i).toInt).faulted with lastCode := .kind k } := by
      refine (afterSample_channel_run hrun i).trans ?_
      rw [channelAfter_assigned hd, hk]
      rfl
    rw [hn]
    generalize hsampled : c.sampled (inp.raw.get i).toInt = m
    have hgood : m.lastGood = c.lastGood := by subst hsampled; rfl
    have hhealth : m.health = c.health := by subst hsampled; rfl
    have hcounter : m.counter = c.counter := by subst hsampled; rfl
    have hcause : m.cause = c.cause := by subst hsampled; rfl
    have hevaluated : m.evaluated = true := by subst hsampled; rfl
    rw [← hgood, ← hhealth, ← hcounter, ← hcause]
    refine ⟨rfl, Channel.faulted_lastGood, Channel.faulted_evaluated.trans hevaluated,
      fun h => Channel.faulted_included h, fun h => ?_, fun h => ?_⟩
    · rw [Channel.faulted_recovering h]
      exact ⟨h, rfl, rfl, rfl⟩
    · rw [Channel.faulted_excluded h]
      exact ⟨h, rfl, rfl⟩

end Sys2Proof.Machine

/-! PROOFS. What a sample event in RUN hands on, keeps and sends of its faults (R31, R33, R37). -/

namespace Sys2Proof.Machine

/-! ## The acquisition unit in RUN -/

/-- The channels after a sample event in RUN. -/
def State.evaluatedChannels (s : State) (inp : SampleInput) : Bank Channel 16 :=
  Bank.ofFn (channelAfter s.assignmentDue s.acq.spikeLimit s.acq.channels inp)

theorem beginSample_healthAssign_eq (s : State) : (beginSample s).healthAssign = s.assignmentDue := by
  funext i
  simp [beginSample, State.healthAssign]

section
variable {s : State} (inp : SampleInput) (h : s.acq.scale = .run)
include h

theorem acquire_run : acquire inp (Ev.start s) = acquireRun inp ((Ev.start s).upd beginSample) := by
  have hscale : ((Ev.start s).upd beginSample).st.acq.scale = .run := h
  unfold acquire
  dsimp only
  rw [hscale]

theorem acquire_run_acq : (acquire inp (Ev.start s)).ev.st.acq =
    { s.acq with
      sampleNumber := s.acq.sampleNumber + 1, assign := Bank.ofFn s.assignmentDue
      channels := s.evaluatedChannels inp
      faultCapture := offerFaults (channelFault s.assignmentDue s.acq.spikeLimit s.acq.channels inp) inp
        (s.acq.sampleNumber + 1) s.cal.value s.acq.faultCapture } := by
  rw [acquire_run inp h]
  unfold acquireRun
  dsimp only [Ev.upd_st, Ev.start_st]
  rw [beginSample_healthAssign_eq]
  split_ifs <;> rfl

theorem acquire_run_notes : (acquire inp (Ev.start s)).ev.notes =
    channelNotes (s.acq.sampleNumber + 1) s.acq.channels (s.evaluatedChannels inp) := by
  rw [acquire_run inp h]
  unfold acquireRun
  dsimp only [Ev.upd_st, Ev.start_st]
  rw [beginSample_healthAssign_eq]
  rfl

theorem acquire_run_marks : (acquire inp (Ev.start s)).ev.marks =
    channelMarks s.assignmentDue s.acq.spikeLimit s.acq.channels inp := by
  rw [acquire_run inp h]
  unfold acquireRun
  dsimp only [Ev.upd_st, Ev.start_st]
  rw [beginSample_healthAssign_eq]
  exact List.append_nil _

theorem acquire_run_value : (acquire inp (Ev.start s)).value.get =
    channelValue s.assignmentDue s.acq.spikeLimit s.acq.channels inp := by
  rw [acquire_run inp h]
  unfold acquireRun
  dsimp only [Ev.upd_st, Ev.start_st]
  rw [beginSample_healthAssign_eq]
  funext i
  exact Bank.get_ofFn _ i

end

theorem acquire_offset (inp : SampleInput) (s : State) : (acquire inp (Ev.start s)).ev.st.zm.offset = s.zm.offset := by
  rw [acquire_zm]
  split_ifs <;> rfl

/-! ## The sample event in RUN -/

theorem serveResult_acq (ok : Bool) (r : SampleResult) (v : Bank Int 16) (e : Ev) :
    (serveResult ok r v e).st.acq = e.st.acq := by simp

section
variable {s : State} (inp : SampleInput) (h : s.acq.scale = .run)
include h

/-- In RUN no warm-up ends. -/
theorem sampled_run : sampled inp s = serveResult inp.storeOk
    (formedResult (acquire inp (Ev.start s)).ev.st (acquire inp (Ev.start s)).value)
    (acquire inp (Ev.start s)).value (acquire inp (Ev.start s)).ev := by
  refine warmupEnd_of_not_warmup ?_
  rw [serveResult_acq, acquire_run_acq inp h]
  simp [h]

theorem afterSample_run_acq : (afterSample inp s).acq = (acquire inp (Ev.start s)).ev.st.acq := by
  rw [afterSample_acq, sampled_run inp h, serveResult_acq]

/-- The first notices are those of the channels; every later one has another code (log 12). -/
theorem sampled_run_notes : ∃ rest, (sampled inp s).notes =
    channelNotes (s.acq.sampleNumber + 1) s.acq.channels (s.evaluatedChannels inp) ++ rest ∧
      ∀ n ∈ rest, 2 ≤ n.code := by
  rw [sampled_run inp h, ← acquire_run_notes inp h]
  exact ((serveZero_adds _ _).trans ((serveResult_adds _ _ _ _).mono (by decide))).notes

theorem afterSample_run_channels : (afterSample inp s).acq.channels = s.evaluatedChannels inp := by
  rw [afterSample_run_acq inp h, acquire_run_acq inp h]

/-- The sample result is formed of the values handed on and of the channels as evaluated (R31). -/
theorem afterSample_run_latest : (afterSample inp s).zm.latest = some
    { result := sampleResult .run s.metro.valid s.store.config
        (fun i => ((afterSample inp s).acq.channels.get i).health)
        (channelValue s.assignmentDue s.acq.spikeLimit s.acq.channels inp) s.zm.offset
      sampleNumber := s.acq.sampleNumber + 1, eHg := s.store.config.eHg } := by
  have hscale : (acquire inp (Ev.start s)).ev.st.acq.scale = .run := by rw [acquire_run_acq inp h]; exact h
  rw [afterSample_zm, sampled_latest, afterSample_run_acq inp h]
  unfold formedResult
  rw [hscale, acquire_offset, acquire_run_value inp h]
  simp

end

/-! ## The notices of the channels (R33) -/

theorem channelNote_eq (number : BitVec 32) (i : Chan) (old new : Channel) : channelNote number i old new =
    .channelState i new.health old.health
      (if new.health = .excluded ∨ new.health = .recovering then new.cause else none) number := by
  unfold channelNote
  cases new.health <;> rfl

theorem channelNotes_eq (number : BitVec 32) (old new : Bank Channel 16) : channelNotes number old new =
    (allChans.filter fun i => decide ((new.get i).health ≠ (old.get i).health)).map fun i =>
      .channelState i (new.get i).health (old.get i).health
        (if (new.get i).health = .excluded ∨ (new.get i).health = .recovering then (new.get i).cause else none)
        number := by
  unfold channelNotes
  simp only [channelNote_eq]
  refine congrArg _ (List.filter_congr fun i _ => ?_)
  rw [Bool.eq_iff_iff, bne_iff_ne, decide_eq_true_iff]
  exact ne_comm

/-- Settles O23: the values, the record and the first notices, each by what the acquisition unit does in RUN. -/
theorem faultRecordsOfASample : Obligations.FaultRecordsOfASample := by
  intro inp s hsupply hrun fault faulted raw
  have hrecord : (afterSample inp s).acq.faultCapture =
      offerFaults fault inp (s.acq.sampleNumber + 1) s.cal.value s.acq.faultCapture := by
    rw [afterSample_run_acq inp hrun, acquire_run_acq inp hrun]
  obtain ⟨hnone, hfirst⟩ :=
    offerFaults_spec fault inp (s.acq.sampleNumber + 1) s.cal.value s.acq.faultCapture allChans
  refine ⟨_, exec_sampleEvent hsupply, ⟨channelValue s.assignmentDue s.acq.spikeLimit s.acq.channels inp,
    fun i hi => ?clean, fun i k hk => ?faulted, afterSample_run_latest inp hrun⟩, fun hempty => ?unoffered,
    fun i k r hr hk => ?offered, ?notices⟩
  case clean => simp only [channelValue, handedValue, show channelFault _ _ _ _ i = none from hi, raw]
  case faulted => simp only [channelValue, handedValue, show channelFault _ _ _ _ i = some k from hk, raw]
  case unoffered => exact hrecord.trans (hnone hempty)
  case offered =>
    obtain ⟨hfree, hheld⟩ := hfirst i k r hr hk
    exact ⟨fun h => hrecord.trans (hfree h), fun x hx => hrecord.trans (hheld x hx)⟩
  case notices =>
    intro changed
    obtain ⟨rest, hnotes, hrest⟩ := sampled_run_notes inp hrun
    refine ⟨rest, fun n hn => Nat.ne_of_gt (hrest n hn), ?_⟩
    have hraised := afterSample_raised (inp := inp) (s := s)
    rw [hnotes, channelNotes_eq, ← afterSample_run_channels inp hrun] at hraised
    exact hraised

end Sys2Proof.Machine

/-! PROOFS. The counts of the channels and the rows that name their limits (R28, R32, R35, log 4). -/

namespace Sys2Proof.Machine

/-! ## The rows that name a channel's count find it -/

theorem mem_allChans : ∀ i : Chan, i ∈ allChans := by decide

/-- A mark of the acquisition unit is one that the sample event finds. -/
theorem finds_of_channelMark {m : Mark} {inp : SampleInput} {s : State} (hrun : s.acq.scale = .run)
    (hm : m ∈ channelMarks s.assignmentDue s.acq.spikeLimit s.acq.channels inp) : finds m inp s = true := by
  rw [← acquire_run_marks inp hrun] at hm
  exact finds_of_mark (.inl ((serveZero_adds _ _).marks hm))

section
variable {assign : Chan → Option Deck} {limit : Nat} {chans : Bank Channel 16} {inp : SampleInput} {i : Chan} {d : Deck}
  (hd : assign i = some d)
include hd

theorem stuck_mem_channelMarks (h : (chans.get i).isStuck (inp.raw.get i).toInt = true) :
    .stuck i ∈ channelMarks assign limit chans inp :=
  List.mem_flatMap.mpr ⟨i, mem_allChans i, by simp [hd, h]⟩

theorem cleanHalfSecond_mem_channelMarks (hclean : channelFault assign limit chans inp i = none)
    (h : (chans.get i).halfSecond = true) : .cleanHalfSecond i ∈ channelMarks assign limit chans inp :=
  List.mem_flatMap.mpr ⟨i, mem_allChans i, by simp [hd, h, hclean]⟩

theorem recoveryComplete_mem_channelMarks (hclean : channelFault assign limit chans inp i = none)
    (h : (chans.get i).recovers = true) : .recoveryComplete i ∈ channelMarks assign limit chans inp :=
  List.mem_flatMap.mpr ⟨i, mem_allChans i, by simp [hd, h, hclean]⟩

end

/-! ## A stuck run that reaches its limit (R27, R28) -/

section
variable {c : Channel} {raw : Int}

theorem Channel.sampled_stuckRun (h : c.isStuck raw = true) : (c.sampled raw).stuckRun = 0 := if_pos h

@[simp] theorem Channel.faulted_stuckRun : c.faulted.stuckRun = c.stuckRun := by
  unfold Channel.faulted
  split <;> (try split_ifs) <;> rfl

/-- A sample that equals the one before it is no spike (R29). -/
theorem spikeTest_of_unchanged (h : c.previous = some raw) (limit : Nat) (mates : List Nat) :
    spikeTest limit (c.change raw) mates = false := by
  rw [Bool.eq_false_iff]
  intro hspike
  obtain ⟨x, hx, hlimit, -⟩ := spikeTest_iff.mp hspike
  rw [h] at hx
  cases hx
  simp at hlimit

end

theorem exists_fault_of_stuck (a b c : Bool) : ∃ k, faultOf a b c true = some k := by
  cases a <;> cases b <;> cases c <;> exact ⟨_, rfl⟩

/-! ## A clean half-second (R32, R35) -/

section
variable {c : Channel}

theorem Channel.halfSecond_of_run (hhealth : c.health ≠ .excluded) (hrun : c.cleanRun = 24) : c.halfSecond = true := by
  simp [Channel.halfSecond, hhealth, hrun]

theorem Channel.recovers_of_run (hhealth : c.health = .recovering) (hrun : c.cleanRun = 24) :
    c.recovers = decide (63 ≤ c.recovery) := by
  rw [Channel.recovers, Channel.halfSecond_of_run (by simp [hhealth]) hrun]
  simp [hhealth]

theorem Channel.clean_halfSecond (hhealth : c.health = .good ∨ c.health = .watch) (hrun : c.cleanRun = 24) :
    c.clean = { c with counter := c.counter - 1, cleanRun := 0, health := healthOfCounter (c.counter - 1) } := by
  unfold Channel.clean
  rcases hhealth with h | h <;> simp [h, Channel.halfSecond_of_run _ hrun]

theorem Channel.clean_recovery (hhealth : c.health = .recovering) (hrun : c.cleanRun = 24) (hcount : c.recovery < 63) :
    c.clean = { c with recovery := c.recovery + 1, cleanRun := 0 } := by
  unfold Channel.clean
  simp [hhealth, Channel.recovers_of_run hhealth hrun, Channel.halfSecond_of_run _ hrun, Nat.not_le.mpr hcount]

theorem Channel.clean_recovered (hhealth : c.health = .recovering) (hrun : c.cleanRun = 24) (hcount : c.recovery = 63) :
    c.clean = { c with health := .good, counter := 0, recovery := 0, cause := none, cleanRun := 0 } := by
  unfold Channel.clean
  simp [hhealth, Channel.recovers_of_run hhealth hrun, hcount]

end

/-- A clean channel at a sample event in RUN (R31, R32, R35). -/
theorem afterSample_clean {inp : SampleInput} {s : State} {i : Chan} {d : Deck} (hrun : s.acq.scale = .run)
    (hd : s.assignmentDue i = some d)
    (hclean : channelFault s.assignmentDue s.acq.spikeLimit s.acq.channels inp i = none) :
    (afterSample inp s).acq.channels.get i =
      { ((s.acq.channels.get i).sampled (inp.raw.get i).toInt).clean with lastGood := some (inp.raw.get i).toInt } := by
  rw [afterSample_channel_run hrun, channelAfter_assigned hd, hclean]
  rfl

/-- A faulted channel at a sample event in RUN (R27, R32, R35). -/
theorem afterSample_faulted {inp : SampleInput} {s : State} {i : Chan} {d : Deck} {k : FaultKind}
    (hrun : s.acq.scale = .run) (hd : s.assignmentDue i = some d)
    (hfault : channelFault s.assignmentDue s.acq.spikeLimit s.acq.channels inp i = some k) :
    (afterSample inp s).acq.channels.get i =
      { ((s.acq.channels.get i).sampled (inp.raw.get i).toInt).faulted with lastCode := .kind k } := by
  rw [afterSample_channel_run hrun, channelAfter_assigned hd, hfault]
  rfl

/-- Settles O24: each row finds its mark, and the channel is what its clean or faulted sample makes of it. -/
theorem channelCountRows : Obligations.ChannelCountRows := by
  refine ⟨fun inp s i d hsupply hrun hd hevaluated hraw hstuck => ?stuck,
    fun inp s i d hsupply hrun hd hclean hhealth hcount => ?counter,
    fun inp s i d hsupply hrun hd hclean hhealth hcount hrecovery => ?recovery,
    fun inp s i d hsupply hrun hd hclean hhealth hcount hrecovery => ?recovered⟩
  case stuck =>
    have hprevious : (s.acq.channels.get i).previous = some (inp.raw.get i).toInt := by
      rw [Channel.previous, if_pos hevaluated, hraw]
    have hmark : (s.acq.channels.get i).isStuck (inp.raw.get i).toInt = true :=
      Channel.isStuck_iff.mpr ⟨hprevious, hstuck.ge⟩
    have hassigned := channelFault_assigned hd s.acq.spikeLimit s.acq.channels inp
    rw [hmark] at hassigned
    obtain ⟨k, hk⟩ := exists_fault_of_stuck (inp.senseLow.get d) (decide (8300000 ≤ (inp.raw.get i).toInt.natAbs))
      (spikeTest s.acq.spikeLimit ((s.acq.channels.get i).change (inp.raw.get i).toInt)
        (mateChanges s.assignmentDue s.acq.channels (fun j => (inp.raw.get j).toInt) i d))
    have hchannel := afterSample_faulted hrun hd (hassigned.trans hk)
    refine ⟨_, sampleWhen_of_mark hsupply (finds_of_channelMark hrun (stuck_mem_channelMarks hd hmark)),
      exec_sampleEvent hsupply, ?_, ⟨k, by rw [hchannel]⟩, fun hsense hrange => ?_⟩
    · rw [hchannel]
      exact Channel.faulted_stuckRun.trans (Channel.sampled_stuckRun hmark)
    · have hk' : k = .stuck := by
        rw [hsense, decide_eq_false (by omega), spikeTest_of_unchanged hprevious] at hk
        exact (Option.some.inj hk).symm
      rw [hchannel, hk']
  case counter =>
    have hhalf := Channel.halfSecond_of_run (by rcases hhealth with h | h <;> simp [h]) hcount
    have hchannel := afterSample_clean hrun hd hclean
    rw [Channel.clean_halfSecond (c := (s.acq.channels.get i).sampled (inp.raw.get i).toInt) hhealth hcount] at hchannel
    refine ⟨_, sampleWhen_of_mark hsupply
      (finds_of_channelMark hrun (cleanHalfSecond_mem_channelMarks hd hclean hhalf)), exec_sampleEvent hsupply, ?_⟩
    rw [hchannel]
    exact ⟨rfl, rfl, rfl, rfl, rfl⟩
  case recovery =>
    have hhalf := Channel.halfSecond_of_run (by simp [hhealth]) hcount
    have hchannel := afterSample_clean hrun hd hclean
    rw [Channel.clean_recovery (c := (s.acq.channels.get i).sampled (inp.raw.get i).toInt) hhealth hcount hrecovery]
      at hchannel
    refine ⟨_, sampleWhen_of_mark hsupply
      (finds_of_channelMark hrun (cleanHalfSecond_mem_channelMarks hd hclean hhalf)), exec_sampleEvent hsupply, ?_⟩
    rw [hchannel]
    exact ⟨hhealth, rfl, rfl, rfl, rfl, rfl⟩
  case recovered =>
    have hrecovers : (s.acq.channels.get i).recovers = true := by
      rw [Channel.recovers_of_run hhealth hcount, hrecovery]
      rfl
    have hchannel := afterSample_clean hrun hd hclean
    rw [Channel.clean_recovered (c := (s.acq.channels.get i).sampled (inp.raw.get i).toInt) hhealth hcount hrecovery]
      at hchannel
    refine ⟨_, sampleWhen_of_mark hsupply
      (finds_of_channelMark hrun (recoveryComplete_mem_channelMarks hd hclean hrecovers)), exec_sampleEvent hsupply, ?_⟩
    rw [hchannel]
    exact ⟨rfl, rfl, rfl, rfl, rfl⟩

end Sys2Proof.Machine

/-! PROOFS. The scale state (R22 to R24): the warm-up's sample events, and the requests that enter and leave STANDBY. -/

namespace Sys2Proof.Machine

/-! ## A sample event of the warm-up (R22) -/

section
variable {s : State} (inp : SampleInput) (h : s.acq.scale = .warmup)
include h

theorem acquire_warmup_acq : (acquire inp (Ev.start s)).ev.st.acq =
    { s.acq with
      sampleNumber := s.acq.sampleNumber + 1, assign := Bank.ofFn s.assignmentDue
      channels := Bank.ofFn fun i => (s.acq.channels.get i).takeRaw (inp.raw.get i).toInt
      warmCount := s.acq.warmCount + 1 } := by
  have hscale : ((Ev.start s).upd beginSample).st.acq.scale = .warmup := h
  unfold acquire
  dsimp only
  rw [hscale]
  rfl

theorem acquire_warmup_notes : (acquire inp (Ev.start s)).ev.notes = [] := by
  have hscale : ((Ev.start s).upd beginSample).st.acq.scale = .warmup := h
  unfold acquire
  dsimp only
  rw [hscale]
  rfl

/-- What waits on the sample result of a warm-up leaves the acquisition unit. -/
theorem servedResult_warmup_acq (ok : Bool) (r : SampleResult) (v : Bank Int 16) :
    (serveResult ok r v (acquire inp (Ev.start s)).ev).st.acq.scale = .warmup ∧
      (serveResult ok r v (acquire inp (Ev.start s)).ev).st.acq.warmCount = s.acq.warmCount + 1 ∧
      (serveResult ok r v (acquire inp (Ev.start s)).ev).st.acq.warmLength = s.acq.warmLength ∧
      (serveResult ok r v (acquire inp (Ev.start s)).ev).st.acq.excitation = s.acq.excitation := by
  rw [serveResult_acq, acquire_warmup_acq inp h]
  exact ⟨h, rfl, rfl, rfl⟩

/-- No result of a warm-up is a VALUE. -/
theorem formedResult_warmup (v : Bank Int 16) : (formedResult (acquire inp (Ev.start s)).ev.st v).isValue = false := by
  rw [Bool.eq_false_iff]
  intro hvalue
  have hrun := formedResult_isValue hvalue
  rw [acquire_warmup_acq inp h] at hrun
  exact absurd (h.symm.trans hrun) (by decide)

end

theorem warmupEnd_of_below {e : Ev} (h : e.st.acq.warmCount < e.st.acq.warmLength) : warmupEnd e = e := by
  unfold warmupEnd
  rw [if_neg (fun x => absurd x.2 (Nat.not_le.mpr h))]

theorem warmupEnd_of_reached {e : Ev} (hscale : e.st.acq.scale = .warmup)
    (h : e.st.acq.warmLength ≤ e.st.acq.warmCount) : warmupEnd e =
      ((e.upd fun s => restart (s.setAcq { s.acq with scale := .run, excitation := true })).note
        (.scaleState .run .warmup)).mark .warmupEnd := if_pos ⟨hscale, h⟩

/-- A result that is no VALUE leaves the zero (R51, R54). -/
theorem serveZero_of_no_value {r : SampleResult} (h : r.isValue = false) (e : Ev) :
    (serveZero r e).st.zm.zeroState = e.st.zm.zeroState ∧ (serveZero r e).st.zm.offset = e.st.zm.offset := by
  unfold serveZero
  cases r with
  | value decks t i z => cases h
  | scaleNotRunning => exact ⟨rfl, rfl⟩
  | uncalibrated => exact ⟨rfl, rfl⟩
  | deckDown ds => exact ⟨rfl, rfl⟩

theorem serveResult_zm (ok : Bool) (r : SampleResult) (v : Bank Int 16) (e : Ev) :
    (serveResult ok r v e).st.zm = (serveZero r e).st.zm := by
  unfold serveResult
  simp

theorem acquire_zeroState (inp : SampleInput) (s : State) :
    (acquire inp (Ev.start s)).ev.st.zm.zeroState = s.zm.zeroState := by
  rw [acquire_zm]
  split_ifs <;> rfl

/-! ## The requests (R23, R24) -/

section
variable {e : Ev}

theorem enterStandby_of_standby (h : e.st.acq.scale = .standby) : enterStandby e = (e, Reply.bare .ok) := if_pos h

theorem enterStandby_of_warmup (h : e.st.acq.scale = .warmup) : enterStandby e = (e, Reply.bare .notReady) := by
  simp [enterStandby, h]

variable (hstandby : e.st.acq.scale ≠ .standby) (hwarmup : e.st.acq.scale ≠ .warmup)
include hstandby hwarmup

theorem enterStandby_of_held (h : e.st.cap.slot ≠ .free) : enterStandby e = (e, Reply.bare .busy) := by
  simp [enterStandby, hstandby, hwarmup, h]

theorem enterStandby_of_occupied (hfree : e.st.cap.slot = .free) (h : e.st.axle.occupancy ≠ .empty) :
    enterStandby e = (e, Reply.bare .bridgeOccupied) := by
  simp [enterStandby, hstandby, hwarmup, hfree, h]

theorem enterStandby_of_idle (hfree : e.st.cap.slot = .free) (h : e.st.axle.occupancy = .empty) :
    enterStandby e = ((e.upd fun s => s.setAcq
        { s.acq with
          scale := .standby, excitation := false
          channels := s.acq.channels.map fun c => { c with raw := none, prev := none } }).note
      (.scaleState .standby .run), Reply.bare .ok) := by
  simp [enterStandby, hstandby, hwarmup, hfree, h]

end

/-- The length fixed at entry to WARMUP (R22). -/
theorem warmupLength_eq (valid : Bool) (c : MetroConfig) : warmupLength valid c =
    if valid = false then 1000
    else match c.warmupCode with | 0 => 100 | 1 => 250 | 2 => 500 | _ => 1000 := by
  cases valid with
  | false => rfl
  | true => exact warmupSamples_eq c.warmupCode

/-- Settles O25: the warm-up by the count that a sample event makes, and the two requests by their checks. -/
theorem scaleStates : Obligations.ScaleStates := by
  refine ⟨fun inp s hsupply hwarm hcount => ⟨_, exec_sampleEvent hsupply, ?below⟩,
    fun inp s hsupply hwarm hcount => ?reached, fun s hready => ?enter, fun s hready => ?leave⟩
  case below =>
    obtain ⟨hscale, hcounted, hlength, hexc⟩ := servedResult_warmup_acq inp hwarm inp.storeOk
      (formedResult (acquire inp (Ev.start s)).ev.st (acquire inp (Ev.start s)).value)
      (acquire inp (Ev.start s)).value
    rw [afterSample_acq]
    unfold sampled sampleEvent
    dsimp only
    rw [warmupEnd_of_below (by omega)]
    exact ⟨hscale, hcounted, hlength, hexc⟩
  case reached =>
    intro a e
    obtain ⟨hscale, hcounted, hlength, -⟩ : e.st.acq.scale = .warmup ∧ e.st.acq.warmCount = s.acq.warmCount + 1 ∧
        e.st.acq.warmLength = s.acq.warmLength ∧ e.st.acq.excitation = s.acq.excitation :=
      servedResult_warmup_acq inp hwarm inp.storeOk (formedResult a.ev.st a.value) a.value
    have hsampled : sampled inp s = ((e.upd fun s => restart (s.setAcq { s.acq with scale := .run, excitation := true })).note
        (.scaleState .run .warmup)).mark .warmupEnd :=
      warmupEnd_of_reached (e := e) hscale (by omega)
    have hfound : finds .warmupEnd inp s = true := by
      change (sampled inp s).marks.contains _ = true
      rw [hsampled]
      exact List.contains_iff_mem.mpr List.mem_cons_self
    obtain ⟨hzero, hoffset⟩ := serveZero_of_no_value (formedResult_warmup inp hwarm a.value) a.ev
    have hzm : e.st.zm = (serveZero (formedResult a.ev.st a.value) a.ev).st.zm := serveResult_zm _ _ _ _
    have hzeroState : e.st.zm.zeroState = s.zm.zeroState := by rw [hzm, hzero, acquire_zeroState]
    have hoffsets : e.st.zm.offset = s.zm.offset := by rw [hzm, hoffset, acquire_offset]
    have hnotes : ∀ n ∈ e.notes, 2 ≤ n.code := by
      obtain ⟨ns, hns, hcode⟩ :=
        ((serveZero_adds (formedResult a.ev.st a.value) a.ev).trans
          ((serveResult_adds inp.storeOk _ a.value a.ev).mono (by decide))).notes
      rw [acquire_warmup_notes inp hwarm, List.nil_append] at hns
      exact fun n hn => hcode n (hns ▸ hn)
    refine ⟨_, sampleWhen_of_mark hsupply hfound, exec_sampleEvent hsupply, ?_⟩
    rw [afterSample_acq, afterSample_zm, hsampled]
    refine ⟨rfl, rfl, ?_, rfl, rfl, hzeroState, hoffsets, afterSample_site, afterSample_cal,
      fun n hn => Nat.ne_of_gt (lt_of_lt_of_le Nat.zero_lt_two (hnotes n hn)), ?_⟩
    · exact hcounted.trans hcount
    · have hraised := afterSample_raised (inp := inp) (s := s)
      rw [hsampled] at hraised
      exact hraised
  case enter =>
    change requestWith 0x90 (parseEmpty []) (fun _ => enterStandby) s = _
    split_ifs with hstandby hwarmup hheld hoccupied
    · exact requestWith_refused parseEmpty_nil hready (enterStandby_of_standby hstandby)
    · exact requestWith_refused parseEmpty_nil hready (enterStandby_of_warmup hwarmup)
    · exact requestWith_refused parseEmpty_nil hready (enterStandby_of_held hstandby hwarmup hheld)
    · exact requestWith_refused parseEmpty_nil hready
        (enterStandby_of_occupied hstandby hwarmup (not_not.mp hheld) hoccupied)
    · exact requestWith_executed parseEmpty_nil hready
        (enterStandby_of_idle hstandby hwarmup (not_not.mp hheld) (not_not.mp hoccupied)) rfl rfl
  case leave =>
    change requestWith 0x91 (parseEmpty []) (fun _ => leaveStandby) s = _
    by_cases hstandby : s.acq.scale = .standby
    · have hleft : leaveStandby (Ev.start (endFrame s)) =
          (enterWarmup (Ev.start (endFrame s)), Reply.bare .ok) :=
        congrArg (·, Reply.bare .ok) (wake_of_standby _ hstandby)
      have hexec := requestWith_executed (k := 0x91) (ns := [.scaleState .warmup .standby])
        (f := fun _ => leaveStandby) (t := s.setAcq { s.acq with
          scale := .warmup, excitation := true, warmCount := 0
          warmLength := warmupLength s.metro.valid s.store.config }) parseEmpty_nil hready hleft
        (by rw [← hstandby]; rfl) rfl
      rw [if_pos hstandby]
      rw [warmupLength_eq] at hexec
      exact hexec
    · rw [if_neg hstandby]
      exact requestWith_refused parseEmpty_nil hready (congrArg (·, Reply.bare .ok) (wake_of_ne _ hstandby))

end Sys2Proof.Machine

/-! PROOFS. The requests of the acquisition unit (R30, R34 to R38). -/

namespace Sys2Proof.Machine

/-! ## Channel numbers -/

theorem chanOf_of_out {n : Nat} (h : n = 0 ∨ 16 < n) : chanOf n = none := by
  unfold chanOf
  rw [dif_neg (by omega)]

theorem chanOf_succ (i : Chan) : chanOf (i.val + 1) = some i := by
  unfold chanOf
  rw [dif_pos (by omega)]
  rfl

/-! ## A channel changed by a request (R33) -/

theorem onDeck_iff {s : State} {i : Chan} : s.onDeck i = true ↔
    s.healthAssign i ≠ none ∨ s.metro.valid = true ∧ (s.store.config.channels.get i).deck ≠ none := by
  unfold State.onDeck State.liveAssign MetroConfig.assign
  cases s.metro.valid <;> simp [Option.isSome_iff_ne_none]

/-- A change restarts the window when the channel is some deck's and becomes included or ceases to be (R5, R33). -/
theorem changeChannel_eq (i : Chan) (new : Channel) (e : Ev) :
    (changeChannel i new e).notes =
        e.notes ++ [channelNote e.st.acq.sampleNumber i (e.st.acq.channels.get i) new] ∧
      (changeChannel i new e).st =
        if e.st.onDeck i = true ∧ (e.st.acq.channels.get i).health.included ≠ new.health.included then
          restart (e.st.setAcq { e.st.acq with channels := e.st.acq.channels.set i new })
        else e.st.setAcq { e.st.acq with channels := e.st.acq.channels.set i new } := by
  unfold changeChannel Ev.when
  dsimp only
  split_ifs with hb hc hc
  · exact ⟨rfl, rfl⟩
  · simp at hb
    exact absurd hb hc
  · simp at hb
    exact absurd (hb hc.1) hc.2
  · exact ⟨rfl, rfl⟩

@[simp] theorem clearCalWindow_isSession (x : Slot) : x.clearCalWindow.isSession = x.isSession := by
  cases x <;> rfl

/-- A restart touches neither lamp nor an input of the entry lamp. -/
theorem restart_lampInputs (s : State) : (restart s).lampInputs = s.lampInputs := by
  simp only [State.lampInputs, restart_keeps]
  exact congrArg _ (congrArg _ (congrArg _ (congrArg _ (congrArg (·, _) (clearCalWindow_isSession s.cap.slot)))))

/-- The state with one channel's record replaced. -/
def State.setChannel (s : State) (i : Chan) (c : Channel) : State :=
  s.setAcq { s.acq with channels := s.acq.channels.set i c }

section
variable {α : Type} {k : Byte} {p : Option α} {x : α} {f : α → Ev → Ev × Reply} {s : State} {i : Chan} {new : Channel}
  {r : Reply}

/-- A request that changes a channel sends its notice, and restarts where an included set changed (R33). -/
theorem requestWith_changeChannel (hp : p = some x) (h : s.ready)
    (hf : f x (Ev.start (endFrame s)) = (changeChannel i new (Ev.start (endFrame s)), r)) :
    requestWith k p f s = .next (answered k r [channelNote s.acq.sampleNumber i (s.acq.channels.get i) new]
      (if s.onDeck i = true ∧ (s.acq.channels.get i).health.included ≠ new.health.included then
        restart (s.setChannel i new) else s.setChannel i new)) := by
  obtain ⟨hnotes, hst⟩ := changeChannel_eq i new (Ev.start (endFrame s))
  refine requestWith_answered hp h hf hnotes (hst.trans ?_) ?_ ?_ ?_
  · exact (apply_ite endFrame (s.onDeck i = true ∧ (s.acq.channels.get i).health.included ≠ new.health.included)
      (restart (s.setChannel i new)) (s.setChannel i new)).symm
  · split_ifs
    · exact restart_lampInputs _
    · rfl
  · split_ifs <;> rfl
  · split_ifs <;> rfl

end

/-- An exclusion changes the included set of a deck that the channel was included in. -/
theorem exclude_restarts_iff (s : State) (i : Chan) :
    (s.onDeck i = true ∧
      (s.acq.channels.get i).health.included ≠ (s.acq.channels.get i).exclude.health.included) ↔
    (s.healthAssign i ≠ none ∨ s.metro.valid = true ∧ (s.store.config.channels.get i).deck ≠ none) ∧
      ((s.acq.channels.get i).health = .good ∨ (s.acq.channels.get i).health = .watch) := by
  rw [onDeck_iff, ← Health.included_iff]
  exact and_congr_right fun _ => iff_of_eq (Bool.not_eq_false _)

section
variable {n : Nat} {e : Ev}

/-! ## The effects of the requests -/

theorem excludeChannel_of_out (h : n = 0 ∨ 16 < n) : excludeChannel n e = (e, Reply.bare .badRequest) := by
  simp only [excludeChannel, chanOf_of_out h]

theorem excludeChannel_again {i : Chan} (h : (e.st.acq.channels.get i).health = .excluded ∧
    (e.st.acq.channels.get i).cause = some .manual) : excludeChannel (i.val + 1) e = (e, Reply.bare .ok) := by
  simp only [excludeChannel, chanOf_succ, if_pos h]

theorem excludeChannel_of_other {i : Chan} (h : ¬((e.st.acq.channels.get i).health = .excluded ∧
    (e.st.acq.channels.get i).cause = some .manual)) : excludeChannel (i.val + 1) e =
      (changeChannel i (e.st.acq.channels.get i).exclude e, Reply.bare .ok) := by
  simp only [excludeChannel, chanOf_succ, if_neg h]

theorem reinstateChannel_of_out (h : n = 0 ∨ 16 < n) : reinstateChannel n e = (e, Reply.bare .badRequest) := by
  simp only [reinstateChannel, chanOf_of_out h]

theorem reinstateChannel_of_excluded {i : Chan} (h : (e.st.acq.channels.get i).health = .excluded) :
    reinstateChannel (i.val + 1) e = (changeChannel i (e.st.acq.channels.get i).reinstate e, Reply.bare .ok) := by
  simp only [reinstateChannel, chanOf_succ, if_pos h]

theorem reinstateChannel_of_other {i : Chan} (h : (e.st.acq.channels.get i).health ≠ .excluded) :
    reinstateChannel (i.val + 1) e = (e, Reply.bare .notExcluded) := by
  simp only [reinstateChannel, chanOf_succ, if_neg h]

theorem readChannel_of_out (h : n = 0 ∨ 16 < n) : readChannel n e = (e, Reply.bare .badRequest) := by
  simp only [readChannel, chanOf_of_out h]

theorem readChannel_of_number (i : Chan) : readChannel (i.val + 1) e =
    (e.upd fun s => s.setChannel i { s.acq.channels.get i with lastCode := .noNew },
      Reply.okWith (.channel (channelFields e.st i))) := by
  simp only [readChannel, chanOf_succ]
  rfl

theorem channelFields_eq (s : State) (i : Chan) : channelFields s i =
    { channel := i, deck := s.healthAssign i, evaluated := (s.acq.channels.get i).evaluated
      raw := (s.acq.channels.get i).raw, lastGood := (s.acq.channels.get i).lastGood
      health := (s.acq.channels.get i).health
      cause := if (s.acq.channels.get i).health = .excluded ∨ (s.acq.channels.get i).health = .recovering then
        (s.acq.channels.get i).cause else none
      counter := (s.acq.channels.get i).counter
      recovery := if (s.acq.channels.get i).health = .recovering then some (s.acq.channels.get i).recovery else none
      lastCode := (s.acq.channels.get i).lastCode } := by
  unfold channelFields
  cases h : (s.acq.channels.get i).health <;> simp [h]

theorem readFaultCapture_of_held {x : FaultCapture} (h : e.st.acq.faultCapture = some x) : readFaultCapture e =
    (e.upd fun s => s.setAcq { s.acq with faultCapture := none }, Reply.okWith (.faultCapture x)) := by
  simp only [readFaultCapture, h]

theorem readFaultCapture_of_free (h : e.st.acq.faultCapture = none) : readFaultCapture e = (e, Reply.bare .empty) := by
  simp only [readFaultCapture, h]

end

/-- Every reset sets the spike limit (R30). -/
theorem resets_spikeLimit {inputs : ResetInputs} {s t : State} (hsupply : s.mainSupply = true)
    (ht : exec (.coldStart inputs) s = .next t ∨ exec (.powerOnReset inputs) s = .next t ∨
      exec (.resetLine inputs) s = .next t) : t.acq.spikeLimit = 100000 := by
  rcases ht with ht | ht | ht
  · cases ht; rfl
  · cases ht; rfl
  · rw [exec_resetLine_of_supply inputs hsupply] at ht
    cases ht
    rfl

/-- Settles O26: each request by the equations of its effect, and the resets by what they boot. -/
theorem channelRequests : Obligations.ChannelRequests := by
  refine ⟨fun p n s hp hready => ?settings, fun inputs s t hsupply ht => resets_spikeLimit hsupply ht,
    fun p n s hp hready => ⟨fun h => ?excludeOut, ?exclude⟩,
    fun p n s hp hready => ⟨fun h => ?reinstateOut, ?reinstate⟩,
    fun p n s hp hready => ⟨fun h => ?readOut, ?read⟩,
    fun s hready => ⟨fun x hx => ?held, fun hfree => ?free⟩⟩
  case settings =>
    change requestWith 0x92 (parseNat 4 p) writeChannelSettings s = _
    split_ifs with hrange
    · exact requestWith_answered hp hready (if_pos hrange) rfl rfl rfl rfl rfl
    · exact requestWith_refused hp hready (if_neg hrange)
  case excludeOut => exact requestWith_refused hp hready (excludeChannel_of_out h)
  case exclude =>
    rintro i rfl c c1 s1
    change requestWith 0x93 (parseNat 1 p) excludeChannel s = _
    by_cases hmanual : c.health = .excluded ∧ c.cause = some .manual
    · rw [if_pos hmanual]
      exact requestWith_refused hp hready (excludeChannel_again hmanual)
    · have hexec := requestWith_changeChannel (k := 0x93) (new := (s.acq.channels.get i).exclude) hp hready (excludeChannel_of_other hmanual)
      rw [if_congr (exclude_restarts_iff s i) rfl rfl] at hexec
      rw [if_neg hmanual]
      exact hexec
  case reinstateOut => exact requestWith_refused hp hready (reinstateChannel_of_out h)
  case reinstate =>
    rintro i rfl c
    change requestWith 0x94 (parseNat 1 p) reinstateChannel s = _
    by_cases hexcluded : c.health = .excluded
    · have hexec := requestWith_changeChannel (k := 0x94) (new := (s.acq.channels.get i).reinstate) hp hready (reinstateChannel_of_excluded hexcluded)
      have hhealth : (s.acq.channels.get i).health = .excluded := hexcluded
      rw [if_neg (fun h => h.2 (by rw [hhealth]; rfl)), channelNote_eq, hhealth] at hexec
      rw [if_pos hexcluded]
      exact hexec
    · rw [if_neg hexcluded]
      exact requestWith_refused hp hready (reinstateChannel_of_other hexcluded)
  case readOut => exact requestWith_refused hp hready (readChannel_of_out h)
  case read =>
    rintro i rfl c
    change requestWith 0x95 (parseNat 1 p) readChannel s = _
    have heffect : readChannel (i.val + 1) (Ev.start (endFrame s)) =
        ((Ev.start (endFrame s)).upd fun s => s.setChannel i { s.acq.channels.get i with lastCode := .noNew },
          Reply.okWith (.channel (channelFields s i))) := readChannel_of_number i
    have hexec := requestWith_answered (k := 0x95) (t := s.setChannel i { c with lastCode := .noNew }) hp hready heffect
      rfl rfl rfl rfl rfl
    rw [channelFields_eq] at hexec
    exact hexec
  case held =>
    change requestWith 0x96 (parseEmpty []) (fun _ => readFaultCapture) s = _
    exact requestWith_answered parseEmpty_nil hready (readFaultCapture_of_held hx) rfl rfl rfl rfl rfl
  case free =>
    change requestWith 0x96 (parseEmpty []) (fun _ => readFaultCapture) s = _
    exact requestWith_refused parseEmpty_nil hready (readFaultCapture_of_free hfree)

end Sys2Proof.Machine

/-! PROOFS. The sample result by its stages (R1, R4 to R13). -/

namespace Sys2Proof.Machine

/-! ## The channels of a deck -/

/-- The channels whose assignment names a deck. -/
def namedChans (c : MetroConfig) (d : Deck) : List Chan :=
  allChans.filter fun i => decide ((c.channels.get i).deck = some d)

theorem deckChans_eq (c : MetroConfig) (d : Deck) : c.deckChans d = namedChans c d :=
  List.filter_congr fun i _ => by
    rw [Bool.eq_iff_iff, beq_iff_eq, decide_eq_true_iff]
    rfl

theorem filter_included (health : Chan → Health) (l : List Chan) :
    (l.filter fun i => (health i).included) = l.filter fun i => decide (health i = .good ∨ health i = .watch) := by
  refine List.filter_congr fun i _ => ?_
  rw [Bool.eq_iff_iff, Health.included_iff, decide_eq_true_iff]

/-- The channels of a list that are not included are those that are out. -/
theorem length_sub_included (health : Chan → Health) (l : List Chan) :
    l.length - (l.filter fun i => decide (health i = .good ∨ health i = .watch)).length =
      (l.filter fun i => decide (health i = .excluded ∨ health i = .recovering)).length := by
  have hout : (l.filter fun i => !decide (health i = .good ∨ health i = .watch)) =
      l.filter fun i => decide (health i = .excluded ∨ health i = .recovering) :=
    List.filter_congr fun i _ => by cases health i <;> rfl
  have hall := l.length_eq_length_filter_add fun i => decide (health i = .good ∨ health i = .watch)
  rw [hout] at hall
  omega

/-! ## One deck (R4 to R10) -/

/-- The included channels of a deck. -/
def inclChans (c : MetroConfig) (health : Chan → Health) (d : Deck) : List Chan :=
  (namedChans c d).filter fun i => decide (health i = .good ∨ health i = .watch)

/-- The number of a deck's channels that are out. -/
def exclCount (c : MetroConfig) (health : Chan → Health) (d : Deck) : Nat :=
  ((namedChans c d).filter fun i => decide (health i = .excluded ∨ health i = .recovering)).length

/-- The sum of a deck's included channel masses (R6). -/
def inclSum (c : MetroConfig) (health : Chan → Health) (value : Chan → Int) (d : Deck) : Int :=
  ((inclChans c health d).map fun i => channelMass (c.channels.get i) (value i)).sum

theorem rawSum_eq (c : MetroConfig) (health : Chan → Health) (value : Chan → Int) (d : Deck) :
    rawSum c health value d =
      if (inclChans c health d).length < 2 then none
      else some (if exclCount c health d = 0 then inclSum c health value d
        else inclSum c health value d + exclCount c health d *
          roundDiv (inclSum c health value d) (inclChans c health d).length, decide (0 < exclCount c health d)) := by
  unfold rawSum
  dsimp only
  rw [filter_included, length_sub_included, sumInt_eq_sum, deckChans_eq]
  change (if (inclChans c health d).length < 2 then none
    else if exclCount c health d = 0 then some (inclSum c health value d, false)
    else some (inclSum c health value d + exclCount c health d *
      roundDiv (inclSum c health value d) (inclChans c health d).length, true)) = _
  rcases Nat.eq_zero_or_pos (exclCount c health d) with h | h
  · simp [h]
  · simp [h, Nat.ne_of_gt h]

/-! ## The entries together (R11, R12) -/

theorem valueEntries_values {α : Type} (f : α → DeckMass) (l : List α) :
    valueEntries (l.map fun x => DeckResult.value (f x)) = l.map f := by
  induction l with
  | nil => rfl
  | cons x r ih => simp [valueEntries, ih]

theorem valueEntries_length_le (l : List DeckResult) : (valueEntries l).length ≤ l.length := by
  induction l with
  | nil => exact Nat.le_refl 0
  | cons x r ih => cases x <;> simp [valueEntries] <;> omega

/-- One entry that is DOWN leaves no total (R11). -/
theorem valueEntries_length_lt {l : List DeckResult} {d : Deck} (h : DeckResult.down d ∈ l) :
    (valueEntries l).length < l.length := by
  induction l with
  | nil => cases h
  | cons x r ih =>
    cases x with
    | down k => exact Nat.lt_succ_of_le (valueEntries_length_le r)
    | value m => exact Nat.succ_lt_succ (ih (by simpa using h))

theorem resultOf_down {c : MetroConfig} {l : List DeckResult} {d : Deck} (h : DeckResult.down d ∈ l) :
    resultOf c l = .deckDown l := if_pos (valueEntries_length_lt h)

theorem resultOf_values (c : MetroConfig) (f : Deck → DeckMass) (l : List Deck) :
    resultOf c (l.map fun d => .value (f d)) =
      .value (l.map f) (l.map fun d => (f d).mass).sum (roundTo c.eHg (l.map fun d => (f d).mass).sum)
        (zoneOf c (l.map fun d => (f d).mass).sum (roundTo c.eHg (l.map fun d => (f d).mass).sum)) := by
  unfold resultOf
  simp [valueEntries_values, sumInt_eq_sum, Function.comp_def]

/-- Settles O29: the guards, one deck by its raw sum, and the entries together. -/
theorem sampleResultFormed : Obligations.SampleResultFormed := by
  intro scale valid c health value offset r mine incl excl mass sum raw entry
  refine ⟨fun hscale => if_pos hscale, fun hscale hinvalid => ?invalid, fun hscale hvalid => ⟨fun hdown => ?down,
    fun hall => ?value⟩⟩
  case invalid =>
    change sampleResult scale valid c health value offset = _
    simp [sampleResult, hscale, hinvalid]
  all_goals
    have hformed : r = resultOf c (c.activeDecks.map (deckResult c health value offset)) := by
      change sampleResult scale valid c health value offset = _
      simp [sampleResult, hscale, hvalid]
    have hdeck : ∀ d, deckResult c health value offset d =
        if (incl d).length < 2 then DeckResult.down d else .value (entry d) := fun d => by
      unfold deckResult
      rw [rawSum_eq]
      by_cases hd : (inclChans c health d).length < 2
      · rw [if_pos hd]
        exact (if_pos hd).symm
      · rw [if_neg hd]
        exact (if_neg hd).symm
    rw [hformed]
  case down =>
    obtain ⟨d, hd, hfew⟩ := hdown
    rw [List.map_congr_left fun d _ => hdeck d]
    refine resultOf_down (d := d) (List.mem_map.mpr ⟨d, hd, if_pos hfew⟩)
  case value =>
    rw [List.map_congr_left fun d hd => (hdeck d).trans (if_neg (Nat.not_lt.mpr (hall d hd)))]
    exact resultOf_values c entry c.activeDecks

end Sys2Proof.Machine

/-! PROOFS. What a sample event makes of the window and of its decisions (R16, R33, R40 to R49, R53). -/

namespace Sys2Proof.Machine

/-! ## The result at a sample event -/

/-- What the acquisition unit makes of a sample event. -/
def acquiredAt (inp : SampleInput) (s : State) : Ev := (acquire inp (Ev.start s)).ev

/-- The sample result formed at a sample event. -/
def resultAt (inp : SampleInput) (s : State) : SampleResult :=
  formedResult (acquiredAt inp s).st (acquire inp (Ev.start s)).value

/-- Some deck's included set changes at the sample event (R33). -/
def regrouped (inp : SampleInput) (s : State) : Bool :=
  decide (s.acq.scale = .run) && includedChanged s.assignmentDue s.acq.channels (s.evaluatedChannels inp)

section
variable (inp : SampleInput) (s : State)

theorem acquiredAt_zm : (acquiredAt inp s).st.zm =
    if regrouped inp s = true then { s.zm with window := [], clock := 0, decisions := notStable } else s.zm := by
  refine (acquire_zm inp s).trans (if_congr ?_ rfl rfl)
  rw [regrouped, Bool.and_eq_true, decide_eq_true_iff]
  rfl

theorem acquiredAt_window : (acquiredAt inp s).st.zm.window = if regrouped inp s = true then [] else s.zm.window := by
  rw [acquiredAt_zm]
  split_ifs <;> rfl

theorem acquiredAt_clock : (acquiredAt inp s).st.zm.clock = if regrouped inp s = true then 0 else s.zm.clock := by
  rw [acquiredAt_zm]
  split_ifs <;> rfl

theorem acquiredAt_sampleNumber : (acquiredAt inp s).st.acq.sampleNumber = s.acq.sampleNumber + 1 := by
  have h := sampleEvent_sampleNumber inp s
  unfold sampleEvent at h
  change (acquire inp (Ev.start s)).ev.st.acq.sampleNumber = _
  simpa only [warmupEnd_acq, serveResult_keeps] using h

theorem acquiredAt_store : (acquiredAt inp s).st.store = s.store := by simp [acquiredAt]

theorem includedChanged_iff {assign : Chan → Option Deck} {old new : Bank Channel 16} :
    includedChanged assign old new = true ↔ ∃ i, assign i ≠ none ∧
      ¬(((old.get i).health = .good ∨ (old.get i).health = .watch) ↔
        ((new.get i).health = .good ∨ (new.get i).health = .watch)) := by
  unfold includedChanged
  simp only [List.any_eq_true, Bool.and_eq_true, Option.isSome_iff_ne_none, bne_iff_ne, ← Health.included_iff,
    ← Bool.eq_iff_iff]
  exact ⟨fun ⟨i, _, h⟩ => ⟨i, h⟩, fun ⟨i, h⟩ => ⟨i, mem_allChans i, h⟩⟩

theorem regrouped_iff : regrouped inp s = true ↔ s.acq.scale = .run ∧ ∃ i, s.assignmentDue i ≠ none ∧
    ¬(((s.acq.channels.get i).health = .good ∨ (s.acq.channels.get i).health = .watch) ↔
      (((afterSample inp s).acq.channels.get i).health = .good ∨
        ((afterSample inp s).acq.channels.get i).health = .watch)) := by
  rw [regrouped, Bool.and_eq_true, decide_eq_true_iff, includedChanged_iff]
  exact and_congr_right fun hrun => by rw [afterSample_run_channels inp hrun]

end

/-! ## The zero and motion unit at the end of a sample event -/

section
variable {inp : SampleInput} {s : State}

theorem sampled_zm_of_value (h : (resultAt inp s).isValue = true) :
    (sampled inp s).st.zm = (serveZero (resultAt inp s) (acquiredAt inp s)).st.zm := by
  rcases sampleEvent_zm inp s with hzm | ⟨hno, -⟩
  · exact hzm
  · exact absurd (h.symm.trans hno) (by decide)

/-- The event at which the unit has taken the result, before the initial zero and the tracking test. -/
def takenAt (inp : SampleInput) (s : State) : Ev := (acquiredAt inp s).upd (takeResult (resultAt inp s))

theorem serveZero_of_value (h : (resultAt inp s).isValue = true) :
    serveZero (resultAt inp s) (acquiredAt inp s) = tracking (initialZero (takenAt inp s)) := if_pos h

/-- Initial zero and tracking leave decisions and clock, and rebase the window (R53). -/
theorem sampled_rebases (h : (resultAt inp s).isValue = true) : Rebases (takenAt inp s).st (sampled inp s).st := by
  have hserved := (initialZero_rebases (takenAt inp s)).trans (tracking_rebases (initialZero (takenAt inp s)))
  rw [← serveZero_of_value h] at hserved
  obtain ⟨hdec, hclock, hlatest, hwindow⟩ := hserved
  have hzm := sampled_zm_of_value h
  exact ⟨by rw [hzm, hdec], by rw [hzm, hclock], by rw [hzm, hlatest], by rw [hzm, hwindow]⟩

/-- The window with the result at its rear (R41). -/
def pushedWindow (inp : SampleInput) (s : State) (decks : List DeckMass) (total : Int) : List WindowEntry :=
  pushWindow s.store.config.window (acquiredAt inp s).st.zm.window
    { total := total, decks := decks, sampleNumber := s.acq.sampleNumber + 1 }

theorem takenAt_of_value {decks : List DeckMass} {total gross : Int} {zone : Zone}
    (h : resultAt inp s = .value decks total gross zone) :
    (takenAt inp s).st = (acquiredAt inp s).st.setZm
      { (acquiredAt inp s).st.zm with
        window := pushedWindow inp s decks total
        decisions := decide3 s.store.config (pushedWindow inp s decks total) (acquiredAt inp s).st.zm.clock
        clock := nextClock (acquiredAt inp s).st.zm.clock
        latest := some { result := resultAt inp s, sampleNumber := s.acq.sampleNumber + 1, eHg := s.store.config.eHg } } := by
  change takeResult (resultAt inp s) (acquiredAt inp s).st = _
  rw [h, takeResult]
  simp only [acquiredAt_sampleNumber, acquiredAt_store]
  rfl

theorem serveZero_of_other (h : (resultAt inp s).isValue = false) :
    serveZero (resultAt inp s) (acquiredAt inp s) = takenAt inp s := if_neg (by simp [h])

/-- The unit at a result that is no VALUE: a restart with the tracking count cleared (R41, R54). -/
def restartedZm (inp : SampleInput) (s : State) : ZeroMotion :=
  { s.zm with
    window := [], clock := 0, decisions := notStable, trackCount := 0
    latest := some { result := resultAt inp s, sampleNumber := s.acq.sampleNumber + 1, eHg := s.store.config.eHg } }

theorem takenAt_of_other (h : (resultAt inp s).isValue = false) : (takenAt inp s).st.zm = restartedZm inp s := by
  have hrestart : (takeResult (resultAt inp s) (acquiredAt inp s).st).zm =
      { (acquiredAt inp s).st.zm with
        window := [], clock := 0, decisions := notStable, trackCount := 0
        latest := some { result := resultAt inp s, sampleNumber := (acquiredAt inp s).st.acq.sampleNumber
                         eHg := (acquiredAt inp s).st.store.config.eHg } } := by
    cases hr : resultAt inp s with
    | value decks t g z => rw [hr] at h; cases h
    | scaleNotRunning => rfl
    | uncalibrated => rfl
    | deckDown ds => rfl
  refine hrestart.trans ?_
  rw [acquiredAt_sampleNumber, acquiredAt_store, acquiredAt_zm]
  split_ifs <;> rfl

theorem sampled_zm_of_other (h : (resultAt inp s).isValue = false) : (sampled inp s).st.zm = restartedZm inp s := by
  have htaken := takenAt_of_other h
  rw [← serveZero_of_other h] at htaken
  rcases sampleEvent_zm inp s with hzm | ⟨-, hzm⟩
  · exact hzm.trans htaken
  · refine hzm.trans ?_
    change { (serveZero (resultAt inp s) (acquiredAt inp s)).st.zm with
      window := [], clock := 0, decisions := notStable } = _
    rw [htaken]
    rfl

end

/-! ## Bands and means -/

/-- The band of a segment: its level plus the offset, clamped, times q (R49). -/
theorem band_of_segment {p : Profile} {q t code level : Nat} {pre post : List (Nat × Nat)}
    (hsegments : p.segments = pre ++ (code, level) :: post)
    (hstart : (pre.map fun x => segmentSamples x.1).sum ≤ t)
    (hend : post = [] ∨ t < (pre.map fun x => segmentSamples x.1).sum + segmentSamples code) :
    (band p q t : Int) = max 0 (min 31 (level + p.offset)) * q := by
  unfold band
  dsimp only
  rw [hsegments, segmentLevel_at pre post code level t hstart hend]
  push_cast
  congr 1
  split_ifs <;> omega

theorem windowMean_eq (w : List WindowEntry) (k : Deck) : windowMean w k =
    roundDiv (w.map fun x => ((x.decks.filter fun m => decide (m.deck = k)).map DeckMass.mass).sum).sum w.length := by
  unfold windowMean WindowEntry.deckMass
  simp only [sumInt_eq_sum]
  rfl

theorem rebase_eq (f : Deck → Int) (x : WindowEntry) : x.rebase f =
    { x with
      total := x.total - (x.decks.map fun m => f m.deck).sum
      decks := x.decks.map fun m => { m with mass := m.mass - f m.deck } } := by
  rw [WindowEntry.rebase, sumInt_eq_sum]

theorem pushWindow_eq {α : Type} (w : Nat) (l : List α) (x : α) :
    pushWindow w l x = (l ++ [x]).drop (l.length + 1 - w) := by
  rw [pushWindow, List.length_append, List.length_singleton]

/-- Settles O30: the window that the result finds, what is decided of it, and the band, the mean and the ranges. -/
theorem stabilityDecided : Obligations.StabilityDecided := by
  refine ⟨fun inp s hsupply => ?sample, fun p q t code level pre post => ?band, windowMean_eq, fun c => ⟨rfl, rfl⟩⟩
  case band =>
    intro lasts start hsegments hstart hend
    exact band_of_segment hsegments hstart hend
  case sample =>
    intro c a r included
    refine ⟨_, exec_sampleEvent hsupply, by rw [afterSample_zm]; exact sampled_latest inp s, ?_⟩
    rw [afterSample_zm]
    intro regrouped' window clock
    have hwindow : window = (acquiredAt inp s).st.zm.window := by
      rw [acquiredAt_window]
      exact if_congr (regrouped_iff inp s).symm rfl rfl
    have hclock : clock = (acquiredAt inp s).st.zm.clock := by
      rw [acquiredAt_clock]
      exact if_congr (regrouped_iff inp s).symm rfl rfl
    refine ⟨fun decks total gross zone hvalue => ?_, fun hno => ?_⟩
    swap
    · rw [sampled_zm_of_other hno]
      exact ⟨rfl, rfl, rfl, rfl, rfl⟩
    intro entry w settled rise
    have hvalue : resultAt inp s = .value decks total gross zone := hvalue
    obtain ⟨hdec, hnext, -, hrebased⟩ := sampled_rebases (inp := inp) (s := s) (by rw [hvalue]; rfl)
    have htaken := takenAt_of_value hvalue
    have hw : w = pushedWindow inp s decks total := by
      rw [pushedWindow, pushWindow_eq, ← hwindow]
    rw [htaken] at hdec hnext hrebased
    simp only [State.setZm_zm] at hdec hnext hrebased
    rw [hdec, hnext, hrebased, ← hw, ← hclock]
    refine ⟨stableUnder_iff _ _ _, stableUnder_iff _ _ _, stableUnder_iff _ _ _, rfl, ?_⟩
    refine List.map_congr_left fun x _ => ?_
    rw [rebase_eq]
    have hoffset : (acquiredAt inp s).st.zm.offset = s.zm.offset := acquire_offset inp s
    rw [hoffset]

end Sys2Proof.Machine

/-! PROOFS. The zero at a sample event: the initial zero and the tracking step (R50, R51, R54). -/

namespace Sys2Proof.Machine

/-! ## The notices around the zero and motion unit -/

section
variable (inp : SampleInput) (s : State)

/-- Behind the zero and motion unit come notices of the later blocks, and SCALE_STATE at the end of a warm-up. -/
theorem sampled_notes : ∃ rest, (sampled inp s).notes =
    (serveZero (resultAt inp s) (acquiredAt inp s)).notes ++ rest ∧ ∀ n ∈ rest, 7 ≤ n.code ∨ n.code = 0 := by
  obtain ⟨ns, hns, hcode⟩ := (serveResult_adds inp.storeOk (resultAt inp s) (acquire inp (Ev.start s)).value
    (acquiredAt inp s)).notes
  have hend := warmupEnd_notes (serveResult inp.storeOk (resultAt inp s) (acquire inp (Ev.start s)).value
    (acquiredAt inp s))
  rw [hns, List.append_assoc] at hend
  refine ⟨_, hend, fun n hn => ?_⟩
  rcases List.mem_append.mp hn with hn | hn
  · exact .inl (hcode n hn)
  · right
    split_ifs at hn
    · rw [List.mem_singleton.mp hn]
      rfl
    · cases hn

variable {inp s}

/-- A VALUE result is one of RUN, where no warm-up ends. -/
theorem sampled_notes_of_value (h : (resultAt inp s).isValue = true) : ∃ rest, (sampled inp s).notes =
    (serveZero (resultAt inp s) (acquiredAt inp s)).notes ++ rest ∧ ∀ n ∈ rest, 7 ≤ n.code := by
  have hrun : s.acq.scale = .run := by
    by_contra hno
    have hscale := formedResult_isValue h
    cases hs : s.acq.scale with
    | run => exact hno hs
    | warmup =>
      rw [acquiredAt, acquire_warmup_acq inp hs] at hscale
      exact absurd (hs.symm.trans hscale) (by decide)
    | standby =>
      have hstandby : (acquiredAt inp s).st.acq.scale = .standby := by
        have hbegun : ((Ev.start s).upd beginSample).st.acq.scale = .standby := hs
        unfold acquiredAt acquire
        dsimp only
        rw [hbegun]
        exact hs
      exact absurd (hstandby.symm.trans hscale) (by decide)
  rw [sampled_run inp hrun]
  exact (serveResult_adds inp.storeOk (resultAt inp s) (acquire inp (Ev.start s)).value (acquiredAt inp s)).notes

end

/-! ## The tracking test (R54) -/

section
variable {e : Ev}

/-- The state with another tracking count. -/
def State.setTrackCount (s : State) (n : Nat) : State := s.setZm { s.zm with trackCount := n }

theorem tracking_of_not (h : trackingHolds e.st = false) : tracking e = e.upd (·.setTrackCount 0) :=
  if_neg (by simp [h])

theorem tracking_of_below (h : trackingHolds e.st = true) (hcount : e.st.zm.trackCount < 49) :
    tracking e = e.upd fun s => s.setTrackCount (s.zm.trackCount + 1) :=
  (if_pos h).trans (if_neg (by omega))

theorem tracking_of_reached (h : trackingHolds e.st = true) (hcount : e.st.zm.trackCount = 49) :
    tracking e = trackingStep e := (if_pos h).trans (if_pos (by omega))

theorem trackingHolds_of_pending (h : e.st.zm.zeroState = .pending) : trackingHolds e.st = false := by
  simp [trackingHolds, h]

/-- Below its limit the tracking test changes the count alone. -/
theorem tracking_count (h : e.st.zm.trackCount < 49) :
    ∃ n, tracking e = e.upd (·.setTrackCount n) := by
  cases hholds : trackingHolds e.st with
  | false => exact ⟨0, tracking_of_not hholds⟩
  | true => exact ⟨e.st.zm.trackCount + 1, tracking_of_below hholds h⟩

/-! ## The initial zero (R51) -/

/-- The conditions of the initial zero at a VALUE result. -/
def initialTests (s : State) : Prop :=
  s.zm.zeroState = .pending ∧ s.axle.loopsClear = true ∧ s.zm.decisions.zeroBand = true

theorem initialZero_of_not (h : ¬initialTests e.st) : initialZero e = e := if_neg h

theorem initialZero_of_within (h : initialTests e.st)
    (hwithin : zeroWithin e.st e.st.store.config.initialRange (fun _ => 0) = true) : initialZero e = takeInitialZero e :=
  (if_pos h).trans (if_pos hwithin)

theorem initialZero_of_outside (h : initialTests e.st)
    (hout : ¬zeroWithin e.st e.st.store.config.initialRange (fun _ => 0) = true) : initialZero e =
      if e.st.zm.rangeReported = true then e
      else (e.upd fun s => s.setZm { s.zm with rangeReported := true }).note
        (.zeroRange (perActive e.st (zeroMean e.st)) e.st.store.config.initialRange) :=
  (if_pos h).trans (if_neg hout)

end

/-! ## The unit when it has taken a VALUE result -/

section
variable {inp : SampleInput} {s : State} {decks : List DeckMass} {total gross : Int} {zone : Zone}

@[simp] theorem takenAt_notes : (takenAt inp s).notes = (acquiredAt inp s).notes := rfl

theorem takenAt_axle : (takenAt inp s).st.axle = s.axle := by simp [takenAt, acquiredAt]

theorem takenAt_store : (takenAt inp s).st.store = s.store := by simp [takenAt, acquiredAt]

variable (h : resultAt inp s = .value decks total gross zone)
include h

theorem takenAt_zm : (takenAt inp s).st.zm =
    { s.zm with
      window := pushedWindow inp s decks total
      decisions := decide3 s.store.config (pushedWindow inp s decks total) (acquiredAt inp s).st.zm.clock
      clock := nextClock (acquiredAt inp s).st.zm.clock
      latest := some { result := resultAt inp s, sampleNumber := s.acq.sampleNumber + 1
                       eHg := s.store.config.eHg } } := by
  rw [takenAt_of_value h, State.setZm_zm, acquiredAt_zm]
  split_ifs <;> rfl

theorem isValue_of_eq : (resultAt inp s).isValue = true := by
  rw [h]
  rfl

theorem sampled_zm_eq : (sampled inp s).st.zm = (tracking (initialZero (takenAt inp s))).st.zm := by
  rw [sampled_zm_of_value (isValue_of_eq h), serveZero_of_value (isValue_of_eq h)]

theorem sampled_notes_eq : ∃ rest, (sampled inp s).notes =
    (tracking (initialZero (takenAt inp s))).notes ++ rest ∧ ∀ n ∈ rest, 7 ≤ n.code := by
  rw [← serveZero_of_value (isValue_of_eq h)]
  exact sampled_notes_of_value (isValue_of_eq h)

/-- With a clear zero the zero means are the window means (R46, R50). -/
theorem takenAt_zeroMean (hclear : ∀ d, s.zm.offset.get d = 0) (d : Deck) :
    zeroMean (takenAt inp s).st d = windowMean (pushedWindow inp s decks total) d := by
  rw [zeroMean, takenAt_zm h]
  exact (congrArg _ (hclear d)).trans (Int.add_zero _)

theorem initialTests_takenAt : initialTests (takenAt inp s).st ↔ s.zm.zeroState = .pending ∧
    (s.axle.loopEntry = false ∧ s.axle.loopExit = false) ∧ (sampled inp s).st.zm.decisions.zeroBand = true := by
  unfold initialTests
  rw [(sampled_rebases (isValue_of_eq h)).decisions, takenAt_axle]
  refine and_congr ?_ (and_congr ?_ Iff.rfl)
  · rw [takenAt_zm h]
  · simp [AxleMap.loopsClear]

end

/-- The zero taken from ZERO_PENDING, by its parts (R51). -/
theorem takeInitialZero_zm (e : Ev) :
    (takeInitialZero e).st.zm.zeroState = .set ∧ (takeInitialZero e).st.zm.offset = zeroOffsets e.st (fun _ => 0) ∧
      (takeInitialZero e).st.zm.initial = zeroOffsets e.st (fun _ => 0) ∧
      (takeInitialZero e).st.zm.halt = Bank.fill 4 false ∧
      (takeInitialZero e).st.zm.trackCount = e.st.zm.trackCount := ⟨rfl, rfl, rfl, rfl, rfl⟩

/-- ZERO_STATE gives the zero means as the offsets of the active decks (R51). -/
theorem takeInitialZero_notes (e : Ev) : (takeInitialZero e).notes =
    e.notes ++ [.zeroState .set (e.st.store.config.activeDecks.map fun d => (d, zeroMean e.st d))] := by
  change e.notes ++ [Notice.zeroState .set (e.st.store.config.activeDecks.map fun d =>
    (d, (zeroOffsets e.st fun _ => 0).get d))] = _
  refine congrArg (fun l => e.notes ++ [Notice.zeroState .set l]) (List.map_congr_left fun d hd => ?_)
  rw [zeroOffsets_get, if_pos (activeDecks_mem.mp hd)]

theorem SampleResult.eq_value_of_isValue {r : SampleResult} (h : r.isValue = true) :
    ∃ decks total gross zone, r = .value decks total gross zone := by
  cases r with
  | value decks t g z => exact ⟨decks, t, g, z, rfl⟩
  | scaleNotRunning => cases h
  | uncalibrated => cases h
  | deckDown ds => cases h

/-- The notices of a sample event begin with those that stand behind the zero and motion unit. -/
theorem raisedFirst_of_notes {inp : SampleInput} {s : State} {ns : List Notice} {p : Notice → Prop}
    (h : ∃ rest, (sampled inp s).notes = ns ++ rest ∧ ∀ n ∈ rest, p n) : s.raisedFirst ns p (afterSample inp s) := by
  obtain ⟨rest, hnotes, hrest⟩ := h
  exact ⟨rest, hrest, hnotes ▸ afterSample_raised⟩

theorem notes_weaken {p q : Notice → Prop} {l ns : List Notice} (h : ∃ rest, l = ns ++ rest ∧ ∀ n ∈ rest, p n)
    (hpq : ∀ n, p n → q n) : ∃ rest, l = ns ++ rest ∧ ∀ n ∈ rest, q n := by
  obtain ⟨rest, hl, hrest⟩ := h
  exact ⟨rest, hl, fun n hn => hpq n (hrest n hn)⟩

/-- Settles O31: without its tests nothing happens; with them the zero means decide. -/
theorem initialZeroTaken : Obligations.InitialZeroTaken := by
  intro inp s hsupply hlaw hpending c a r
  obtain ⟨-, -, -, hclear, -⟩ := hlaw
  obtain ⟨hcount, -, hzero⟩ := hclear hpending
  have hoffset : ∀ d, s.zm.offset.get d = 0 := fun d => (hzero d).1
  have hquiet : ∀ n : Notice, 7 ≤ n.code ∨ n.code = 0 → n.code ≠ 2 ∧ n.code ≠ 3 := fun n hn => by omega
  refine ⟨_, exec_sampleEvent hsupply, ?_⟩
  rw [afterSample_zm]
  intro answers unset tests
  have hanswers : ∀ ns, (∃ rest, (sampled inp s).notes = (acquiredAt inp s).notes ++ ns ++ rest ∧
      ∀ n ∈ rest, 7 ≤ n.code ∨ n.code = 0) → answers ns := fun ns h =>
    raisedFirst_of_notes (notes_weaken h hquiet)
  have hunset : ∀ z, (sampled inp s).st.zm = z → z.zeroState = .pending → z.offset = s.zm.offset →
      z.initial = s.zm.initial → z.trackCount = 0 → unset := fun z hz h1 h2 h3 h4 => by
    subst hz
    exact ⟨h1, h2, h3, h4⟩
  refine ⟨fun hno => ?untested, fun htests decks total gross zone hvalue => ?tested⟩
  case untested =>
    cases hvalue : (resultAt inp s).isValue with
    | false =>
      have hnotes := sampled_notes inp s
      rw [serveZero_of_other hvalue, takenAt_notes, ← List.append_nil (acquiredAt inp s).notes] at hnotes
      have hzm := sampled_zm_of_other hvalue
      exact ⟨hanswers [] hnotes, hunset _ hzm hpending rfl rfl rfl, by rw [hzm]; rfl⟩
    | true =>
      obtain ⟨decks, total, gross, zone, hr⟩ := SampleResult.eq_value_of_isValue hvalue
      have htests : ¬initialTests (takenAt inp s).st := fun h => by
        obtain ⟨-, ⟨hentry, hexit⟩, hband⟩ := (initialTests_takenAt hr).mp h
        exact hno ⟨hvalue, hentry, hexit, hband⟩
      have hserved : tracking (initialZero (takenAt inp s)) = (takenAt inp s).upd (·.setTrackCount 0) := by
        rw [initialZero_of_not htests, tracking_of_not (trackingHolds_of_pending (by rw [takenAt_zm hr]; exact hpending))]
      have hnotes := notes_weaken (sampled_notes_eq hr) fun n hn => Or.inl (b := n.code = 0) hn
      rw [hserved] at hnotes
      have hzm : (sampled inp s).st.zm = ((takenAt inp s).st.setTrackCount 0).zm := by
        rw [sampled_zm_eq hr, hserved]
        rfl
      rw [State.setTrackCount, State.setZm_zm, takenAt_zm hr] at hzm
      exact ⟨hanswers [] (by rw [List.append_nil]; exact hnotes), hunset _ hzm hpending rfl rfl rfl, by rw [hzm]⟩
  case tested =>
    intro entry before w within
    have hr : resultAt inp s = .value decks total gross zone := hvalue
    obtain ⟨-, hentry, hexit, hband⟩ := htests
    have htests := (initialTests_takenAt hr).mpr ⟨hpending, ⟨hentry, hexit⟩, hband⟩
    have hw : w = pushedWindow inp s decks total := (pushWindow_eq _ _ _).symm
    have hmean : ∀ d, zeroMean (takenAt inp s).st d = windowMean w d := fun d => by
      rw [hw]
      exact takenAt_zeroMean hr hoffset d
    have hconfig : (takenAt inp s).st.store.config = c := by rw [takenAt_store]
    have hcounted : (takenAt inp s).st.zm.trackCount = 0 := by rw [takenAt_zm hr]; exact hcount
    have hwithin : zeroWithin (takenAt inp s).st (takenAt inp s).st.store.config.initialRange (fun _ => 0) = true ↔
        within := by
      rw [zeroWithin_iff, hconfig]
      simp only [hmean, Int.sub_zero, ← activeDecks_mem]
      exact Iff.rfl
    have hnotes := notes_weaken (sampled_notes_eq hr) fun n hn => Or.inl (b := n.code = 0) hn
    refine ⟨fun h => ?_, fun h => ?_⟩
    · obtain ⟨hset, hnew, hinitial, hhalt, hkept⟩ := takeInitialZero_zm (takenAt inp s)
      obtain ⟨n, htracked⟩ := tracking_count (e := takeInitialZero (takenAt inp s)) (by
        rw [hkept, hcounted]
        exact Nat.zero_lt_succ 48)
      have hserved : tracking (initialZero (takenAt inp s)) = (takeInitialZero (takenAt inp s)).upd (·.setTrackCount n) := by
        rw [initialZero_of_within htests (hwithin.mpr h), htracked]
      have hzm : (sampled inp s).st.zm = { (takeInitialZero (takenAt inp s)).st.zm with trackCount := n } := by
        rw [sampled_zm_eq hr, hserved]
        rfl
      rw [hserved, Ev.upd_notes, takeInitialZero_notes, hconfig] at hnotes
      simp only [hmean] at hnotes
      refine ⟨hanswers _ hnotes, ?_⟩
      rw [hzm]
      refine ⟨hset, fun d => ?_, hinitial.trans hnew.symm, fun d => ?_⟩
      · simp only [hnew, zeroOffsets_get, hmean, activeDecks_mem, hconfig]
      · simp only [hhalt, Bank.get_fill]
    · have hout := initialZero_of_outside htests (mt hwithin.mp h)
      have hpendingStays : (initialZero (takenAt inp s)).st.zm.zeroState = .pending := by
        rw [hout]
        split_ifs <;> exact htests.1
      have hserved : tracking (initialZero (takenAt inp s)) = (initialZero (takenAt inp s)).upd (·.setTrackCount 0) :=
        tracking_of_not (trackingHolds_of_pending hpendingStays)
      have hreported : (takenAt inp s).st.zm.rangeReported = s.zm.rangeReported := by rw [takenAt_zm hr]
      have hzm : (sampled inp s).st.zm = { (takenAt inp s).st.zm with rangeReported := true, trackCount := 0 } := by
        rw [sampled_zm_eq hr, hserved, hout]
        split_ifs with hbefore
        · rw [← hbefore]
          rfl
        · rfl
      rw [takenAt_zm hr] at hzm
      refine ⟨hunset _ hzm hpending rfl rfl rfl, by rw [hzm], hanswers _ ?_⟩
      rw [hserved, Ev.upd_notes, hout, hreported] at hnotes
      by_cases hbefore : s.zm.rangeReported = true
      · rw [if_pos hbefore] at hnotes ⊢
        rw [List.append_nil]
        exact hnotes
      · rw [if_neg hbefore] at hnotes ⊢
        rw [Ev.note_notes, Ev.upd_notes, takenAt_notes, perActive, hconfig] at hnotes
        simp only [hmean] at hnotes
        exact hnotes

end Sys2Proof.Machine

/-! PROOFS. The tracking step at a sample event (R54). -/

namespace Sys2Proof.Machine

section
variable {inp : SampleInput} {s : State} {decks : List DeckMass} {total gross : Int} {zone : Zone}

theorem clearCalWindow_free_iff {x : Slot} : x.clearCalWindow = .free ↔ x = .free := by
  cases x <;> simp [Slot.clearCalWindow]

theorem takenAt_slot_free (h : resultAt inp s = .value decks total gross zone) :
    (takenAt inp s).st.cap.slot = .free ↔ s.cap.slot = .free := by
  rw [takenAt_of_value h]
  change (acquire inp (Ev.start s)).ev.st.cap.slot = .free ↔ _
  rcases acquire_slot inp (Ev.start s) with hslot | hslot
  · rw [hslot, Ev.start_st]
  · rw [hslot, clearCalWindow_free_iff, Ev.start_st]

/-- The tracking conditions at a VALUE result in ZERO_SET (R54). -/
def trackingConditions (inp : SampleInput) (s : State) (decks : List DeckMass) (total : Int) : Prop :=
  s.store.config.zeroTracking = true ∧ s.axle.occupancy = .empty ∧ s.axle.certain = true ∧ s.cap.slot = .free ∧
    stableUnder s.store.config.window (2 * s.store.config.q)
      ((pushedWindow inp s decks total).map WindowEntry.total) = true ∧
    ∀ m ∈ decks, m.mass.natAbs ≤ 2 * s.store.config.q

theorem trackingHolds_takenAt (h : resultAt inp s = .value decks total gross zone) (hset : s.zm.zeroState = .set) :
    trackingHolds (takenAt inp s).st = true ↔ trackingConditions inp s decks total := by
  have hmasses : massesWithin (takenAt inp s).st = decks.all fun m => decide (m.mass.natAbs ≤ 2 * s.store.config.q) := by
    unfold massesWithin
    rw [takenAt_zm h, h, takenAt_store]
  unfold trackingHolds trackingConditions
  simp only [Bool.and_eq_true, decide_eq_true_eq, hmasses, takenAt_axle, takenAt_store, takenAt_slot_free h]
  rw [takenAt_zm h]
  simp [hset, decide3, and_assoc]

/-- In ZERO_SET only the tracking test follows a VALUE result. -/
theorem served_of_set (h : resultAt inp s = .value decks total gross zone) (hset : s.zm.zeroState = .set) :
    tracking (initialZero (takenAt inp s)) = tracking (takenAt inp s) := by
  rw [initialZero_of_not]
  intro htests
  have hzero := htests.1
  rw [takenAt_zm h] at hzero
  exact absurd (hset.symm.trans hzero) (by decide)

end

/-! ## A tracking step deck by deck -/

/-- How far a deck would lie from its initial zero after its step. -/
def movedBy (s : State) (d : Deck) : Int := trackedOffset s d - s.zm.initial.get d

theorem clamp_of_within {b : Nat} {x : Int} (hlow : -(b : Int) ≤ x) (hhigh : x ≤ b) : clamp b x = x := by
  rw [clamp, if_neg (by omega), if_neg (by omega)]

theorem clamp_of_above {b : Nat} {x : Int} (h : (b : Int) < x) : clamp b x = b := by
  rw [clamp, if_neg (by omega), if_pos h]

theorem clamp_of_below {b : Nat} {x : Int} (h : x < -(b : Int)) : clamp b x = -(b : Int) := by
  rw [clamp, if_pos h]

theorem mem_allDecks : ∀ d : Deck, d ∈ allDecks := by decide

/-- The decks that reach their limit at a step. -/
def limitedDecks (s : State) : List Deck := allDecks.filter fun d => tracks s d && passesRange s d

section
variable {s : State} {d : Deck}

theorem tracks_iff : tracks s d = true ↔ d ∈ s.store.config.activeDecks ∧ s.zm.halt.get d = false := by
  rw [tracks, activeDecks_mem]
  simp

theorem passesRange_iff : passesRange s d = true ↔ (s.store.config.trackingRange : Int) < (movedBy s d).natAbs := by
  rw [passesRange, decide_eq_true_iff, movedBy]
  exact Int.ofNat_lt.symm

theorem limitedDecks_eq (s : State) : limitedDecks s = allDecks.filter fun d =>
    decide (d ∈ s.store.config.activeDecks ∧ s.zm.halt.get d = false ∧
      (s.store.config.trackingRange : Int) < (movedBy s d).natAbs) := by
  refine List.filter_congr fun d _ => ?_
  rw [Bool.eq_iff_iff, Bool.and_eq_true, tracks_iff, passesRange_iff, decide_eq_true_iff, and_assoc]

theorem limitedDecks_contains_iff : (limitedDecks s).contains d = true ↔
    tracks s d = true ∧ (s.store.config.trackingRange : Int) < (movedBy s d).natAbs := by
  rw [List.contains_iff_mem, limitedDecks, List.mem_filter, Bool.and_eq_true, passesRange_iff]
  exact and_iff_right (mem_allDecks d)

end

theorem trackingStep_zm (e : Ev) :
    (trackingStep e).st.zm.offset = Bank.ofFn (offsetAfterStep e.st) ∧
      (trackingStep e).st.zm.halt = Bank.ofFn (fun d => e.st.zm.halt.get d || (limitedDecks e.st).contains d) ∧
      (trackingStep e).st.zm.trackCount = 0 ∧ (trackingStep e).st.zm.zeroState = e.st.zm.zeroState ∧
      (trackingStep e).st.zm.initial = e.st.zm.initial := ⟨rfl, rfl, rfl, rfl, rfl⟩

theorem trackingStep_notes (e : Ev) : (trackingStep e).notes = e.notes ++
    (limitedDecks e.st).map fun d => .zeroLimit d ((trackingStep e).st.zm.offset.get d) (e.st.zm.initial.get d) := rfl

/-- A deck that does not take part in a step stands. -/
theorem trackingStep_still {e : Ev} {d : Deck} (h : tracks e.st d = false) :
    (trackingStep e).st.zm.offset.get d = e.st.zm.offset.get d ∧
      (trackingStep e).st.zm.halt.get d = e.st.zm.halt.get d := by
  obtain ⟨hoffset, hhalt, -⟩ := trackingStep_zm e
  have hlimited : (limitedDecks e.st).contains d = false := by
    rw [Bool.eq_false_iff]
    exact fun hc => absurd (limitedDecks_contains_iff.mp hc).1 (by simp [h])
  rw [hoffset, hhalt, Bank.get_ofFn, Bank.get_ofFn, hlimited, Bool.or_false, offsetAfterStep, if_neg (by simp [h])]
  exact ⟨rfl, rfl⟩

/-- A deck that takes part moves to the nearer edge of the range at most, where it is halted. -/
theorem trackingStep_moved {e : Ev} {d : Deck} (hactive : d ∈ e.st.store.config.activeDecks)
    (hfree : e.st.zm.halt.get d = false) :
    (trackingStep e).st.zm.offset.get d =
        e.st.zm.initial.get d + clamp e.st.store.config.trackingRange (movedBy e.st d) ∧
      ((trackingStep e).st.zm.halt.get d = true ↔
        (e.st.store.config.trackingRange : Int) < (movedBy e.st d).natAbs) := by
  obtain ⟨hoffset, hhalt, -⟩ := trackingStep_zm e
  have htracks : tracks e.st d = true := tracks_iff.mpr ⟨hactive, hfree⟩
  rw [hoffset, hhalt, Bank.get_ofFn, Bank.get_ofFn, hfree, Bool.false_or, limitedDecks_contains_iff, offsetAfterStep,
    if_pos htracks]
  exact ⟨rfl, and_iff_right htracks⟩

theorem tracking_kept (e : Ev) : (tracking e).st.zm.zeroState = e.st.zm.zeroState ∧
    (tracking e).st.zm.initial = e.st.zm.initial := by
  unfold tracking
  split_ifs <;> exact ⟨rfl, rfl⟩

/-- Settles O33: the tracking test by whether its conditions hold and by its count, and the step deck by deck. -/
theorem trackingStepRow : Obligations.TrackingStepRow := by
  intro inp s decks total gross zone hsupply c a w holds hvalue hset
  have hr : resultAt inp s = .value decks total gross zone := hvalue
  have hholds : trackingHolds (takenAt inp s).st = true ↔ holds := trackingHolds_takenAt hr hset
  have hserved := served_of_set hr hset
  have hzm := sampled_zm_eq hr
  have hnotes := sampled_notes_eq hr
  rw [hserved] at hzm hnotes
  have htaken := takenAt_zm hr
  have hcount : (takenAt inp s).st.zm.trackCount = s.zm.trackCount := by rw [htaken]
  have hoffset : (takenAt inp s).st.zm.offset = s.zm.offset := by rw [htaken]
  have hhalt : (takenAt inp s).st.zm.halt = s.zm.halt := by rw [htaken]
  have hinitial : (takenAt inp s).st.zm.initial = s.zm.initial := by rw [htaken]
  have hconfig : (takenAt inp s).st.store.config = c := by rw [takenAt_store]
  obtain ⟨hzeroState, hkept⟩ := tracking_kept (takenAt inp s)
  refine ⟨_, exec_sampleEvent hsupply, ?_⟩
  rw [afterSample_zm, hzm]
  refine ⟨hzeroState.trans (by rw [htaken]; exact hset), hkept.trans hinitial, ?still, fun hmet hfull => ?step⟩
  case still =>
    intro still
    have hstill : ∀ n, tracking (takenAt inp s) = (takenAt inp s).upd (·.setTrackCount n) →
        (tracking (takenAt inp s)).st.zm.trackCount = n ∧ still := fun n htracked => by
      rw [htracked] at hnotes
      refine ⟨by rw [htracked]; rfl, ?_, ?_, raisedFirst_of_notes hnotes⟩
      · rw [htracked]
        exact hoffset
      · rw [htracked]
        exact hhalt
    refine ⟨fun hunmet => ?_, fun hmet hlow => ?_⟩
    · exact hstill 0 (tracking_of_not (by rw [Bool.eq_false_iff]; exact mt hholds.mp hunmet))
    · refine hstill _ ((tracking_of_below (hholds.mpr hmet) (by omega)).trans ?_)
      rw [← hcount]
      rfl
  case step =>
    intro moved lz limited
    have htracked : tracking (takenAt inp s) = trackingStep (takenAt inp s) :=
      tracking_of_reached (hholds.mpr hmet) (hcount.trans hfull)
    have hmoved : ∀ d, movedBy (takenAt inp s).st d = moved d := fun d => by
      rw [movedBy, trackedOffset, hoffset, hinitial, hconfig, htaken]
      rfl
    have hlimited : limitedDecks (takenAt inp s).st = limited := by
      rw [limitedDecks_eq, hconfig, hhalt]
      simp only [hmoved]
      rfl
    have hfound : finds .trackingStep inp s = true := by
      refine finds_of_mark (.inl ?_)
      change Mark.trackingStep ∈ (serveZero (resultAt inp s) (acquiredAt inp s)).marks
      rw [serveZero_of_value (isValue_of_eq hr), hserved, htracked]
      exact List.mem_cons_self
    rw [htracked] at hnotes ⊢
    obtain ⟨-, -, hcleared, -, -⟩ := trackingStep_zm (takenAt inp s)
    refine ⟨sampleWhen_of_mark hsupply hfound, hcleared, ?_, fun d => ⟨fun hout => ?_, fun hactive hfree => ?_⟩⟩
    · rw [trackingStep_notes, hlimited, hinitial] at hnotes
      exact raisedFirst_of_notes hnotes
    · rw [← hoffset, ← hhalt]
      refine trackingStep_still ?_
      rw [Bool.eq_false_iff]
      intro htracks
      obtain ⟨hactive, hfree⟩ := tracks_iff.mp htracks
      rw [hconfig] at hactive
      rw [hhalt] at hfree
      rcases hout with hout | hout
      · exact hout hactive
      · exact absurd (hout.symm.trans hfree) (by decide)
    · obtain ⟨hnew, hhalted⟩ := trackingStep_moved (e := takenAt inp s) (d := d) (by rw [hconfig]; exact hactive)
        (by rw [hhalt]; exact hfree)
      rw [hmoved, hconfig, hinitial] at hnew
      rw [hmoved, hconfig] at hhalted
      refine ⟨fun hlow hhigh => ⟨?_, ?_⟩, fun habove => ⟨?_, ?_⟩, fun hbelow => ⟨?_, ?_⟩⟩
      · rw [hnew, clamp_of_within hlow hhigh]
      · rw [Bool.eq_false_iff]
        exact mt hhalted.mp (by omega)
      · rw [hnew, clamp_of_above habove]
      · exact hhalted.mpr (by omega)
      · rw [hnew, clamp_of_below hbelow]
        rfl
      · exact hhalted.mpr (by omega)

end Sys2Proof.Machine

/-! PROOFS. Set Zero (R52, R53). -/

namespace Sys2Proof.Machine

section
variable {e : Ev}

theorem setZero_of_notReady (h : e.st.acq.scale ≠ .run ∨ latestIsValue e.st = false) :
    setZero e = (e, Reply.bare .notReady) := if_pos h

variable (hrun : e.st.acq.scale = .run) (hvalue : latestIsValue e.st = true)
include hrun hvalue

theorem setZero_of_occupied (h : e.st.axle.occupancy ≠ .empty) : setZero e = (e, Reply.bare .bridgeOccupied) := by
  simp [setZero, hrun, hvalue, h]

variable (hempty : e.st.axle.occupancy = .empty)
include hempty

theorem setZero_of_held (h : e.st.cap.slot ≠ .free) : setZero e = (e, Reply.bare .busy) := by
  simp [setZero, hrun, hvalue, hempty, h]

variable (hfree : e.st.cap.slot = .free)
include hfree

theorem setZero_of_motion (h : e.st.zm.decisions.zeroBand = false) : setZero e = (e, Reply.bare .motion) := by
  simp [setZero, hrun, hvalue, hempty, hfree, h]

variable (hstable : e.st.zm.decisions.zeroBand = true)
include hstable

theorem setZero_of_set (h : e.st.zm.zeroState = .set) : setZero e = setZeroAgain e := by
  simp [setZero, hrun, hvalue, hempty, hfree, hstable, h]

theorem setZero_of_pending (h : e.st.zm.zeroState = .pending) : setZero e = setZeroFirst e := by
  simp [setZero, hrun, hvalue, hempty, hfree, hstable, h]

end

section
variable {e : Ev}

/-- The zero moved in ZERO_SET (R52, R53). -/
theorem setZeroAgain_of_within
    (h : zeroWithin e.st e.st.store.config.trackingRange e.st.zm.initial.get = true) : setZeroAgain e =
      (e.upd fun s => (s.setZm { s.zm with
          offset := zeroOffsets s s.zm.offset.get
          window := s.zm.window.map (WindowEntry.rebase fun d =>
            (zeroOffsets s s.zm.offset.get).get d - s.zm.offset.get d)
          halt := Bank.fill 4 false, trackCount := 0 }),
        Reply.okWith (.zeroSet (perActive e.st (zeroOffsets e.st e.st.zm.offset.get).get))) := if_pos h

theorem setZeroAgain_of_outside
    (h : ¬zeroWithin e.st e.st.store.config.trackingRange e.st.zm.initial.get = true) : setZeroAgain e =
      (e, { status := .range
            body := .zeroRange (perActive e.st (zeroMean e.st)) (perActive e.st e.st.zm.initial.get)
              e.st.store.config.trackingRange }) := if_neg h

theorem setZeroFirst_of_within (h : zeroWithin e.st e.st.store.config.initialRange (fun _ => 0) = true) :
    setZeroFirst e = (takeInitialZero e,
      Reply.okWith (.zeroSet (perActive e.st (zeroOffsets e.st fun _ => 0).get))) := if_pos h

theorem setZeroFirst_of_outside (h : ¬zeroWithin e.st e.st.store.config.initialRange (fun _ => 0) = true) :
    setZeroFirst e =
      (e, { status := .range
            body := .zeroRange (perActive e.st (zeroMean e.st)) (perActive e.st fun _ => 0)
              e.st.store.config.initialRange }) := if_neg h

end

theorem zeroWithin_iff_mem {s : State} {range : Nat} {centre : Deck → Int} : zeroWithin s range centre = true ↔
    ∀ d ∈ s.store.config.activeDecks, (zeroMean s d - centre d).natAbs ≤ range := by
  simp only [zeroWithin_iff, activeDecks_mem]

theorem zeroOffsets_get_mem (s : State) (other : Deck → Int) (d : Deck) : (zeroOffsets s other).get d =
    if d ∈ s.store.config.activeDecks then zeroMean s d else other d := by
  simp only [zeroOffsets_get, activeDecks_mem]

theorem exec_setZero (p : List Byte) (s : State) :
    exec (.setZero p) s = requestWith 0x98 (parseEmpty p) (fun _ => setZero) s := rfl

/-- Settles O32: the checks in their order, and by the zero state whether the zero means lie within the range. -/
theorem setZeroActs : Obligations.SetZeroActs := by
  intro s hready c mean rebased per
  simp only [exec_setZero]
  refine ⟨fun h => requestWith_refused parseEmpty_nil hready (setZero_of_notReady h),
    fun hrun hvalue h => requestWith_refused parseEmpty_nil hready (setZero_of_occupied hrun hvalue h),
    fun hrun hvalue hempty h => requestWith_refused parseEmpty_nil hready (setZero_of_held hrun hvalue hempty h),
    fun hrun hvalue hempty hfree => ⟨fun h => ?motion, fun hstable hset => ⟨fun hwithin => ?again, fun hout => ?range⟩,
      fun hstable hpending => ⟨fun hwithin => ?first, fun hout => ?firstRange⟩⟩⟩
  case motion => exact requestWith_refused parseEmpty_nil hready (setZero_of_motion hrun hvalue hempty hfree h)
  case again =>
    have hzero := (setZero_of_set (e := Ev.start (endFrame s)) hrun hvalue hempty hfree hstable hset).trans
      (setZeroAgain_of_within (zeroWithin_iff_mem.mpr hwithin))
    exact ⟨zeroOffsets s s.zm.offset.get, zeroOffsets_get_mem s _,
      requestWith_answered parseEmpty_nil hready hzero rfl rfl rfl rfl rfl⟩
  case range =>
    have hzero := (setZero_of_set (e := Ev.start (endFrame s)) hrun hvalue hempty hfree hstable hset).trans
      (setZeroAgain_of_outside (mt zeroWithin_iff_mem.mp hout))
    exact requestWith_refused parseEmpty_nil hready hzero
  case first =>
    have hmeans : ∀ d ∈ s.store.config.activeDecks, (zeroMean s d - 0).natAbs ≤ s.store.config.initialRange :=
      fun d hd => (Int.sub_zero (zeroMean s d)).symm ▸ hwithin d hd
    have hzero := (setZero_of_pending (e := Ev.start (endFrame s)) hrun hvalue hempty hfree hstable hpending).trans
      (setZeroFirst_of_within (zeroWithin_iff_mem.mpr hmeans))
    exact ⟨zeroOffsets s fun _ => 0, zeroOffsets_get_mem s _,
      requestWith_executed parseEmpty_nil hready hzero rfl rfl⟩
  case firstRange =>
    have hmeans : ¬∀ d ∈ s.store.config.activeDecks, (zeroMean s d - 0).natAbs ≤ s.store.config.initialRange :=
      fun hall => hout fun d hd => (congrArg Int.natAbs (Int.sub_zero (zeroMean s d))).symm.trans_le (hall d hd)
    have hzero := (setZero_of_pending (e := Ev.start (endFrame s)) hrun hvalue hempty hfree hstable hpending).trans
      (setZeroFirst_of_outside (mt zeroWithin_iff_mem.mp hmeans))
    exact requestWith_refused parseEmpty_nil hready hzero

end Sys2Proof.Machine

/-! PROOFS. The requests that read (R55, R62, R74, R78, R146, R148, R158). -/

namespace Sys2Proof.Machine

/-! ## Read Weight (R55) -/

section
variable {s : State}

theorem weightFields_none (h : s.zm.latest = none) :
    (weightFields s).outcome = .noSample ∧ (weightFields s).indicated = none ∧ (weightFields s).zone = none ∧
      (weightFields s).decks = [] ∧ (weightFields s).sampleNumber = none := by
  simp [weightFields, h, weightOutcome]

variable {l : LatestResult} (h : s.zm.latest = some l)
include h

theorem weightFields_sampleNumber : (weightFields s).sampleNumber = some l.sampleNumber := by simp [weightFields, h]

theorem weightFields_value {masses : List DeckMass} {total gross : Int} {zone : Zone}
    (hr : l.result = .value masses total gross zone) :
    (weightFields s).outcome = .value ∧ (weightFields s).zone = some zone ∧
      (weightFields s).decks = masses.map (DeckMass.weight l.eHg) ∧
      (weightFields s).indicated =
        (if zone = .underload ∨ zone = .overload then none
         else if zone = .centreZero then some 0 else some (gross / 10)) := by
  refine ⟨?_, ?_, ?_, ?_⟩
  · simp [weightFields, h, hr, weightOutcome]
  · simp [weightFields, h, hr, SampleResult.zone?]
  · simp [weightFields, h, hr, LatestResult.decks]
  · cases zone <;> simp [weightFields, h, hr, indicatedMass]

theorem weightFields_deckDown {decks : List DeckResult} (hr : l.result = .deckDown decks) :
    (weightFields s).outcome = .deckDown ∧ (weightFields s).indicated = none ∧ (weightFields s).zone = none ∧
      (weightFields s).decks = decks.map (DeckResult.weight l.eHg) := by
  simp [weightFields, h, hr, weightOutcome, indicatedMass, SampleResult.zone?, LatestResult.decks]

theorem weightFields_scaleNotRunning (hr : l.result = .scaleNotRunning) :
    (weightFields s).outcome = .scaleNotRunning ∧ (weightFields s).indicated = none ∧ (weightFields s).zone = none ∧
      (weightFields s).decks = [] := by
  simp [weightFields, h, hr, weightOutcome, indicatedMass, SampleResult.zone?, LatestResult.decks]

theorem weightFields_uncalibrated (hr : l.result = .uncalibrated) :
    (weightFields s).outcome = .uncalibrated ∧ (weightFields s).indicated = none ∧ (weightFields s).zone = none ∧
      (weightFields s).decks = [] := by
  simp [weightFields, h, hr, weightOutcome, indicatedMass, SampleResult.zone?, LatestResult.decks]

end

/-- A deck's entry, DOWN or in VALUE. -/
theorem DeckResult.weight_eq (e : Nat) (x : DeckResult) : x.weight e =
    match x with
    | .down d => (d, DeckWeight.down)
    | .value m => (m.deck, DeckWeight.value (roundTo e m.mass / 10) m.substituted) := by
  cases x <;> rfl

/-! ## Read Treadles (R62) -/

theorem lineFields_eq (s : State) (i : LineNo) : lineFields s i =
    { decoded := s.metro.valid && decide (i.val ≤ s.store.config.deckCount)
      levelA := (s.axle.lines.get i).levelA, levelB := (s.axle.lines.get i).levelB
      pairing := if s.metro.valid = true ∧ i.val ≤ s.store.config.deckCount then
        some (s.axle.lines.get i).pairing else none
      code := (s.axle.lines.get i).code } := by
  unfold lineFields State.decoded
  simp

/-! ## The metrology unit's readings (R148) -/

theorem readMetrologyStatus_reply (e : Ev) : readMetrologyStatus e = (e, Reply.okWith (.metrology
    { status := e.st.metro.status, valid := e.st.metro.valid, counter := e.st.store.eventCounter
      checksum := e.st.store.checksum, switchCal := e.st.metro.switchCal
      idle := match e.st.cap.slot with
        | .adjustment x => some x.idle
        | _ => none
      calibration := match e.st.cap.slot with
        | .adjustment x => x.calibration.map fun c => (c.kind, c.deck)
        | _ => none
      newest := e.st.store.audits.getLast?.map fun r => (r.number, r.passed, r.counter, r.due)
      nextSeq := e.st.store.nextSeq })) := by
  unfold readMetrologyStatus
  dsimp only
  cases e.st.cap.slot <;> rfl

section
variable {e : Ev}

theorem readConfiguration_staged {x : AdjustSession} (h : e.st.cap.slot = .adjustment x) : readConfiguration .staged e =
    (e, Reply.okWith (.stagedConfiguration x.staged (configChecksum x.staged))) := by
  simp only [readConfiguration, h]

theorem readConfiguration_of_no_session (h : ∀ x, e.st.cap.slot ≠ .adjustment x) :
    readConfiguration .staged e = (e, Reply.bare .notInSession) := by
  unfold readConfiguration
  dsimp only
  split
  · rename_i x hx
    exact absurd hx (h x)
  all_goals rfl

theorem readAuditTrail_reply (n : Nat) (e : Ev) : readAuditTrail n e = (e, Reply.okWith (.trail e.st.store.nextSeq
    ((e.st.store.trail.filter fun x => decide (n ≤ x.seq)).take 8)
    (decide (8 < (e.st.store.trail.filter fun x => decide (n ≤ x.seq)).length))
    (match e.st.store.trail.head? with
      | none => false
      | some x => decide (n < x.seq)))) := by
  unfold readAuditTrail
  dsimp only
  cases e.st.store.trail <;> rfl

/-! ## Read Audit Record (R158) -/

theorem readAuditRecord_of_session {x : AuditSession} (h : e.st.cap.slot = .audit x) : readAuditRecord .session e =
    (e, Reply.okWith (.auditSession x.number x.idle x.steps (x.flight.map fun f => (f.kind, f.target, f.load, f.count))
      e.st.store.auditCounter e.st.store.audits.length)) := by
  simp only [readAuditRecord, h, Slot.auditSession]

theorem readAuditRecord_of_no_session (h : ∀ x, e.st.cap.slot ≠ .audit x) : readAuditRecord .session e =
    (e, { status := .notInSession, body := .auditCounts e.st.store.auditCounter e.st.store.audits.length }) := by
  have hnone : e.st.cap.slot.auditSession = none := by
    cases hs : e.st.cap.slot with
    | audit x => exact absurd hs (h x)
    | free => rfl
    | capture op => rfl
    | adjustment x => rfl
  simp only [readAuditRecord, hnone, auditRefusal]

end

theorem parseConfigSelector_stored {p : List Byte} (h : parseNat 1 p = some 0) : parseConfigSelector p = some .stored := by
  simp only [parseConfigSelector, h]

theorem parseConfigSelector_staged {p : List Byte} (h : parseNat 1 p = some 1) : parseConfigSelector p = some .staged := by
  simp only [parseConfigSelector, h]

/-! ## The rows -/

section
variable (p : List Byte) (s : State)

theorem exec_readWeight : exec (.readWeight p) s = requestWith 0x99 (parseEmpty p) (fun _ => readWeight) s := rfl
theorem exec_readTreadles : exec (.readTreadles p) s = requestWith 0xA1 (parseEmpty p) (fun _ => readTreadles) s := rfl
theorem exec_readAxleMap : exec (.readAxleMap p) s = requestWith 0xA2 (parseEmpty p) (fun _ => readAxleMap) s := rfl
theorem exec_readSiteTables :
    exec (.readSiteTables p) s = requestWith 0xA5 (parseEmpty p) (fun _ => readSiteTables) s := rfl
theorem exec_readMetrologyStatus :
    exec (.readMetrologyStatus p) s = requestWith 0xD7 (parseEmpty p) (fun _ => readMetrologyStatus) s := rfl
theorem exec_readConfiguration :
    exec (.readConfiguration p) s = requestWith 0xD8 (parseConfigSelector p) readConfiguration s := rfl
theorem exec_readAuditTrail : exec (.readAuditTrail p) s = requestWith 0xD9 (parseNat 4 p) readAuditTrail s := rfl
theorem exec_readAuditRecord :
    exec (.readAuditRecord p) s = requestWith 0xE4 (parseAuditSelector p) readAuditRecord s := rfl

end

/-- Read Weight answers its fields and changes nothing. -/
theorem exec_readWeight_of_ready {s : State} (h : s.ready) :
    exec (.readWeight []) s = .next (answered 0x99 { status := .ok, body := .weight (weightFields s) } [] s) := by
  rw [exec_readWeight]
  exact requestWith_refused parseEmpty_nil h rfl

/-- Settles O34: each reading by the equation of its reply. -/
theorem readingsAnswered : Obligations.ReadingsAnswered := by
  refine ⟨fun s hready => ⟨⟨weightFields s, exec_readWeight_of_ready hready, rfl, rfl, rfl, rfl, rfl, rfl, rfl,
      weightFields_none, fun l hl => ?weight⟩, ⟨Bank.ofFn (lineFields s), fun i => ?line, ?treadles⟩, ?map, ?site⟩,
    fun s hready => ⟨?status, fun p hp => ?stored, fun p hp => ⟨fun sess hslot => ?staged, fun hslot => ?unstaged⟩,
      fun p n hp => ?trail, fun p sel hp => ?record⟩⟩
  case weight =>
    intro weighed
    refine ⟨weightFields_sampleNumber hl, fun masses total gross zone hr => weightFields_value hl hr,
      fun decks hr => ?_, weightFields_scaleNotRunning hl, weightFields_uncalibrated hl⟩
    obtain ⟨houtcome, hindicated, hzone, hdecks⟩ := weightFields_deckDown hl hr
    exact ⟨houtcome, hindicated, hzone, hdecks.trans (List.map_congr_left fun x _ => x.weight_eq l.eHg)⟩
  case line => rw [Bank.get_ofFn, lineFields_eq]
  case treadles =>
    rw [exec_readTreadles]
    exact requestWith_answered parseEmpty_nil hready rfl rfl rfl rfl rfl rfl
  case map =>
    rw [exec_readAxleMap]
    exact requestWith_refused parseEmpty_nil hready rfl
  case site =>
    rw [exec_readSiteTables]
    exact requestWith_refused parseEmpty_nil hready rfl
  case status =>
    rw [exec_readMetrologyStatus]
    exact requestWith_refused parseEmpty_nil hready (readMetrologyStatus_reply _)
  case stored =>
    rw [exec_readConfiguration]
    exact requestWith_refused (parseConfigSelector_stored hp) hready rfl
  case staged =>
    rw [exec_readConfiguration]
    exact requestWith_refused (parseConfigSelector_staged hp) hready (readConfiguration_staged hslot)
  case unstaged =>
    rw [exec_readConfiguration]
    exact requestWith_refused (parseConfigSelector_staged hp) hready (readConfiguration_of_no_session hslot)
  case trail =>
    intro found
    rw [exec_readAuditTrail]
    exact requestWith_refused hp hready (readAuditTrail_reply n _)
  case record =>
    intro found answer counts
    have hanswer : ∀ r, readAuditRecord sel (Ev.start (endFrame s)) = (Ev.start (endFrame s), r) → answer r :=
      fun r hr => by
        change exec (.readAuditRecord p) s = _
        rw [exec_readAuditRecord]
        exact requestWith_refused hp hready hr
    refine ⟨fun r hr => ?_, fun hsel hnone => ?_, fun hsel hslot => ?_, fun hsel x hslot => ?_⟩
    · refine hanswer _ ?_
      cases sel with
      | number n => exact congrArg (fun x => (Ev.start (endFrame s), auditAnswer (endFrame s) x)) hr
      | newest => exact congrArg (fun x => (Ev.start (endFrame s), auditAnswer (endFrame s) x)) hr
      | session => exact absurd hr (Option.some_ne_none r).symm
    · refine hanswer _ ?_
      cases sel with
      | number n => exact congrArg (fun x => (Ev.start (endFrame s), auditAnswer (endFrame s) x)) hnone
      | newest => exact congrArg (fun x => (Ev.start (endFrame s), auditAnswer (endFrame s) x)) hnone
      | session => exact absurd rfl hsel
    · subst hsel
      exact hanswer _ (readAuditRecord_of_no_session hslot)
    · subst hsel
      exact hanswer _ (readAuditRecord_of_session hslot)

end Sys2Proof.Machine

/-! PROOFS. The site settings (R57, R76, R77, R113, R132). -/

namespace Sys2Proof.Machine

/-! ## The requests through the settings area -/

section
variable {α : Type} {p : Option α} {x : α} {k : Byte} {s : State} {g : α → Ev → Ev × Reply} {ok : Bool} {f : Site → Site}

/-- A setting that passes its checks is written whole, or, when the settings-area write fails, not at all (R113). -/
theorem requestWith_written (hp : p = some x) (hready : s.ready)
    (hg : g x (Ev.start (endFrame s)) = settingsWrite ok (fun t => t.setSite (f t.site)) (Ev.start (endFrame s))) :
    requestWith k p g s = .next (
      if ok = false then answered k { status := .storeFault, body := .none } [] s
      else answered k { status := .ok, body := .none } [] (s.setSite (f s.site))) := by
  cases ok with
  | false => exact requestWith_refused hp hready hg
  | true =>
    exact requestWith_answered hp hready hg (t := s.setSite (f s.site)) rfl rfl rfl rfl rfl

/-- A setting is checked against its ranges, then written (R57, R76, R132). -/
theorem requestWith_checked {inRange : Bool} (hp : p = some x) (hready : s.ready)
    (hg : ∀ e : Ev, g x e =
      if inRange then settingsWrite ok (fun t => t.setSite (f t.site)) e else (e, Reply.bare .badRequest)) :
    requestWith k p g s = .next (
      if ¬inRange = true then answered k { status := .badRequest, body := .none } [] s
      else if ok = false then answered k { status := .storeFault, body := .none } [] s
      else answered k { status := .ok, body := .none } [] (s.setSite (f s.site))) := by
  by_cases hrange : inRange = true
  · rw [if_neg (not_not_intro hrange)]
    exact requestWith_written hp hready ((hg _).trans (if_pos hrange))
  · rw [if_pos hrange]
    exact requestWith_refused hp hready ((hg _).trans (if_neg hrange))

end

theorem TreadleSettings.inRange_iff {x : TreadleSettings} : x.inRange = true ↔
    100 ≤ x.separation ∧ x.separation ≤ 500 ∧ 2 ≤ x.filterTime ∧ x.filterTime ≤ 30 ∧ 180 ≤ x.groupGap ∧
      x.groupGap ≤ 300 := decide_eq_true_iff

theorem TicketSettings.inRange_iff {x : TicketSettings} : x.inRange = true ↔
    1 ≤ x.watermark ∧ x.watermark ≤ 32 ∧ 1 ≤ x.tareValidity ∧ x.tareValidity ≤ 365 ∧ 1 ≤ x.staleness ∧
      x.staleness ≤ 720 := decide_eq_true_iff

theorem GroupLimits.not_inRange_iff {x : GroupLimits} : ¬x.inRange = true ↔
    ∃ y ∈ [x.steerSingle, x.steerTwin, x.single, x.tandem, x.tridem, x.quad], y < 1000 ∨ 60000 < y := by
  unfold GroupLimits.inRange
  simp only [List.all_eq_true, decide_eq_true_eq, not_forall, exists_prop]
  refine exists_congr fun y => and_congr_right fun _ => ?_
  omega

/-! ## A class (R77) -/

theorem classOf_of_lt {n : Nat} (i : Fin 32) (h : n = i.val + 1) : classOf n = some i := by
  subst h
  simp [classOf]

theorem ClassWrite.entry_none {x : ClassWrite} (h : x.cls = 0 ∨ 32 < x.cls ∨ x.grossLimit < 1000 ∨ 250000 < x.grossLimit ∨
    x.maxAxles < 2 ∨ 24 < x.maxAxles ∨ (x.profile ≠ 1 ∧ x.profile ≠ 2)) : x.entry = none := by
  unfold ClassWrite.entry
  split
  · rename_i i k hclass hprofile
    have hcls : 1 ≤ x.cls ∧ x.cls ≤ 32 := by
      unfold classOf at hclass
      split_ifs at hclass
      omega
    have hprof : x.profile = 1 ∨ x.profile = 2 := by
      unfold profileOf at hprofile
      split at hprofile
      · exact Or.inl ‹_›
      · exact Or.inr ‹_›
      · cases hprofile
    exact if_neg (by omega)
  · rfl

theorem ClassWrite.entry_some {x : ClassWrite} {i : Fin 32} {k : ProfileNo} (hcls : x.cls = i.val + 1)
    (hgross : 1000 ≤ x.grossLimit ∧ x.grossLimit ≤ 250000) (haxles : 2 ≤ x.maxAxles ∧ x.maxAxles ≤ 24)
    (hprofile : x.profile = 1 ∧ k = .one ∨ x.profile = 2 ∧ k = .two) : x.entry =
      some (i, { inUse := x.inUse, grossLimit := x.grossLimit, maxAxles := x.maxAxles, profile := k }) := by
  have hk : profileOf x.profile = some k := by
    obtain ⟨hone, rfl⟩ | ⟨htwo, rfl⟩ := hprofile
    · rw [hone]; rfl
    · rw [htwo]; rfl
  simp [ClassWrite.entry, classOf_of_lt i hcls, hk, hgross, haxles]

theorem activeClass_eq_some_iff {sl : Slot} {n : Nat} :
    activeClass sl = some n ↔ ∃ op, sl = .capture op ∧ op.request.cls = n := by
  cases sl <;> simp [activeClass]

section
variable {x : ClassWrite} {ok : Bool} {e : Ev}

theorem writeClass_of_none (h : x.entry = none) : writeClass ok x e = (e, Reply.bare .badRequest) := by
  simp only [writeClass, h]

variable {i : Fin 32} {entry : ClassEntry} (h : x.entry = some (i, entry))
include h

theorem writeClass_of_held (hheld : entry.inUse = false ∧ activeClass e.st.cap.slot = some x.cls) :
    writeClass ok x e = (e, Reply.bare .busy) := by
  simp only [writeClass, h]
  exact if_pos hheld

theorem writeClass_of_free (hfree : ¬(entry.inUse = false ∧ activeClass e.st.cap.slot = some x.cls)) :
    writeClass ok x e =
      settingsWrite ok (fun s => s.setSite { s.site with classes := s.site.classes.set i entry }) e := by
  simp only [writeClass, h]
  exact if_neg hfree

end

/-! ## The obligation -/

theorem exec_writeTreadleSettings (p : List Byte) (ok : Bool) (s : State) : exec (.writeTreadleSettings p ok) s =
    requestWith 0xA0 (parseTreadle p) (writeTreadleSettings ok) s := rfl

theorem exec_writeGroupLimits (p : List Byte) (ok : Bool) (s : State) : exec (.writeGroupLimits p ok) s =
    requestWith 0xA3 (parseLimits p) (writeGroupLimits ok) s := rfl

theorem exec_writeClass (p : List Byte) (ok : Bool) (s : State) : exec (.writeClass p ok) s =
    requestWith 0xA4 (parseClass p) (writeClass ok) s := rfl

theorem exec_writeTicketSettings (p : List Byte) (ok : Bool) (s : State) : exec (.writeTicketSettings p ok) s =
    requestWith 0xC8 (parseTicketSettings p) (writeTicketSettings ok) s := rfl

/-- Settles O40: every setting is checked, then written whole or not at all; a class of the active operation is not
set out of use. -/
theorem siteSettingsWritten : Obligations.SiteSettingsWritten := by
  intro p ok s hready
  simp only [exec_writeTreadleSettings, exec_writeGroupLimits, exec_writeClass, exec_writeTicketSettings]
  refine ⟨fun x hp => ?treadle, fun x hp => ?limits, fun x hp => ⟨fun hbad => ?badClass, ?cls⟩, fun x hp => ?ticket⟩
  case treadle =>
    simp only [← TreadleSettings.inRange_iff]
    exact requestWith_checked (f := fun site => { site with treadle := x }) hp hready fun _ => rfl
  case limits =>
    simp only [← GroupLimits.not_inRange_iff]
    exact requestWith_checked (f := fun site => { site with limits := x }) hp hready fun _ => rfl
  case ticket =>
    simp only [← TicketSettings.inRange_iff]
    exact requestWith_checked (f := fun site => { site with ticket := x }) hp hready fun _ => rfl
  case badClass => exact requestWith_refused hp hready (writeClass_of_none (ClassWrite.entry_none hbad))
  case cls =>
    intro i k hcls hlow hhigh htwo htop hprofile
    have hentry := ClassWrite.entry_some hcls ⟨hlow, hhigh⟩ ⟨htwo, htop⟩ hprofile
    have hactive := activeClass_eq_some_iff (sl := (Ev.start (endFrame s)).st.cap.slot) (n := x.cls)
    refine ⟨fun ⟨hclass, hunused⟩ => ?held, fun hfree => ?free⟩
    case held => exact requestWith_refused hp hready (writeClass_of_held hentry ⟨hunused, hactive.mpr hclass⟩)
    case free =>
      exact requestWith_written (f := fun site => { site with classes := site.classes.set i _ }) hp hready
        (writeClass_of_free hentry fun ⟨hunused, hclass⟩ => hfree ⟨hactive.mp hclass, hunused⟩)

end Sys2Proof.Machine

/-! PROOFS. The events that form occupancy anew (R73, R109), and the rows of a pairing (R59, R60). -/

namespace Sys2Proof.Machine

/-! ## An event that ends in occupancy formed anew (R73) -/

/-- What occupancy formed anew makes of an event that began in `s` and stood at `e` ahead of it: the map of `e` with its
occupancy, the notices of `e` and OCCUPANCY, and the exit lamp where nothing completes or, `quiet`, nothing is reported
(R73, R109). -/
structure OccupancyFormed (s : State) (e : Ev) (quiet : Prop) (t : State) : Prop where
  axle : t.axle = { e.st.axle with occupancy := occupancyOf e.st.axle e.st.zm.latest e.st.store.config.eHg }
  zm : t.zm = e.st.zm
  acq : t.acq = e.st.acq
  site : t.site = e.st.site
  cal : t.cal = e.st.cal
  raised : s.raisedFirst (e.notes ++ occupancyNotes s t) (9 ≤ ·.code) t
  exit : (quiet ∧ occupancyNotes s t = [] ∨ s.completesNone t) → t.cap.exit = exitByMap s t

/-- What an event and its statements say of the axle map alone is not changed by the end of the event. -/
theorem occupancyNotes_happened (s u : State) (ns : List Notice) :
    occupancyNotes s (happened ns s u) = occupancyNotes s u := by
  simp [occupancyNotes]

theorem exitByMap_happened (s u : State) (ns : List Notice) : exitByMap s (happened ns s u) = exitByMap s u := by
  simp [exitByMap]

theorem exit_happened (s u : State) (ns : List Notice) : (happened ns s u).cap.exit = u.cap.exit := by
  simp [Capture.exit]

theorem completesNone_happened (s u : State) (ns : List Notice) :
    s.completesNone (happened ns s u) ↔ s.completesNone u := by
  simp [State.completesNone]

/-- An event under supply that forms occupancy anew behind `e`. -/
theorem event_occupancyFormed {f : Ev → Ev} {s : State} {e : Ev} {ok crossing : Bool} {loss : Option LossCause}
    (hsupply : s.mainSupply = true) (hf : f (Ev.start s) = formOccupancy ok s.axle crossing loss e)
    (hlink : e.st.link = s.link) (hexit : e.st.cap.exit = s.cap.exit)
    (hslot : ∀ op, e.st.cap.slot = .capture op → s.cap.slot = .capture op) :
    ∃ t, event f s = .next t ∧ OccupancyFormed s e (crossing = false ∧ loss = none) t := by
  rw [event_happened hsupply, hf]
  set u := formOccupancy ok s.axle crossing loss e with hu
  have hkeep := formOccupancy_keeps ok s.axle crossing loss e
  rw [← hu] at hkeep
  obtain ⟨-, -, hulink, huacq, huzm, husite, -, hucal, -⟩ := hkeep
  refine ⟨_, rfl, ?_⟩
  constructor
  case axle => exact (happened_keeps _ _ _).2.2.2.2.1.trans (formOccupancy_axle ok s.axle crossing loss e)
  case zm => simp [huzm]
  case acq => simp [huacq]
  case site => simp [husite]
  case cal => simp [hucal]
  case raised =>
    obtain ⟨rest, hrest, hnotes⟩ := formOccupancy_notes ok s crossing loss e
    rw [occupancyNotes_happened]
    exact ⟨rest, hrest, u.st, hulink.trans hlink, congrArg (happened · s u.st) hnotes⟩
  case exit =>
    intro h
    rw [occupancyNotes_happened, completesNone_happened] at h
    rw [exitByMap_happened, exit_happened]
    exact formOccupancy_exit ok crossing loss hexit hslot (h.imp_left fun ⟨⟨hc, hl⟩, hn⟩ => ⟨hc, hl, hn⟩)

/-- An event under supply that only replaces the state, the lamps and their inputs as they were. -/
theorem event_plain {f : Ev → Ev} {s u : State} (hsupply : s.mainSupply = true)
    (hf : f (Ev.start s) = { Ev.start s with st := u }) (hlamp : u.lampInputs = s.lampInputs)
    (hentry : u.cap.entryLamp = s.cap.entryLamp) (hexit : u.cap.exitLamp = s.cap.exitLamp) :
    event f s = .next (notified [] u) := by
  rw [event_happened hsupply, hf]
  exact congrArg _ (happened_plain hlamp hentry hexit)

/-! ## The row of a loss (R68) -/

theorem AxleMap.lose_record (cause : LossCause) (m : AxleMap) :
    (m.lose cause).certain = false ∧ (m.lose cause).cause = cause ∧ (m.lose cause).entered = 0 ∧
      (m.lose cause).exitedCount = 0 ∧ (m.lose cause).exited = [] ∧ (m.lose cause).entryComplete = false ∧
      (m.lose cause).reversal = false ∧ (m.lose cause).hiddenCount = 0 ∧ (m.lose cause).recoveryCount = 0 ∧
      (m.lose cause).lines = m.lines ∧ ∀ d, (m.lose cause).decks.get d = [] :=
  ⟨rfl, rfl, rfl, rfl, rfl, rfl, rfl, rfl, rfl, rfl, fun _ => Bank.get_fill ..⟩

section
variable {e : Ev} {cause : LossCause} {line : Option LineNo}

theorem loseCertainty_of_certain (h : e.st.axle.certain = true) : loseCertainty cause line e =
    (e.upd fun s => s.setAxle (s.axle.lose cause)).note (.axleInconsistent cause line) := if_pos h

theorem loseCertainty_of_uncertain (h : e.st.axle.certain = false) : loseCertainty cause line e =
    e.upd fun s => s.setAxle { s.axle with recoveryCount := 0 } := if_neg (by simp [h])

/-- A loss of certainty leaves the lines and, while the map is UNCERTAIN, the lists and the cause of its loss
(R68, log 40). -/
theorem loseCertainty_axle : (loseCertainty cause line e).st.axle =
    if e.st.axle.certain = true then e.st.axle.lose cause else { e.st.axle with recoveryCount := 0 } := by
  unfold loseCertainty
  split_ifs <;> rfl

end

/-! ## The obligation -/

section
variable {line : LineNo} {t0 : Nat} {s : State}

theorem exec_pairingGuard : exec (.pairingGuard line) s = event (pairingGuard line) s := rfl

theorem exec_singleElementFault : exec (.singleElementFault line) s = event (singleElementFault line) s := rfl

/-- A line reaches GUARD (R59). -/
theorem exec_pairingGuard_of_guarded {p : Pairing} {at' : Nat} (hsupply : s.mainSupply = true)
    (h : guarded (s.axle.lines.get line).pairing = some (p, at')) : exec (.pairingGuard line) s =
      .next (notified [] (s.setAxle { s.axle with
        lines := s.axle.lines.set line { s.axle.lines.get line with pairing := p }
        timeBase := max at' s.axle.timeBase })) := by
  refine event_plain hsupply ?_ rfl rfl rfl
  simp only [pairingGuard, Ev.start, h]
  rfl

/-- The line and the time base behind a guarded pairing that ended without a partner (R60). -/
def faultedLine (line : LineNo) (t0 : Nat) (m : AxleMap) : AxleMap :=
  { m.setLine line { m.lines.get line with pairing := .idle, code := .singleElement } with
    timeBase := max (t0 + 1500) m.timeBase }

/-- The event ahead of occupancy where a guarded pairing ends without a partner (R60). -/
def faultedEvent (line : LineNo) (el : Element) (t0 : Nat) (s : State) : Ev :=
  loseCertainty .singleElement (some line)
    (((Ev.start s).upd fun s => s.setAxle (faultedLine line t0 s.axle)).note (.treadleFault line (.singleElement el)))

theorem singleElementFault_of_guard {el : Element}
    (h : guardOpener (s.axle.lines.get line).pairing = some (el, t0)) : singleElementFault line (Ev.start s) =
      formOccupancy true s.axle false (lossOf s.axle (some .singleElement)) (faultedEvent line el t0 s) := by
  simp only [singleElementFault, Ev.start, h]
  rfl

/-- The row of a guarded pairing that ends without a partner (R60, R68). -/
theorem exec_singleElementFault_of_guard {el : Element} (hsupply : s.mainSupply = true)
    (h : guardOpener (s.axle.lines.get line).pairing = some (el, t0)) :
    ∃ t, exec (.singleElementFault line) s = .next t ∧
      t.axle.lines.get line = { s.axle.lines.get line with pairing := .idle, code := .singleElement } ∧
      s.raisedFirst
        ([.treadleFault line (.singleElement el)] ++
          (if s.axle.certain = true then [.axleInconsistent .singleElement (some line)] else []) ++
          occupancyNotes s t) (9 ≤ ·.code) t ∧
      (occupancyNotes s t = [] ∨ s.completesNone t → t.cap.exit = exitByMap s t) ∧
      (∀ i, i ≠ line → t.axle.lines.get i = s.axle.lines.get i) ∧ t.zm = s.zm ∧ t.acq = s.acq ∧ t.site = s.site ∧
      (s.axle.certain = true → t.axle.certain = false ∧ t.axle.cause = .singleElement ∧ t.axle.entered = 0 ∧
        t.axle.exitedCount = 0 ∧ t.axle.exited = [] ∧ t.axle.entryComplete = false ∧ t.axle.reversal = false ∧
        t.axle.hiddenCount = 0 ∧ t.axle.recoveryCount = 0 ∧ (∀ d, t.axle.decks.get d = [])) ∧
      (s.axle.certain = false → t.axle.certain = false ∧ t.axle.cause = s.axle.cause ∧ t.axle.recoveryCount = 0 ∧
        t.axle.decks = s.axle.decks ∧ t.axle.entered = s.axle.entered) := by
  obtain ⟨t, hexec, hform⟩ := event_occupancyFormed (e := faultedEvent line el t0 s) hsupply
    (singleElementFault_of_guard h) (by simp [faultedEvent]) (by simp [faultedEvent]) (by simp [faultedEvent])
  have haxle : (faultedEvent line el t0 s).st.axle =
      if s.axle.certain = true then (faultedLine line t0 s.axle).lose .singleElement
      else { faultedLine line t0 s.axle with recoveryCount := 0 } := loseCertainty_axle
  have hlines : t.axle.lines =
      s.axle.lines.set line { s.axle.lines.get line with pairing := .idle, code := .singleElement } := by
    rw [hform.axle, haxle]
    split_ifs <;> rfl
  refine ⟨t, hexec, ?line, ?notes, ?exit, ?others, ?zm, ?acq, ?site, fun hcertain => ?certain, fun huncertain => ?uncertain⟩
  case line => rw [hlines, Bank.get_set_self]
  case notes =>
    have hnotes : (faultedEvent line el t0 s).notes = [.treadleFault line (.singleElement el)] ++
        if s.axle.certain = true then [.axleInconsistent .singleElement (some line)] else [] := loseCertainty_notes ..
    exact hnotes ▸ hform.raised
  case exit =>
    rintro (hquiet | hnone)
    · refine hform.exit (Or.inl ⟨⟨rfl, ?_⟩, hquiet⟩)
      by_cases hcertain : s.axle.certain = true
      · have hlost : t.axle.certain = false := by rw [hform.axle, haxle, if_pos hcertain]; rfl
        simp [occupancyNotes, hlost, hcertain] at hquiet
      · exact if_neg hcertain
    · exact hform.exit (Or.inr hnone)
  case others =>
    intro i hi
    rw [hlines, Bank.get_set, if_neg (Ne.symm hi)]
  case zm => exact hform.zm.trans (by simp [faultedEvent])
  case acq => exact hform.acq.trans (by simp [faultedEvent])
  case site => exact hform.site.trans (by simp [faultedEvent])
  case certain =>
    rw [hform.axle, haxle, if_pos hcertain]
    obtain ⟨hc, hcause, hent, hexc, hex, hcomp, hrev, hhid, hrec, -, hdecks⟩ :=
      AxleMap.lose_record .singleElement (faultedLine line t0 s.axle)
    exact ⟨hc, hcause, hent, hexc, hex, hcomp, hrev, hhid, hrec, hdecks⟩
  case uncertain =>
    rw [hform.axle, haxle, if_neg (by simp [huncertain])]
    exact ⟨huncertain, rfl, rfl, rfl, rfl⟩

end

/-- Settles O37: the guard changes the line and the time base only; the end of a guarded pairing is its fault code, the
loss and occupancy formed anew. -/
theorem pairingRows : Obligations.PairingRows := by
  intro line t0 s hsupply l guarded
  refine ⟨fun h => ?openA, fun h => ?openB, fun h => ?fault⟩
  case openA => exact exec_pairingGuard_of_guarded hsupply (congrArg Machine.guarded h)
  case openB => exact exec_pairingGuard_of_guarded hsupply (congrArg Machine.guarded h)
  case fault =>
    have hopener : guardOpener l.pairing = some (if l.pairing = .guardA t0 then .a else .b, t0) := by
      obtain h | h := h <;> rw [h]
      · simp [guardOpener]
      · simp [guardOpener]
    exact exec_singleElementFault_of_guard hsupply hopener

end Sys2Proof.Machine

/-! PROOFS. The loops (R69, R70) and what occupancy is (R73). -/

namespace Sys2Proof.Machine

namespace AxleMap

variable (m : AxleMap)

theorem loopsClear_iff : m.loopsClear = true ↔ m.loopEntry = false ∧ m.loopExit = false := by
  simp [loopsClear]

/-- The vehicle record is cleared behind a CERTAIN and empty map between clear loops (R70). -/
theorem clearIfGone_of_gone (hcertain : m.certain = true) (hempty : m.isEmpty = true) (hclear : m.loopsClear = true) :
    m.clearIfGone = m.clearVehicle := by
  simp [clearIfGone, hcertain, hempty, hclear]

theorem clearIfGone_of_not_gone (h : ¬(m.certain = true ∧ m.isEmpty = true ∧ m.loopsClear = true)) :
    m.clearIfGone = m := if_neg (by simpa [and_assoc] using h)

/-- The vehicle record is all that a clearing changes. -/
theorem clearIfGone_keeps : m.clearIfGone.decks = m.decks ∧ m.clearIfGone.certain = m.certain ∧
    m.clearIfGone.lines = m.lines ∧ m.clearIfGone.loopEntry = m.loopEntry ∧ m.clearIfGone.loopExit = m.loopExit ∧
    m.clearIfGone.occupancy = m.occupancy := by
  unfold clearIfGone
  split_ifs <;> exact ⟨rfl, rfl, rfl, rfl, rfl, rfl⟩

/-- The level of one loop set. -/
def setLoop (lp : Loop) (active : Bool) (m : AxleMap) : AxleMap :=
  { m with
    loopEntry := if lp = .entry then active else m.loopEntry
    loopExit := if lp = .exit then active else m.loopExit }

/-- The level of a loop set, with entry-complete behind an entered vehicle (R69). -/
def passLoop (lp : Loop) (active : Bool) (m : AxleMap) : AxleMap :=
  if lp = .entry ∧ active = false ∧ m.certain = true ∧ 1 ≤ m.entered then
    { m.setLoop lp active with entryComplete := true }
  else m.setLoop lp active

/-- A change of a loop's level (R69, R70). -/
theorem loopChange_eq (lp : Loop) (active : Bool) : m.loopChange lp active =
    if active = true then m.passLoop lp active else (m.passLoop lp active).clearIfGone := by
  cases lp <;> rfl

variable (lp : Loop) (active : Bool)

/-- Of the map a change of a loop's level changes that level, entry-complete and the vehicle record only. -/
theorem passLoop_keeps : (m.passLoop lp active).decks = m.decks ∧ (m.passLoop lp active).certain = m.certain ∧
    (m.passLoop lp active).lines = m.lines ∧
    (m.passLoop lp active).loopEntry = (if lp = .entry then active else m.loopEntry) ∧
    (m.passLoop lp active).loopExit = (if lp = .exit then active else m.loopExit) ∧
    (m.passLoop lp active).occupancy = m.occupancy := by
  by_cases h : lp = .entry ∧ active = false ∧ m.certain = true ∧ 1 ≤ m.entered
  · rw [passLoop, if_pos h]
    exact ⟨rfl, rfl, rfl, rfl, rfl, rfl⟩
  · rw [passLoop, if_neg h]
    exact ⟨rfl, rfl, rfl, rfl, rfl, rfl⟩

theorem passLoop_record : (m.passLoop lp active).entered = m.entered ∧
    (m.passLoop lp active).exitedCount = m.exitedCount ∧ (m.passLoop lp active).exited = m.exited ∧
    (m.passLoop lp active).reversal = m.reversal ∧
    ((m.passLoop lp active).entryComplete = true ↔
      m.entryComplete = true ∨ lp = .entry ∧ active = false ∧ m.certain = true ∧ 1 ≤ m.entered) := by
  unfold passLoop
  split_ifs with h
  · exact ⟨rfl, rfl, rfl, rfl, iff_of_true rfl (Or.inr h)⟩
  · exact ⟨rfl, rfl, rfl, rfl, (or_iff_left h).symm⟩

theorem loopChange_keeps : (m.loopChange lp active).decks = m.decks ∧ (m.loopChange lp active).certain = m.certain ∧
    (m.loopChange lp active).lines = m.lines ∧
    (m.loopChange lp active).loopEntry = (if lp = .entry then active else m.loopEntry) ∧
    (m.loopChange lp active).loopExit = (if lp = .exit then active else m.loopExit) ∧
    (m.loopChange lp active).occupancy = m.occupancy := by
  have hpass := m.passLoop_keeps lp active
  have hclear := (m.passLoop lp active).clearIfGone_keeps
  rw [loopChange_eq]
  by_cases hactive : active = true
  · rw [if_pos hactive]
    exact hpass
  · rw [if_neg hactive]
    obtain ⟨hdecks, hcertain, hlines, hentry, hexit, hocc⟩ := hpass
    obtain ⟨hdecks', hcertain', hlines', hentry', hexit', hocc'⟩ := hclear
    exact ⟨hdecks'.trans hdecks, hcertain'.trans hcertain, hlines'.trans hlines, hentry'.trans hentry,
      hexit'.trans hexit, hocc'.trans hocc⟩

/-- A loop goes CLEAR behind a CERTAIN and empty map, and both loops are then clear. -/
def LoopClears (lp : Loop) (active : Bool) (m : AxleMap) : Prop :=
  active = false ∧ m.certain = true ∧ (∀ d, m.decks.get d = []) ∧
    (m.loopChange lp active).loopEntry = false ∧ (m.loopChange lp active).loopExit = false

theorem loopChange_of_clears {m : AxleMap} {lp : Loop} {active : Bool} (h : m.LoopClears lp active) :
    m.loopChange lp active = (m.passLoop lp active).clearVehicle := by
  obtain ⟨hactive, hcertain, hempty, hentry, hexit⟩ := h
  obtain ⟨hdecks, hcertain', -, hentry', hexit', -⟩ := m.passLoop_keeps lp active
  obtain ⟨-, -, -, hentry'', hexit'', -⟩ := m.loopChange_keeps lp active
  rw [loopChange_eq, if_neg (by simp [hactive])]
  refine clearIfGone_of_gone _ (hcertain'.trans hcertain) ?_ ?_
  · rw [isEmpty_iff, hdecks]
    exact hempty
  · rw [loopsClear_iff, hentry', hexit', ← hentry'', ← hexit'']
    exact ⟨hentry, hexit⟩

theorem loopChange_of_not_clears {m : AxleMap} {lp : Loop} {active : Bool} (h : ¬m.LoopClears lp active) :
    m.loopChange lp active = m.passLoop lp active := by
  rw [loopChange_eq]
  split_ifs with hactive
  · rfl
  · refine clearIfGone_of_not_gone _ fun ⟨hcertain, hempty, hclear⟩ => h ?_
    obtain ⟨hdecks, hcertain', -, hentry', hexit', -⟩ := m.passLoop_keeps lp active
    obtain ⟨-, -, -, hentry'', hexit'', -⟩ := m.loopChange_keeps lp active
    rw [isEmpty_iff, hdecks] at hempty
    rw [loopsClear_iff, hentry', hexit', ← hentry'', ← hexit''] at hclear
    exact ⟨Bool.eq_false_of_not_eq_true hactive, hcertain'.symm.trans hcertain, hempty, hclear⟩

end AxleMap

/-! ## Occupancy (R73) -/

section
variable {m : AxleMap} {latest : Option LatestResult} {eHg : Nat}

theorem occupancyOf_of_certain (h : m.certain = true) : occupancyOf m latest eHg =
    if m.isEmpty = true ∧ m.loopsClear = true then .empty
    else if ¬m.isEmpty = true ∧ m.loopsClear = true ∧ m.entryComplete = true then .whole
    else .part := by
  simp [occupancyOf, h, and_assoc]

theorem occupancyOf_of_active (h : m.certain = false) (hactive : ¬m.loopsClear = true) :
    occupancyOf m latest eHg = .part := by
  simp [occupancyOf, h, hactive]

theorem occupancyOf_of_value (h : m.certain = false) (hclear : m.loopsClear = true) {l : LatestResult}
    {decks : List DeckMass} {total gross : Int} {zone : Zone} (hl : latest = some l)
    (hr : l.result = .value decks total gross zone) :
    occupancyOf m latest eHg = if 20 * eHg < total.natAbs then .whole else .empty := by
  obtain ⟨result, number, eHg'⟩ := l
  cases hr
  simp [occupancyOf, h, hclear, hl]

theorem occupancyOf_of_no_value (h : m.certain = false) (hclear : m.loopsClear = true)
    (hl : ∀ l, latest = some l → l.result.isValue = false) : occupancyOf m latest eHg = .part := by
  simp only [occupancyOf, h, hclear]
  cases latest with
  | none => rfl
  | some l =>
    have hvalue := hl l rfl
    obtain ⟨result, number, eHg'⟩ := l
    cases result with
    | value => cases hvalue
    | scaleNotRunning => rfl
    | uncalibrated => rfl
    | deckDown => rfl

end

/-! ## The obligation -/

section
variable {lp : Loop} {active ok : Bool} {s : State}

/-- The event ahead of occupancy where a loop's level changes: the map, the wake, the restart (R24, R43, R69). -/
def loopEvent (lp : Loop) (active : Bool) (s : State) : Ev :=
  ((((Ev.start s).upd fun s => s.setAxle (s.axle.loopChange lp active)).when (decide (lp = .entry) && active) wake)).upd
    restart

theorem exec_loopChange : exec (.loopChange lp active ok) s = event (loopChange ok lp active) s := rfl

theorem loopChange_start (h : s.axle.loopEntry ≠ active ∧ lp = .entry ∨ s.axle.loopExit ≠ active ∧ lp = .exit) :
    loopChange ok lp active (Ev.start s) = formOccupancy ok s.axle false none (loopEvent lp active s) := by
  have hlevel : ¬s.axle.loop lp = active := by
    obtain ⟨h, rfl⟩ | ⟨h, rfl⟩ := h
    · exact h
    · exact h
  exact if_neg hlevel

/-- A wake that a condition guards: in STANDBY the scale enters WARMUP, with SCALE_STATE (R24). -/
theorem when_wake_acq (b : Bool) (e : Ev) : (e.when b wake).st.acq.scale =
    if b = true ∧ e.st.acq.scale = .standby then .warmup else e.st.acq.scale := by
  cases b with
  | false => simp [Ev.when]
  | true =>
    by_cases h : e.st.acq.scale = .standby
    · simp [Ev.when, wake_of_standby e h, enterWarmup, h]
    · simp [Ev.when, wake_of_ne e h, h]

theorem when_wake_notes (b : Bool) (e : Ev) : (e.when b wake).notes =
    e.notes ++ if b = true ∧ e.st.acq.scale = .standby then [.scaleState .warmup .standby] else [] := by
  cases b with
  | false => simp [Ev.when]
  | true =>
    by_cases h : e.st.acq.scale = .standby
    · simp [Ev.when, wake_of_standby e h, enterWarmup, h]
    · simp [Ev.when, wake_of_ne e h, h]

theorem when_wake_keeps (b : Bool) (e : Ev) : (e.when b wake).st.link = e.st.link ∧ (e.when b wake).st.zm = e.st.zm ∧
    (e.when b wake).st.axle = e.st.axle ∧ (e.when b wake).st.site = e.st.site ∧ (e.when b wake).st.cap = e.st.cap ∧
    (e.when b wake).st.store = e.st.store ∧ (e.when b wake).st.metro = e.st.metro ∧
    (e.when b wake).st.cal = e.st.cal := by
  cases b <;> simp [Ev.when]

theorem loopEvent_notes : (loopEvent lp active s).notes =
    if lp = .entry ∧ active = true ∧ s.acq.scale = .standby then [.scaleState .warmup .standby] else [] := by
  refine (when_wake_notes _ _).trans ?_
  simp [Ev.start, and_assoc]

theorem loopEvent_scale : (loopEvent lp active s).st.acq.scale =
    if lp = .entry ∧ active = true ∧ s.acq.scale = .standby then .warmup else s.acq.scale := by
  refine (when_wake_acq _ _).trans ?_
  simp [Ev.start, and_assoc]

theorem loopEvent_keeps : (loopEvent lp active s).st.link = s.link ∧
    (loopEvent lp active s).st.zm = { s.zm with window := [], clock := 0, decisions := notStable } ∧
    (loopEvent lp active s).st.axle = s.axle.loopChange lp active ∧ (loopEvent lp active s).st.site = s.site ∧
    (loopEvent lp active s).st.cap = { s.cap with slot := s.cap.slot.clearCalWindow } ∧
    (loopEvent lp active s).st.store = s.store ∧ (loopEvent lp active s).st.cal = s.cal := by
  simp [loopEvent, when_wake_keeps]

end

/-- Settles O38: the map, the wake and the restart stand ahead of occupancy formed anew; the cases of occupancy are those
of its definition. -/
theorem loopChangeRow : Obligations.LoopChangeRow := by
  refine ⟨fun lp active ok s hsupply h => ?row, fun m latest eHg => ?cases⟩
  case row =>
    obtain ⟨hlink, hzm, haxle, hsite, hcap, hstore, hcal⟩ := loopEvent_keeps (lp := lp) (active := active) (s := s)
    obtain ⟨t, hexec, hform⟩ := event_occupancyFormed hsupply (loopChange_start (ok := ok) h) hlink
      ((congrArg Capture.exit hcap).trans rfl) fun op hop => clearCalWindow_capture ((congrArg Capture.slot hcap).symm.trans hop)
    have htaxle := hform.axle
    have htzm := hform.zm
    have htscale := congrArg (·.scale) hform.acq
    rw [haxle, hzm, hstore] at htaxle
    rw [hzm] at htzm
    rw [loopEvent_scale] at htscale
    obtain ⟨hdecks, hcertain, hlines, hentry, hexit, -⟩ := s.axle.loopChange_keeps lp active
    refine ⟨t, hexec, ?entry, ?exit, ?decks, ?certain, ?lines, ?window, ?clock, ?zeroState, ?offset, ?site, ?cal,
      ?occupancy, ?notes, ?lamp, ?record, htscale⟩
    case entry => rw [htaxle]; exact hentry
    case exit => rw [htaxle]; exact hexit
    case decks => rw [htaxle]; exact hdecks
    case certain => rw [htaxle]; exact hcertain
    case lines => rw [htaxle]; exact hlines
    case window => rw [htzm]
    case clock => rw [htzm]
    case zeroState => rw [htzm]
    case offset => rw [htzm]
    case site => exact hform.site.trans hsite
    case cal => exact hform.cal.trans hcal
    case occupancy => rw [htaxle]; rfl
    case notes => exact loopEvent_notes ▸ hform.raised
    case lamp => exact fun hquiet => hform.exit (hquiet.imp_left fun hn => ⟨⟨rfl, rfl⟩, hn⟩)
    case record =>
      rw [htaxle]
      refine ⟨fun hgone => ?gone, fun hstays => ?stays⟩
      case gone =>
        rw [AxleMap.loopChange_of_clears hgone]
        exact ⟨rfl, rfl, rfl, rfl, rfl⟩
      case stays =>
        rw [AxleMap.loopChange_of_not_clears hstays]
        obtain ⟨hentered, hcount, hexited, hreversal, hcomplete⟩ := s.axle.passLoop_record lp active
        exact ⟨hentered, hcount, hexited, hreversal, hcomplete⟩
  case cases =>
    refine ⟨fun hcertain => ?certain, fun huncertain => ⟨fun hactive => ?active, fun hclear => ?value,
      fun hclear => ?noValue⟩⟩
    case certain =>
      have hocc := occupancyOf_of_certain (latest := latest) (eHg := eHg) hcertain
      simp only [AxleMap.isEmpty_iff, AxleMap.loopsClear_iff] at hocc
      refine ⟨fun h => ?_, fun h => ?_, fun h h' => ?_⟩
      · exact hocc.trans (if_pos h)
      · exact hocc.trans ((if_neg fun h' => h.1 h'.1).trans (if_pos h))
      · exact hocc.trans ((if_neg h).trans (if_neg h'))
    case active => exact occupancyOf_of_active huncertain fun h => hactive (m.loopsClear_iff.mp h)
    case value =>
      exact fun l decks total gross zone hl hr =>
        occupancyOf_of_value huncertain (m.loopsClear_iff.mpr hclear) hl hr
    case noValue => exact occupancyOf_of_no_value huncertain (m.loopsClear_iff.mpr hclear)

end Sys2Proof.Machine

/-! PROOFS. Activations, clearings and crossings (R24, R58, R59, R61). -/

namespace Sys2Proof.Machine

theorem Bank.set_set {α : Type} {n : Nat} (b : Bank α n) (i : Fin n) (x y : α) : (b.set i x).set i y = b.set i y := by
  simp [Bank.set]

theorem Bank.get_inj {α : Type} {n : Nat} {b c : Bank α n} (h : b.cells = c.cells) : b = c := by
  cases b
  cases c
  cases h
  rfl

theorem Ev.when_of_true {b : Bool} (h : b = true) {f : Ev → Ev} {e : Ev} : e.when b f = f e := by
  rw [h]
  rfl

theorem Ev.when_of_false {b : Bool} (h : b = false) {f : Ev → Ev} {e : Ev} : e.when b f = e := by
  rw [h]
  rfl

/-! ## The level of an element -/

theorem TreadleLine.level_setLevel (el : Element) (x : Bool) (l : TreadleLine) : (l.setLevel el x).level el = x := by
  cases el <;> rfl

theorem TreadleLine.setLevel_pairing (el : Element) (x : Bool) (l : TreadleLine) :
    (l.setLevel el x).pairing = l.pairing := by
  cases el <;> rfl

theorem TreadleLine.setLevel_code (el : Element) (x : Bool) (l : TreadleLine) : (l.setLevel el x).code = l.code := by
  cases el <;> rfl

section
variable {line : LineNo} {el : Element} {stamp : Nat} {ok : Bool} {s : State}

theorem exec_elementClear (hsupply : s.mainSupply = true) : exec (.elementClear line el) s =
    .next (notified [] (s.setAxle { s.axle with
      lines := s.axle.lines.set line ((s.axle.lines.get line).setLevel el false) })) :=
  (event_plain hsupply rfl rfl rfl rfl : event (elementClear line el) s = _)

/-! ## An activation ahead of its decoding (R58) -/

/-- The map with an activation's level and time base. -/
def raisedLevel (line : LineNo) (el : Element) (stamp : Nat) (m : AxleMap) : AxleMap :=
  { m.setLine line ((m.lines.get line).setLevel el true) with timeBase := max stamp m.timeBase }

/-- The event of an activation ahead of its decoding: the level, the time base and at line 0 the wake (R24, R58). -/
def levelEvent (line : LineNo) (el : Element) (stamp : Nat) (s : State) : Ev :=
  ((Ev.start s).upd fun s => s.setAxle (raisedLevel line el stamp s.axle)).when (decide (line.val = 0)) wake

theorem levelEvent_keeps : (levelEvent line el stamp s).st.link = s.link ∧ (levelEvent line el stamp s).st.zm = s.zm ∧
    (levelEvent line el stamp s).st.axle = raisedLevel line el stamp s.axle ∧
    (levelEvent line el stamp s).st.site = s.site ∧ (levelEvent line el stamp s).st.cap = s.cap ∧
    (levelEvent line el stamp s).st.store = s.store ∧ (levelEvent line el stamp s).st.metro = s.metro ∧
    (levelEvent line el stamp s).st.cal = s.cal := when_wake_keeps _ _

theorem levelEvent_decoded : (levelEvent line el stamp s).st.decoded line = s.decoded line := by
  obtain ⟨-, -, -, -, -, hstore, hmetro, -⟩ := levelEvent_keeps (line := line) (el := el) (stamp := stamp) (s := s)
  rw [State.decoded, hstore, hmetro, State.decoded]

theorem levelEvent_notes : (levelEvent line el stamp s).notes =
    if line.val = 0 ∧ s.acq.scale = .standby then [.scaleState .warmup .standby] else [] := by
  refine (when_wake_notes _ _).trans ?_
  simp [Ev.start]

/-- Without a wake an activation ahead of its decoding changes the map only. -/
theorem levelEvent_of_awake (h : line.val ≠ 0 ∨ s.acq.scale ≠ .standby) :
    levelEvent line el stamp s = (Ev.start s).upd fun s => s.setAxle (raisedLevel line el stamp s.axle) := by
  by_cases hline : line.val = 0
  · exact (Ev.when_of_true (decide_eq_true hline)).trans
      (wake_of_ne ((Ev.start s).upd _) (h.resolve_left (not_not_intro hline)))
  · exact Ev.when_of_false (decide_eq_false hline)

/-- At line 0 an activation wakes a scale in STANDBY (R24). -/
theorem levelEvent_acq_of_asleep (hline : line.val = 0) (hasleep : s.acq.scale = .standby) :
    (levelEvent line el stamp s).st.acq.scale = .warmup ∧ (levelEvent line el stamp s).st.acq.excitation = true ∧
      (levelEvent line el stamp s).st.acq.warmCount = 0 := by
  have hwake : levelEvent line el stamp s =
      enterWarmup ((Ev.start s).upd fun s => s.setAxle (raisedLevel line el stamp s.axle)) :=
    (Ev.when_of_true (decide_eq_true hline)).trans (wake_of_standby ((Ev.start s).upd _) hasleep)
  rw [hwake]
  exact ⟨rfl, rfl, rfl⟩

theorem activation_of_undecoded (hlevel : (s.axle.lines.get line).level el = false) (h : s.decoded line = false) :
    activation ok line el stamp (Ev.start s) = levelEvent line el stamp s := by
  refine (if_neg (by simp [Ev.start, hlevel])).trans ?_
  exact Ev.when_of_false (levelEvent_decoded.trans h)

theorem activation_of_decoded (hlevel : (s.axle.lines.get line).level el = false) (h : s.decoded line = true) :
    activation ok line el stamp (Ev.start s) = decodeActivation ok line el stamp (levelEvent line el stamp s) := by
  refine (if_neg (by simp [Ev.start, hlevel])).trans ?_
  exact Ev.when_of_true (levelEvent_decoded.trans h)

/-! ## An activation on a decoded line (R59) -/

/-- The event of an activation with the pairing that the table of R59 gives. -/
def pairedEvent (p : Pairing) (line : LineNo) (el : Element) (stamp : Nat) (s : State) : Ev :=
  (levelEvent line el stamp s).upd fun t => t.setAxle
    (t.axle.setLine line { t.axle.lines.get line with pairing := p })

theorem raisedLevel_line : (raisedLevel line el stamp s.axle).lines.get line =
    (s.axle.lines.get line).setLevel el true := Bank.get_set_self ..

theorem levelEvent_line : (levelEvent line el stamp s).st.axle.lines.get line =
    (s.axle.lines.get line).setLevel el true := by
  obtain ⟨-, -, haxle, -⟩ := levelEvent_keeps (line := line) (el := el) (stamp := stamp) (s := s)
  rw [haxle, raisedLevel_line]

theorem levelEvent_pairing : ((levelEvent line el stamp s).st.axle.lines.get line).pairing =
    (s.axle.lines.get line).pairing := by
  rw [levelEvent_line, TreadleLine.setLevel_pairing]

/-- The map of an activation with the pairing `p`. -/
def pairedMap (p : Pairing) (line : LineNo) (el : Element) (stamp : Nat) (m : AxleMap) : AxleMap :=
  { m with
    lines := m.lines.set line { (m.lines.get line).setLevel el true with pairing := p }
    timeBase := max stamp m.timeBase }

theorem pairedEvent_axle (p : Pairing) : (pairedEvent p line el stamp s).st.axle = pairedMap p line el stamp s.axle := by
  obtain ⟨-, -, haxle, -⟩ := levelEvent_keeps (line := line) (el := el) (stamp := stamp) (s := s)
  change (levelEvent line el stamp s).st.axle.setLine line
    { (levelEvent line el stamp s).st.axle.lines.get line with pairing := p } = _
  rw [haxle, raisedLevel_line]
  unfold AxleMap.setLine raisedLevel pairedMap AxleMap.setLine
  dsimp only
  rw [Bank.set_set]

theorem pairedEvent_keeps (p : Pairing) : (pairedEvent p line el stamp s).st.link = s.link ∧
    (pairedEvent p line el stamp s).st.zm = s.zm ∧ (pairedEvent p line el stamp s).st.site = s.site ∧
    (pairedEvent p line el stamp s).st.cap = s.cap ∧ (pairedEvent p line el stamp s).st.store = s.store ∧
    (pairedEvent p line el stamp s).st.cal = s.cal ∧
    (pairedEvent p line el stamp s).st.acq = (levelEvent line el stamp s).st.acq ∧
    (pairedEvent p line el stamp s).notes = (levelEvent line el stamp s).notes := by
  obtain ⟨hlink, hzm, -, hsite, hcap, hstore, -, hcal⟩ :=
    levelEvent_keeps (line := line) (el := el) (stamp := stamp) (s := s)
  exact ⟨hlink, hzm, hsite, hcap, hstore, hcal, rfl, rfl⟩

theorem decodeActivation_of_none {p : Pairing}
    (h : pairStep (s.axle.lines.get line).pairing el stamp = { next := p, crossing := none }) :
    decodeActivation ok line el stamp (levelEvent line el stamp s) = pairedEvent p line el stamp s := by
  rw [← levelEvent_pairing (el := el) (stamp := stamp)] at h
  simp only [decodeActivation, h]
  rfl

theorem decodeActivation_of_crossing {p : Pairing} {dir : Direction} {t0 dt : Nat}
    (h : pairStep (s.axle.lines.get line).pairing el stamp = { next := p, crossing := some (dir, t0, dt) }) :
    decodeActivation ok line el stamp (levelEvent line el stamp s) =
      decodeCrossing ok { line := line, dir := dir, opened := t0, dt := dt } (pairedEvent p line el stamp s) := by
  rw [← levelEvent_pairing (el := el) (stamp := stamp)] at h
  simp only [decodeActivation, h]
  rfl

/-! ## The rows without a crossing -/

/-- An activation that decodes no crossing changes its line and the time base only. -/
theorem exec_activation_of_no_crossing {p : Pairing} (hsupply : s.mainSupply = true)
    (hlevel : (s.axle.lines.get line).level el = false) (hawake : line.val ≠ 0 ∨ s.acq.scale ≠ .standby)
    (h : s.decoded line = false ∧ p = (s.axle.lines.get line).pairing ∨ s.decoded line = true ∧
      pairStep (s.axle.lines.get line).pairing el stamp = { next := p, crossing := none }) :
    exec (.activation line el stamp ok) s = .next (notified [] (s.setAxle (pairedMap p line el stamp s.axle))) := by
  refine (event_plain (u := s.setAxle (pairedMap p line el stamp s.axle)) hsupply ?_ rfl rfl rfl :
    event (activation ok line el stamp) s = _)
  obtain ⟨hdecoded, rfl⟩ | ⟨hdecoded, hstep⟩ := h
  · rw [activation_of_undecoded hlevel hdecoded, levelEvent_of_awake hawake]
    have hmap : raisedLevel line el stamp s.axle =
        pairedMap (s.axle.lines.get line).pairing line el stamp s.axle := by
      unfold raisedLevel pairedMap AxleMap.setLine
      rw [← TreadleLine.setLevel_pairing el true]
    exact congrArg (fun m => ({ Ev.start s with st := s.setAxle m } : Ev)) hmap
  · rw [activation_of_decoded hlevel hdecoded, decodeActivation_of_none hstep]
    have hmap := pairedEvent_axle (line := line) (el := el) (stamp := stamp) (s := s) p
    rw [pairedEvent, levelEvent_of_awake hawake] at hmap ⊢
    exact congrArg (fun m => ({ Ev.start s with st := s.setAxle m } : Ev)) hmap

end

/-! ## A crossing (R59, R61) -/

/-- The event of a decoded crossing ahead of occupancy: the map, AXLE_CROSSING, the restart (R43, R59). -/
def crossedEvent (c : Crossing) (e : Ev) : Ev :=
  ((applyCrossing c e).1.note (.axleCrossing c.line c.dir (crossingSpeed e.st.site.treadle.separation c.dt)
    (applyCrossing c e).2.1 (applyCrossing c e).1.st.axle.certain)).upd restart

theorem decodeCrossing_eq {ok : Bool} {c : Crossing} {e : Ev} {m : AxleMap} (hocc : e.st.axle.occupancy = m.occupancy)
    (hcertain : e.st.axle.certain = m.certain) :
    decodeCrossing ok c e = formOccupancy ok m true (applyCrossing c e).2.2 (crossedEvent c e) :=
  formOccupancy_congr hocc hcertain ok true _ (crossedEvent c e)

section
variable {c : Crossing} {e : Ev}

theorem crossedEvent_keeps : (crossedEvent c e).st.link = e.st.link ∧
    (crossedEvent c e).st.zm = { e.st.zm with window := [], clock := 0, decisions := notStable } ∧
    (crossedEvent c e).st.axle = (applyCrossing c e).1.st.axle ∧ (crossedEvent c e).st.acq = e.st.acq ∧
    (crossedEvent c e).st.site = e.st.site ∧ (crossedEvent c e).st.store = e.st.store ∧
    (crossedEvent c e).st.cap = { e.st.cap with slot := e.st.cap.slot.clearCalWindow } ∧
    (crossedEvent c e).st.cal = e.st.cal := by
  simp [crossedEvent]

theorem crossedEvent_notes : (crossedEvent c e).notes = (applyCrossing c e).1.notes ++
    [.axleCrossing c.line c.dir (crossingSpeed e.st.site.treadle.separation c.dt) (applyCrossing c e).2.1
      (applyCrossing c e).1.st.axle.certain] := rfl

theorem applyCrossing_of_uncertain (h : e.st.axle.certain = false) : applyCrossing c e = (e, none, none) := by
  simp [applyCrossing, h]

theorem applyCrossing_of_moved {m : AxleMap} {a : Nat} (hcertain : e.st.axle.certain = true)
    (h : crossingEffect e.st.store.config.deckCount e.st.site.treadle.separation c e.st.axle = .moved m a) :
    applyCrossing c e =
      (e.upd fun s => s.setAxle (if mayClear e.st.store.config.deckCount c then m.clearIfGone else m), some a, none) := by
  simp only [applyCrossing, hcertain, h]
  rfl

theorem applyCrossing_of_lost {cause : LossCause} (hcertain : e.st.axle.certain = true)
    (h : crossingEffect e.st.store.config.deckCount e.st.site.treadle.separation c e.st.axle = .lost cause) :
    applyCrossing c e =
      (loseCertainty cause (some c.line) (if cause = .phantom then phantomFault c.line e else e), none, some cause) := by
  simp only [applyCrossing, hcertain, h]
  rfl

/-- A crossing moves axles and leaves the lines. -/
theorem crossingEffect_lines {n sep a : Nat} {m m' : AxleMap} (h : crossingEffect n sep c m = .moved m' a) :
    m'.lines = m.lines := by
  unfold crossingEffect enterAxle addAxle forwardJoint forwardExit backwardEntry backwardJoint backwardExit at h
  dsimp only at h
  repeat' split at h
  all_goals cases h
  all_goals rfl

theorem loseCertainty_lines (cause : LossCause) (line : Option LineNo) (e : Ev) :
    (loseCertainty cause line e).st.axle.lines = e.st.axle.lines := by
  rw [loseCertainty_axle]
  split_ifs <;> rfl

/-- Of a line a crossing changes the fault code at most. -/
theorem applyCrossing_line (i : LineNo) : ∃ code, (applyCrossing c e).1.st.axle.lines.get i =
    { e.st.axle.lines.get i with code := code } := by
  cases hcertain : e.st.axle.certain with
  | false => exact ⟨_, by rw [applyCrossing_of_uncertain hcertain]⟩
  | true =>
    cases h : crossingEffect e.st.store.config.deckCount e.st.site.treadle.separation c e.st.axle with
    | moved m a =>
      refine ⟨(e.st.axle.lines.get i).code, ?_⟩
      rw [applyCrossing_of_moved hcertain h]
      have hlines := crossingEffect_lines h
      obtain ⟨-, -, hclear, -⟩ := m.clearIfGone_keeps
      change ((if mayClear e.st.store.config.deckCount c then m.clearIfGone else m).lines).get i = _
      split_ifs
      · rw [hclear, hlines]
      · rw [hlines]
    | lost cause =>
      rw [applyCrossing_of_lost hcertain h]
      by_cases hphantom : cause = .phantom
      · rw [if_pos hphantom, loseCertainty_lines]
        by_cases hi : c.line = i
        · exact ⟨.phantom, by rw [← hi]; exact Bank.get_set_self ..⟩
        · exact ⟨(e.st.axle.lines.get i).code, Bank.get_set_of_ne _ hi _⟩
      · rw [if_neg hphantom, loseCertainty_lines]
        exact ⟨(e.st.axle.lines.get i).code, rfl⟩

end

section
variable {line : LineNo} {el : Element} {stamp t0 dt : Nat} {dir : Direction} {p : Pairing} {ok : Bool} {s : State}

/-- The crossing that an activation completes, ahead of occupancy. -/
def activationCrossing (line : LineNo) (el : Element) (stamp t0 dt : Nat) (dir : Direction) (s : State) : Ev :=
  crossedEvent { line := line, dir := dir, opened := t0, dt := dt } (pairedEvent .idle line el stamp s)

theorem activation_of_crossing (hlevel : (s.axle.lines.get line).level el = false) (hdecoded : s.decoded line = true)
    (h : pairStep (s.axle.lines.get line).pairing el stamp = { next := .idle, crossing := some (dir, t0, dt) }) :
    activation ok line el stamp (Ev.start s) = formOccupancy ok s.axle true
      (applyCrossing { line := line, dir := dir, opened := t0, dt := dt } (pairedEvent .idle line el stamp s)).2.2
      (activationCrossing line el stamp t0 dt dir s) := by
  have haxle := pairedEvent_axle (line := line) (el := el) (stamp := stamp) (s := s) .idle
  rw [activation_of_decoded hlevel hdecoded, decodeActivation_of_crossing h]
  exact decodeCrossing_eq ((congrArg AxleMap.occupancy haxle).trans rfl) ((congrArg AxleMap.certain haxle).trans rfl)

/-- An activation that completes a crossing forms occupancy anew behind it. -/
theorem exec_activation_of_crossing (hsupply : s.mainSupply = true)
    (hlevel : (s.axle.lines.get line).level el = false) (hdecoded : s.decoded line = true)
    (h : pairStep (s.axle.lines.get line).pairing el stamp = { next := .idle, crossing := some (dir, t0, dt) }) :
    ∃ t, exec (.activation line el stamp ok) s = .next t ∧
      OccupancyFormed s (activationCrossing line el stamp t0 dt dir s) False t := by
  obtain ⟨hlink, -, -, -, -, -, hcap, -⟩ := crossedEvent_keeps
    (c := { line := line, dir := dir, opened := t0, dt := dt }) (e := pairedEvent .idle line el stamp s)
  obtain ⟨hlink', -, -, hcap', -⟩ := pairedEvent_keeps (line := line) (el := el) (stamp := stamp) (s := s) .idle
  rw [hcap'] at hcap
  obtain ⟨t, hexec, hform⟩ := event_occupancyFormed hsupply (activation_of_crossing (ok := ok) hlevel hdecoded h)
    (hlink.trans hlink') ((congrArg Capture.exit hcap).trans rfl) fun op hop =>
      clearCalWindow_capture ((congrArg Capture.slot hcap).symm.trans hop)
  exact ⟨t, hexec, { hform with exit := fun hquiet => hform.exit (Or.inr (hquiet.resolve_left (·.1))) }⟩

/-- The partner of a pairing at most 1,000 ms old (R59). -/
theorem pairStep_partner
    (h : (el = .b ∧ ((s.axle.lines.get line).pairing = .openA t0 ∨ (s.axle.lines.get line).pairing = .guardA t0)) ∨
      (el = .a ∧ ((s.axle.lines.get line).pairing = .openB t0 ∨ (s.axle.lines.get line).pairing = .guardB t0)))
    (hstamp : stamp ≤ t0 + 1000) : pairStep (s.axle.lines.get line).pairing el stamp =
      { next := .idle, crossing := some (if el = .a then .backward else .forward, t0, stamp - t0) } := by
  obtain ⟨rfl, h | h⟩ | ⟨rfl, h | h⟩ := h <;> rw [h] <;> exact if_pos hstamp

end

/-! ## The wake at line 0 (R24) -/

section
variable {line : LineNo} {el : Element} {stamp : Nat} {ok : Bool} {s : State}

theorem TreadleLine.level_congr {l l' : TreadleLine} (ha : l.levelA = l'.levelA) (hb : l.levelB = l'.levelB)
    (el : Element) : l.level el = l'.level el := by
  cases el
  · exact ha
  · exact hb

theorem pairedEvent_line (p : Pairing) : (pairedEvent p line el stamp s).st.axle.lines.get line =
    { (s.axle.lines.get line).setLevel el true with pairing := p } := by
  rw [pairedEvent_axle]
  exact Bank.get_set_self ..

/-- Behind an activation its element is ACTIVE, and the acquisition unit is as the wake left it. -/
theorem activation_level (hlevel : (s.axle.lines.get line).level el = false) :
    ((activation ok line el stamp (Ev.start s)).st.axle.lines.get line).level el = true ∧
      (activation ok line el stamp (Ev.start s)).st.acq = (levelEvent line el stamp s).st.acq := by
  cases hdecoded : s.decoded line with
  | false =>
    rw [activation_of_undecoded hlevel hdecoded, levelEvent_line]
    exact ⟨TreadleLine.level_setLevel .., rfl⟩
  | true =>
    rw [activation_of_decoded hlevel hdecoded]
    refine ⟨?_, by simp⟩
    cases hstep : pairStep (s.axle.lines.get line).pairing el stamp with
    | mk next crossing =>
      have hpaired := pairedEvent_line (line := line) (el := el) (stamp := stamp) (s := s) next
      cases crossing with
      | none =>
        rw [decodeActivation_of_none hstep, hpaired]
        exact (TreadleLine.level_congr rfl rfl el).trans (TreadleLine.level_setLevel el true _)
      | some x =>
        obtain ⟨dir, t0, dt⟩ := x
        rw [decodeActivation_of_crossing hstep, decodeCrossing_eq rfl rfl, formOccupancy_axle]
        obtain ⟨code, hline⟩ := applyCrossing_line (c := { line := line, dir := dir, opened := t0, dt := dt })
          (e := pairedEvent next line el stamp s) line
        obtain ⟨-, -, haxle, -⟩ := crossedEvent_keeps
          (c := { line := line, dir := dir, opened := t0, dt := dt }) (e := pairedEvent next line el stamp s)
        dsimp only
        rw [haxle, hline, hpaired]
        exact (TreadleLine.level_congr rfl rfl el).trans (TreadleLine.level_setLevel el true _)

/-- An activation at line 0 wakes a scale in STANDBY (R24). -/
theorem exec_activation_of_asleep (hsupply : s.mainSupply = true)
    (hlevel : (s.axle.lines.get line).level el = false) (hline : line.val = 0) (hasleep : s.acq.scale = .standby) :
    ∃ t, exec (.activation line el stamp ok) s = .next t ∧ t.acq.scale = .warmup ∧ t.acq.excitation = true ∧
      t.acq.warmCount = 0 ∧ (t.axle.lines.get line).level el = true := by
  obtain ⟨hraised, hacq⟩ := activation_level (ok := ok) (stamp := stamp) hlevel
  obtain ⟨hscale, hexcited, hcount⟩ := levelEvent_acq_of_asleep (el := el) (stamp := stamp) hline hasleep
  refine ⟨_, (event_happened hsupply : event (activation ok line el stamp) s = _), ?_⟩
  simp only [happened_keeps, hacq]
  exact ⟨hscale, hexcited, hcount, hraised⟩

end

/-! ## A crossing on an UNCERTAIN map (R59) -/

section
variable {line : LineNo} {el : Element} {stamp t0 dt : Nat} {dir : Direction} {s : State}

theorem activationCrossing_keeps : (activationCrossing line el stamp t0 dt dir s).st.zm =
      { s.zm with window := [], clock := 0, decisions := notStable } ∧
    (activationCrossing line el stamp t0 dt dir s).st.acq = (levelEvent line el stamp s).st.acq ∧
    (activationCrossing line el stamp t0 dt dir s).st.site = s.site ∧
    (activationCrossing line el stamp t0 dt dir s).st.cal = s.cal ∧
    ((activationCrossing line el stamp t0 dt dir s).st.axle.lines.get line).pairing = .idle := by
  obtain ⟨-, hzm, haxle, hacq, hsite, -, -, hcal⟩ := crossedEvent_keeps
    (c := { line := line, dir := dir, opened := t0, dt := dt }) (e := pairedEvent .idle line el stamp s)
  obtain ⟨-, hzm', hsite', -, -, hcal', hacq', -⟩ :=
    pairedEvent_keeps (line := line) (el := el) (stamp := stamp) (s := s) .idle
  obtain ⟨code, hline⟩ := applyCrossing_line (c := { line := line, dir := dir, opened := t0, dt := dt })
    (e := pairedEvent .idle line el stamp s) line
  refine ⟨hzm.trans (by rw [hzm']), hacq.trans hacq', hsite.trans hsite', hcal.trans hcal', ?_⟩
  rw [activationCrossing, haxle, hline, pairedEvent_line]

theorem activationCrossing_of_uncertain (h : s.axle.certain = false) :
    (activationCrossing line el stamp t0 dt dir s).st.axle = pairedMap .idle line el stamp s.axle ∧
    (activationCrossing line el stamp t0 dt dir s).notes =
      (if line.val = 0 ∧ s.acq.scale = .standby then [.scaleState .warmup .standby] else []) ++
        [.axleCrossing line dir (crossingSpeed s.site.treadle.separation dt) none false] := by
  obtain ⟨-, -, hsite, -, -, -, -, hnotes⟩ :=
    pairedEvent_keeps (line := line) (el := el) (stamp := stamp) (s := s) .idle
  have haxle := pairedEvent_axle (line := line) (el := el) (stamp := stamp) (s := s) .idle
  have hmap : (pairedEvent .idle line el stamp s).st.axle.certain = false := by
    rw [haxle]
    exact h
  have hcross := applyCrossing_of_uncertain (c := { line := line, dir := dir, opened := t0, dt := dt }) hmap
  obtain ⟨-, -, haxle', -⟩ := crossedEvent_keeps
    (c := { line := line, dir := dir, opened := t0, dt := dt }) (e := pairedEvent .idle line el stamp s)
  refine ⟨haxle'.trans (by rw [hcross]; exact haxle), ?_⟩
  rw [activationCrossing, crossedEvent_notes, hcross, hsite, hmap, hnotes, levelEvent_notes]

end

/-- Settles O35: a clearing and an activation that decodes nothing change the line and the time base; a crossing restarts
the window and forms occupancy anew. -/
theorem elementRows : Obligations.ElementRows := by
  intro line el stamp ok s hsupply l setTo on after
  have hset : ∀ x, setTo x = l.setLevel el x := fun x => by cases el <;> rfl
  have hafter : ∀ p, after p = s.setAxle (pairedMap p line el stamp s.axle) := fun p => by
    simp only [after, on, hset, pairedMap, l]
  have hcross := fun (t0 : Nat) h hstamp =>
    pairStep_partner (line := line) (el := el) (stamp := stamp) (t0 := t0) (s := s) h hstamp
  refine ⟨?clear, fun hlevel => ⟨fun hawake => ?awake, fun t0 hdecoded huncertain h hstamp => ?told,
    exec_activation_of_asleep hsupply hlevel⟩⟩
  case clear =>
    rw [hset]
    exact exec_elementClear hsupply
  case awake =>
    simp only [hafter]
    have hquiet := fun (p : Pairing) hstep =>
      exec_activation_of_no_crossing (stamp := stamp) (p := p) (ok := ok) hsupply hlevel hawake hstep
    refine ⟨fun h => ?undecoded, fun h hidle => ?opens, fun t0 h hel hp => ?absorbsA, fun t0 h hel hp => ?absorbsB,
      fun t0 h hel hp hlate => ?lateA, fun t0 h hel hp hlate => ?lateB, fun t0 hdecoded h hstamp => ?crosses⟩
    case undecoded => exact hquiet _ (Or.inl ⟨h, rfl⟩)
    case opens =>
      refine hquiet _ (Or.inr ⟨h, ?_⟩)
      rw [show (s.axle.lines.get line).pairing = .idle from hidle]
      cases el <;> rfl
    case absorbsA =>
      refine hquiet _ (Or.inr ⟨h, ?_⟩)
      obtain hp | hp := hp <;> rw [hel, show (s.axle.lines.get line).pairing = _ from hp] <;> rfl
    case absorbsB =>
      refine hquiet _ (Or.inr ⟨h, ?_⟩)
      obtain hp | hp := hp <;> rw [hel, show (s.axle.lines.get line).pairing = _ from hp] <;> rfl
    case lateA =>
      refine hquiet _ (Or.inr ⟨h, ?_⟩)
      obtain hp | hp := hp <;> rw [hel, show (s.axle.lines.get line).pairing = _ from hp] <;>
        exact if_neg (Nat.not_le.mpr hlate)
    case lateB =>
      refine hquiet _ (Or.inr ⟨h, ?_⟩)
      obtain hp | hp := hp <;> rw [hel, show (s.axle.lines.get line).pairing = _ from hp] <;>
        exact if_neg (Nat.not_le.mpr hlate)
    case crosses =>
      obtain ⟨t, hexec, hform⟩ := exec_activation_of_crossing (ok := ok) hsupply hlevel hdecoded (hcross t0 h hstamp)
      obtain ⟨hzm, hacq, hsite, hcal, hidle⟩ := activationCrossing_keeps (line := line) (el := el) (stamp := stamp)
        (t0 := t0) (dt := stamp - t0) (dir := if el = .a then .backward else .forward) (s := s)
      have htzm := hform.zm.trans hzm
      rw [levelEvent_of_awake hawake] at hacq
      refine ⟨t, hexec, ?_, ?_, ?_, ?_, ?_, ?_, hform.acq.trans hacq, hform.site.trans hsite, hform.cal.trans hcal,
        fun huncertain => ?_⟩
      · rw [hform.axle]; exact hidle
      · rw [htzm]
      · rw [htzm]
      · rw [htzm]
      · rw [htzm]
      · rw [htzm]
      · rw [hform.axle, (activationCrossing_of_uncertain huncertain).1]
        exact ⟨huncertain, rfl, rfl, rfl⟩
  case told =>
    obtain ⟨t, hexec, hform⟩ := exec_activation_of_crossing (ok := ok) hsupply hlevel hdecoded (hcross t0 h hstamp)
    obtain ⟨haxle, hnotes⟩ := activationCrossing_of_uncertain (line := line) (el := el) (stamp := stamp) (t0 := t0)
      (dt := stamp - t0) (dir := if el = .a then .backward else .forward) huncertain
    refine ⟨t, hexec, ?_, fun hnone => hform.exit (Or.inr hnone), ?_⟩
    · rw [hform.axle, haxle]
      exact huncertain
    · exact hnotes ▸ hform.raised

end Sys2Proof.Machine

/-! PROOFS. What a decoded crossing does to a CERTAIN map (R61, R63, R65 to R68, R70). -/

namespace Sys2Proof.Machine

/-! ## The effect of a crossing (R65, R66, R67) -/

section
variable {m : AxleMap} {sep n : Nat} {c : Crossing}

theorem enterAxle_of_second (hcomplete : m.entryComplete = true) (hheld : ¬m.isEmpty = true) :
    enterAxle sep c m = .lost .secondVehicle := by
  simp [enterAxle, hcomplete, hheld]

theorem enterAxle_of_next (hcomplete : m.entryComplete = true) (hempty : m.isEmpty = true) :
    enterAxle sep c m = addAxle sep c m.clearVehicle := by
  simp [enterAxle, hcomplete, hempty]

theorem enterAxle_of_overflow (hcomplete : m.entryComplete = false) (hfull : 24 ≤ m.entered) :
    enterAxle sep c m = .lost .overflow := by
  simp [enterAxle, hcomplete, hfull]

theorem enterAxle_of_room (hcomplete : m.entryComplete = false) (hroom : m.entered < 24) :
    enterAxle sep c m = addAxle sep c m := by
  simp [enterAxle, hcomplete, Nat.not_le.mpr hroom]

theorem deckBefore_eq {k : Deck} {line : Nat} (h : line = k.val + 1) : deckBefore line = k := by
  subst h
  exact Fin.ext (Nat.mod_eq_of_lt k.isLt)

theorem deckAfter_eq {k : Deck} {line : Nat} (h : line = k.val) : deckAfter line = k := by
  subst h
  exact Fin.ext (Nat.mod_eq_of_lt k.isLt)

/-! ### The rows, by direction and line -/

theorem crossingEffect_enter (hdir : c.dir = .forward) (hline : c.line.val = 0) :
    crossingEffect n sep c m = enterAxle sep c m := by
  unfold crossingEffect
  rw [hdir]
  exact if_pos hline

theorem crossingEffect_forwardJoint (hdir : c.dir = .forward) (hline : c.line.val ≠ 0) (hn : c.line.val < n) :
    crossingEffect n sep c m = forwardJoint c.line.val m := by
  unfold crossingEffect
  rw [hdir]
  exact (if_neg hline).trans (if_pos hn)

theorem crossingEffect_forwardExit (hdir : c.dir = .forward) (hline : c.line.val ≠ 0) (hn : c.line.val = n) :
    crossingEffect n sep c m = forwardExit n m := by
  unfold crossingEffect
  rw [hdir]
  exact (if_neg hline).trans (if_neg (by omega))

theorem crossingEffect_backwardEntry (hdir : c.dir = .backward) (hline : c.line.val = 0) :
    crossingEffect n sep c m = backwardEntry m := by
  unfold crossingEffect
  rw [hdir]
  exact if_pos hline

theorem crossingEffect_backwardJoint (hdir : c.dir = .backward) (hline : c.line.val ≠ 0) (hn : c.line.val < n) :
    crossingEffect n sep c m = backwardJoint c.line.val m := by
  unfold crossingEffect
  rw [hdir]
  exact (if_neg hline).trans (if_pos hn)

theorem crossingEffect_backwardExit (hdir : c.dir = .backward) (hline : c.line.val ≠ 0) (hn : c.line.val = n) :
    crossingEffect n sep c m = backwardExit n m := by
  unfold crossingEffect
  rw [hdir]
  exact (if_neg hline).trans (if_neg (by omega))

/-! ### What each row does to the lists -/

section
variable {k k' : Deck} {l : Nat} {a : Axle} {r : List Axle}

theorem forwardJoint_of_cons (hk : l = k.val + 1) (hk' : k'.val = k.val + 1) (hr : m.decks.get k = a :: r) :
    forwardJoint l m =
      .moved { m with decks := (m.decks.set k r).set k' (m.decks.get k' ++ [a]) } a.number := by
  have hne : k ≠ k' := fun h => by rw [h] at hk'; omega
  simp [forwardJoint, deckBefore_eq hk, deckAfter_eq (hk.trans hk'.symm), hr, Bank.get_set_of_ne _ hne]

theorem forwardJoint_of_nil (hk : l = k.val + 1) (hr : m.decks.get k = []) : forwardJoint l m = .lost .phantom := by
  simp [forwardJoint, deckBefore_eq hk, hr]

theorem forwardExit_of_cons (hk : l = k.val + 1) (hr : m.decks.get k = a :: r) : forwardExit l m =
    .moved { m with decks := m.decks.set k r, exited := m.exited ++ [a], exitedCount := m.exitedCount + 1 }
      a.number := by
  simp [forwardExit, deckBefore_eq hk, hr]

theorem forwardExit_of_nil (hk : l = k.val + 1) (hr : m.decks.get k = []) : forwardExit l m = .lost .phantom := by
  simp [forwardExit, deckBefore_eq hk, hr]

theorem backwardEntry_of_snoc (hr : m.decks.get 0 = r ++ [a]) : backwardEntry m =
    .moved { m with decks := m.decks.set 0 r, entered := m.entered - 1, reversal := true, entryComplete := false }
      a.number := by
  simp [backwardEntry, hr, takeRear]

theorem backwardEntry_of_nil (hr : m.decks.get 0 = []) : backwardEntry m = .lost .phantom := by
  simp [backwardEntry, hr, takeRear]

theorem backwardJoint_of_snoc (hk : l = k.val + 1) (hk' : k'.val = k.val + 1) (hr : m.decks.get k' = r ++ [a]) :
    backwardJoint l m = .moved { m with decks := (m.decks.set k' r).set k (a :: m.decks.get k) } a.number := by
  have hne : k' ≠ k := fun h => by rw [h] at hk'; omega
  simp [backwardJoint, deckBefore_eq hk, deckAfter_eq (hk.trans hk'.symm), hr, takeRear, Bank.get_set_of_ne _ hne]

theorem backwardJoint_of_nil (hk' : l = k'.val) (hr : m.decks.get k' = []) : backwardJoint l m = .lost .phantom := by
  simp [backwardJoint, deckAfter_eq hk', hr, takeRear]

theorem backwardExit_of_snoc (hk : l = k.val + 1) (hr : m.exited = r ++ [a]) : backwardExit l m =
    .moved { m with exited := r, exitedCount := m.exitedCount - 1, decks := m.decks.set k (a :: m.decks.get k) }
      a.number := by
  simp [backwardExit, deckBefore_eq hk, hr, takeRear]

theorem backwardExit_of_nil (hr : m.exited = []) : backwardExit l m = .lost .phantom := by
  simp [backwardExit, hr, takeRear]

end

end

/-! ## The record of a new axle (R61, R63, R67) -/

section
variable {m : AxleMap} {sep n : Nat} {c : Crossing}

theorem newAxle_speedHigh : (newAxle m sep n c).speedHigh = true ↔
    ∃ v, crossingSpeed sep c.dt = some v ∧ 200 < v := by
  change decide (200 < (crossingSpeed sep c.dt).getD 0) = true ↔ _
  cases crossingSpeed sep c.dt <;> simp

theorem newAxle_first (h : n ≤ 1) : (newAxle m sep n c).spacing = none ∧
    (newAxle m sep n c).uncertainBoundary = false := by
  simp [newAxle, h, Nat.not_lt.mpr h]

theorem newAxle_uncertain (h : 1 < n) :
    (newAxle m sep n c).uncertainBoundary = true ↔ (newAxle m sep n c).spacing = none := by
  simp [newAxle, Nat.not_le.mpr h, h]

/-- The record of a number that one axle of the map has. -/
theorem AxleMap.record_of_unique {b : Axle} (hb : b ∈ m.exited ++ allDecks.flatMap m.decks.get) (hn : b.number = n)
    (hu : ∀ x ∈ m.exited ++ allDecks.flatMap m.decks.get, x.number = n → x = b) : m.record n = some b := by
  cases hrec : m.record n with
  | none => exact absurd hn (by simpa using List.find?_eq_none.mp hrec b hb)
  | some x => rw [hu x (List.mem_of_find?_eq_some hrec) (by simpa using List.find?_some hrec)]

theorem newAxle_spacing {b : Axle} (hn : 1 < n) (hb : m.record (n - 1) = some b) : (newAxle m sep n c).spacing =
    if c.dt = 0 ∨ m.reversal = true ∨ b.reEntered = true then none
    else some (min 65535 (roundDiv ((sep : Int) * ((c.opened : Int) - b.entryTime)) (10 * c.dt)).toNat) := by
  change (if n ≤ 1 then none else spacingOf sep (m.record (n - 1)) m.reversal c.opened c.dt) = _
  rw [if_neg (Nat.not_le.mpr hn), hb]
  refine if_congr ?_ rfl rfl
  simp only [Bool.or_eq_true, beq_iff_eq]
  tauto

end

end Sys2Proof.Machine

/-! PROOFS. A decoded crossing on a CERTAIN map, from the activation to its notices (R61, R63, R65 to R68, R70, R73). -/

namespace Sys2Proof.Machine

/-- The notices of a decoded crossing: the wake, what it found, AXLE_CROSSING, then OCCUPANCY (R24, R59, R68, R73). -/
def State.crossingTold (s : State) (line : LineNo) (dir : Direction) (dt : Nat) (t : State) (axle : Option Nat)
    (found : List Notice) : Prop :=
  s.raisedFirst
    ((if line.val = 0 ∧ s.acq.scale = .standby then [.scaleState .warmup .standby] else []) ++ found ++
      [.axleCrossing line dir (crossingSpeed s.site.treadle.separation dt) axle t.axle.certain] ++ occupancyNotes s t)
    (9 ≤ ·.code) t

/-- A crossing that moved the axle `a` and left the map `m`, ahead of its occupancy. -/
structure CrossingMoved (s : State) (line : LineNo) (dir : Direction) (dt : Nat) (m : AxleMap) (a : Nat) (t : State) :
    Prop where
  told : s.crossingTold line dir dt t (some a) []
  certain : t.axle.certain = true
  axle : t.axle = { m with occupancy := t.axle.occupancy }

/-- A crossing that lost the map, as R68 has it. -/
def CrossingLost (s : State) (line : LineNo) (dir : Direction) (dt : Nat) (cause : LossCause) (t : State) : Prop :=
  s.crossingTold line dir dt t none
    ((if cause = .phantom then [.treadleFault line .phantom] else []) ++ [.axleInconsistent cause (some line)]) ∧
  t.axle.certain = false ∧ t.axle.cause = cause ∧ t.axle.entered = 0 ∧ t.axle.exitedCount = 0 ∧
    t.axle.exited = [] ∧ t.axle.entryComplete = false ∧ t.axle.reversal = false ∧ (∀ d, t.axle.decks.get d = [])

section
variable {line : LineNo} {el : Element} {stamp t0 dt : Nat} {dir : Direction} {s t : State} {quiet : Prop}

/-- The map that the crossing of an activation meets. -/
theorem crossing_meets (hcertain : s.axle.certain = true) :
    (pairedEvent .idle line el stamp s).st.axle.certain = true ∧
    crossingEffect (pairedEvent .idle line el stamp s).st.store.config.deckCount
        (pairedEvent .idle line el stamp s).st.site.treadle.separation
        { line := line, dir := dir, opened := t0, dt := dt } (pairedEvent .idle line el stamp s).st.axle =
      crossingEffect s.store.config.deckCount s.site.treadle.separation
        { line := line, dir := dir, opened := t0, dt := dt } (pairedMap .idle line el stamp s.axle) := by
  obtain ⟨-, -, hsite, -, hstore, -⟩ := pairedEvent_keeps (line := line) (el := el) (stamp := stamp) (s := s) .idle
  rw [pairedEvent_axle, hsite, hstore]
  exact ⟨hcertain, rfl⟩

/-- What the crossing of an activation tells ahead of occupancy. -/
theorem activationCrossing_notes :
    (activationCrossing line el stamp t0 dt dir s).notes =
      (applyCrossing { line := line, dir := dir, opened := t0, dt := dt } (pairedEvent .idle line el stamp s)).1.notes ++
        [.axleCrossing line dir (crossingSpeed s.site.treadle.separation dt)
          (applyCrossing { line := line, dir := dir, opened := t0, dt := dt }
            (pairedEvent .idle line el stamp s)).2.1
          (activationCrossing line el stamp t0 dt dir s).st.axle.certain] := by
  obtain ⟨-, -, hsite, -⟩ := pairedEvent_keeps (line := line) (el := el) (stamp := stamp) (s := s) .idle
  rw [activationCrossing, crossedEvent_notes, hsite]
  rfl

theorem activationCrossing_axle : (activationCrossing line el stamp t0 dt dir s).st.axle =
    (applyCrossing { line := line, dir := dir, opened := t0, dt := dt }
      (pairedEvent .idle line el stamp s)).1.st.axle := rfl

theorem OccupancyFormed.certain {e : Ev} (h : OccupancyFormed s e quiet t) : t.axle.certain = e.st.axle.certain := by
  rw [h.axle]

theorem crossing_of_moved {m : AxleMap} {a : Nat} (hcertain : s.axle.certain = true) (hm : m.certain = true)
    (heffect : crossingEffect s.store.config.deckCount s.site.treadle.separation
      { line := line, dir := dir, opened := t0, dt := dt } (pairedMap .idle line el stamp s.axle) = .moved m a)
    (hform : OccupancyFormed s (activationCrossing line el stamp t0 dt dir s) quiet t) :
    CrossingMoved s line dir dt
      (if mayClear s.store.config.deckCount { line := line, dir := dir, opened := t0, dt := dt } then m.clearIfGone
        else m) a t := by
  obtain ⟨hcertain', hmeets⟩ := crossing_meets (line := line) (el := el) (stamp := stamp) (t0 := t0) (dt := dt)
    (dir := dir) hcertain
  have happly := applyCrossing_of_moved hcertain' (hmeets.trans heffect)
  obtain ⟨-, -, -, -, hstore, -, -, hnotes⟩ :=
    pairedEvent_keeps (line := line) (el := el) (stamp := stamp) (s := s) .idle
  rw [hstore] at happly
  have haxle := activationCrossing_axle (line := line) (el := el) (stamp := stamp) (t0 := t0) (dt := dt) (dir := dir)
    (s := s)
  rw [happly] at haxle
  have htold := activationCrossing_notes (line := line) (el := el) (stamp := stamp) (t0 := t0) (dt := dt) (dir := dir)
    (s := s)
  rw [happly, ← hform.certain] at htold
  have htaxle := hform.axle
  rw [haxle] at htaxle
  constructor
  case told =>
    have hraised := hform.raised
    rw [htold] at hraised
    refine Eq.mp (congrArg (fun ns => s.raisedFirst (ns ++ _ ++ _) _ t) ?_) hraised
    rw [List.append_nil]
    exact hnotes.trans levelEvent_notes
  case certain =>
    rw [hform.certain, haxle]
    obtain ⟨-, hclear, -⟩ := m.clearIfGone_keeps
    change (if mayClear s.store.config.deckCount _ then m.clearIfGone else m).certain = true
    split_ifs
    · exact hclear.trans hm
    · exact hm
  case axle =>
    rw [htaxle]
    rfl

theorem crossing_of_lost {cause : LossCause} (hcertain : s.axle.certain = true)
    (heffect : crossingEffect s.store.config.deckCount s.site.treadle.separation
      { line := line, dir := dir, opened := t0, dt := dt } (pairedMap .idle line el stamp s.axle) = .lost cause)
    (hform : OccupancyFormed s (activationCrossing line el stamp t0 dt dir s) quiet t) :
    CrossingLost s line dir dt cause t ∧ (cause = .phantom → (t.axle.lines.get line).code = .phantom) := by
  obtain ⟨hcertain', hmeets⟩ := crossing_meets (line := line) (el := el) (stamp := stamp) (t0 := t0) (dt := dt)
    (dir := dir) hcertain
  have happly := applyCrossing_of_lost hcertain' (hmeets.trans heffect)
  obtain ⟨-, -, -, -, -, -, -, hnotes⟩ :=
    pairedEvent_keeps (line := line) (el := el) (stamp := stamp) (s := s) .idle
  have haxle := activationCrossing_axle (line := line) (el := el) (stamp := stamp) (t0 := t0) (dt := dt) (dir := dir)
    (s := s)
  have htold := activationCrossing_notes (line := line) (el := el) (stamp := stamp) (t0 := t0) (dt := dt) (dir := dir)
    (s := s)
  rw [happly] at haxle
  rw [happly, ← hform.certain] at htold
  dsimp only at haxle htold
  generalize hfault : (if cause = .phantom then phantomFault line (pairedEvent .idle line el stamp s)
    else pairedEvent .idle line el stamp s) = e1 at haxle htold
  have hcertain1 : e1.st.axle.certain = true := by
    subst hfault
    split_ifs <;> exact hcertain'
  have hnotes1 : e1.notes = (if line.val = 0 ∧ s.acq.scale = .standby then [.scaleState .warmup .standby] else []) ++
      if cause = .phantom then [.treadleFault line .phantom] else [] := by
    rw [← levelEvent_notes, ← hnotes, ← hfault]
    split_ifs
    · rfl
    · exact (List.append_nil _).symm
  have hcode : cause = .phantom → (e1.st.axle.lines.get line).code = .phantom := by
    intro hphantom
    rw [← hfault, if_pos hphantom]
    exact congrArg TreadleLine.code (Bank.get_set_self ..)
  rw [loseCertainty_axle, if_pos hcertain1] at haxle
  obtain ⟨hc, hcause, hent, hexc, hex, hcomp, hrev, -, -, hlines, hdecks⟩ := AxleMap.lose_record cause e1.st.axle
  have htaxle := hform.axle
  rw [haxle] at htaxle
  refine ⟨⟨?told, ?_⟩, fun hphantom => ?code⟩
  case told =>
    have hraised := hform.raised
    rw [htold, loseCertainty_notes, if_pos hcertain1, hnotes1] at hraised
    refine Eq.mp (congrArg (fun ns => s.raisedFirst (ns ++ _ ++ _) _ t) ?_) hraised
    exact List.append_assoc ..
  case code => rw [htaxle]; exact hcode hphantom
  · rw [htaxle]
    exact ⟨hc, hcause, hent, hexc, hex, hcomp, hrev, hdecks⟩

end

end Sys2Proof.Machine

/-! PROOFS. The rows of a crossing on a CERTAIN map (R61, R63, R65 to R68, R70). -/

namespace Sys2Proof.Machine

/-! ## The vehicle record behind a crossing (R70) -/

theorem mayClear_forward {n dt t0 : Nat} {line : LineNo} (h : line.val ≠ n) :
    mayClear n { line := line, dir := .forward, opened := t0, dt := dt } = false := by
  simp [mayClear, h]

theorem mayClear_entry {n dt t0 : Nat} {line : LineNo} (h : line.val = 0) :
    mayClear n { line := line, dir := .forward, opened := t0, dt := dt } = false := by
  simp [mayClear, h]

theorem mayClear_exit {n dt t0 : Nat} {line : LineNo} (h : line.val = n) (hpos : line.val ≠ 0) :
    mayClear n { line := line, dir := .forward, opened := t0, dt := dt } = true := by
  subst h
  simp [mayClear, Nat.pos_of_ne_zero hpos]

theorem mayClear_backward {n dt t0 : Nat} {line : LineNo} (h : line.val ≠ 0) :
    mayClear n { line := line, dir := .backward, opened := t0, dt := dt } = false := decide_eq_false h

theorem mayClear_backwardEntry {n dt t0 : Nat} {line : LineNo} (h : line.val = 0) :
    mayClear n { line := line, dir := .backward, opened := t0, dt := dt } = true := decide_eq_true h

/-- Nothing is left between clear loops once deck `k` holds `r` (R70). -/
def AxleMap.GoneWith (m : AxleMap) (k : Deck) (r : List Axle) : Prop :=
  r = [] ∧ (∀ d, d ≠ k → m.decks.get d = []) ∧ m.loopEntry = false ∧ m.loopExit = false

theorem Bank.forall_set_iff {α : Type} {n : Nat} (b : Bank α n) (k : Fin n) (x y : α) :
    (∀ d, (b.set k x).get d = y) ↔ x = y ∧ ∀ d, d ≠ k → b.get d = y := by
  refine ⟨fun h => ⟨?_, fun d hd => ?_⟩, fun ⟨hx, hb⟩ d => ?_⟩
  · rw [← h k, Bank.get_set_self]
  · rw [← h d, Bank.get_set_of_ne _ (Ne.symm hd)]
  · by_cases hd : d = k
    · rw [hd, Bank.get_set_self, hx]
    · rw [Bank.get_set_of_ne _ (Ne.symm hd), hb d hd]

/-- A crossing behind which the vehicle record may be cleared: it is, where nothing is left (R65, R66, R70). -/
theorem CrossingMoved.clears {s t : State} {line : LineNo} {dir : Direction} {dt a : Nat} {m : AxleMap} {k : Deck}
    {r : List Axle} (h : CrossingMoved s line dir dt m.clearIfGone a t) (hcertain : m.certain = true)
    (hdecks : m.decks = s.axle.decks.set k r) (hentry : m.loopEntry = s.axle.loopEntry)
    (hexit : m.loopExit = s.axle.loopExit) :
    (s.axle.GoneWith k r → CrossingMoved s line dir dt m.clearVehicle a t) ∧
      (¬s.axle.GoneWith k r → CrossingMoved s line dir dt m a t) ∧ t.axle.decks = s.axle.decks.set k r := by
  have hempty : m.isEmpty = true ↔ r = [] ∧ ∀ d, d ≠ k → s.axle.decks.get d = [] := by
    rw [AxleMap.isEmpty_iff, hdecks, Bank.forall_set_iff]
  have hclear : m.loopsClear = true ↔ s.axle.loopEntry = false ∧ s.axle.loopExit = false := by
    rw [AxleMap.loopsClear_iff, hentry, hexit]
  refine ⟨fun ⟨hr, hothers, hloops⟩ => ?_, fun hstays => ?_, ?_⟩
  · rw [AxleMap.clearIfGone_of_gone m hcertain (hempty.mpr ⟨hr, hothers⟩) (hclear.mpr hloops)] at h
    exact h
  · rw [AxleMap.clearIfGone_of_not_gone m fun ⟨_, he, hl⟩ =>
      hstays ⟨(hempty.mp he).1, (hempty.mp he).2, hclear.mp hl⟩] at h
    exact h
  · rw [h.axle]
    exact m.clearIfGone_keeps.1.trans hdecks

section
variable {line : LineNo} {stamp t0 : Nat} {s t : State} {quiet : Prop}

/-- The crossing of an activation in its direction. -/
def crossingOf (line : LineNo) (dir : Direction) (stamp t0 : Nat) : Crossing :=
  { line := line, dir := dir, opened := t0, dt := stamp - t0 }

/-! ## Forward (R65) -/

section forward
variable (hcertain : s.axle.certain = true)
  (hform : OccupancyFormed s (activationCrossing line .b stamp t0 (stamp - t0) .forward s) quiet t)
include hcertain hform

/-- An axle enters behind the others of its vehicle (R61, R63, R65). -/
theorem crossing_enters (hline : line.val = 0) (hcomplete : s.axle.entryComplete = false) (hroom : s.axle.entered < 24) :
    CrossingMoved s line .forward (stamp - t0)
      { pairedMap .idle line .b stamp s.axle with
        decks := s.axle.decks.set 0 (s.axle.decks.get 0 ++
          [newAxle s.axle s.site.treadle.separation (s.axle.entered + 1) (crossingOf line .forward stamp t0)])
        entered := s.axle.entered + 1, reversal := false } (s.axle.entered + 1) t := by
  have hmoved := crossing_of_moved (m := { pairedMap .idle line .b stamp s.axle with
      decks := s.axle.decks.set 0 (s.axle.decks.get 0 ++
        [newAxle s.axle s.site.treadle.separation (s.axle.entered + 1) (crossingOf line .forward stamp t0)])
      entered := s.axle.entered + 1, reversal := false }) (a := s.axle.entered + 1) hcertain hcertain
    ((crossingEffect_enter rfl hline).trans (enterAxle_of_room hcomplete hroom)) hform
  rw [mayClear_entry hline] at hmoved
  exact hmoved

/-- Axle 1 of a new vehicle enters an empty map behind a complete one (R67). -/
theorem crossing_enters_next (hline : line.val = 0) (hcomplete : s.axle.entryComplete = true)
    (hempty : ∀ d, s.axle.decks.get d = []) : CrossingMoved s line .forward (stamp - t0)
      { (pairedMap .idle line .b stamp s.axle).clearVehicle with
        decks := s.axle.decks.set 0
          [newAxle s.axle.clearVehicle s.site.treadle.separation 1 (crossingOf line .forward stamp t0)]
        entered := 1 } 1 t := by
  have hlist : s.axle.decks.get 0 ++
      [newAxle s.axle.clearVehicle s.site.treadle.separation 1 (crossingOf line .forward stamp t0)] =
      [newAxle s.axle.clearVehicle s.site.treadle.separation 1 (crossingOf line .forward stamp t0)] := by
    rw [hempty 0]
    rfl
  have hmoved := crossing_of_moved (m := { (pairedMap .idle line .b stamp s.axle).clearVehicle with
      decks := s.axle.decks.set 0 (s.axle.decks.get 0 ++
        [newAxle s.axle.clearVehicle s.site.treadle.separation 1 (crossingOf line .forward stamp t0)])
      entered := 1 }) (a := 1) hcertain hcertain
    ((crossingEffect_enter rfl hline).trans
      (enterAxle_of_next hcomplete ((AxleMap.isEmpty_iff _).mpr hempty))) hform
  rw [mayClear_entry hline, hlist] at hmoved
  exact hmoved

theorem crossing_second_vehicle (hline : line.val = 0) (hcomplete : s.axle.entryComplete = true)
    (hheld : ∃ d, s.axle.decks.get d ≠ []) : CrossingLost s line .forward (stamp - t0) .secondVehicle t :=
  (crossing_of_lost hcertain ((crossingEffect_enter rfl hline).trans (enterAxle_of_second hcomplete fun h =>
    hheld.elim fun d hd => hd ((AxleMap.isEmpty_iff _).mp h d))) hform).1

theorem crossing_overflow (hline : line.val = 0) (hcomplete : s.axle.entryComplete = false)
    (hfull : 24 ≤ s.axle.entered) : CrossingLost s line .forward (stamp - t0) .overflow t :=
  (crossing_of_lost hcertain ((crossingEffect_enter rfl hline).trans (enterAxle_of_overflow hcomplete hfull)) hform).1

section
variable {k : Deck} (hk : line.val = k.val + 1)
include hk

/-- The front axle of a deck moves over the joint (R65). -/
theorem crossing_forwardJoint {k' : Deck} {a : Axle} {r : List Axle} (hk' : k'.val = k.val + 1)
    (hn : line.val < s.store.config.deckCount) (hr : s.axle.decks.get k = a :: r) :
    CrossingMoved s line .forward (stamp - t0)
      { pairedMap .idle line .b stamp s.axle with
        decks := (s.axle.decks.set k r).set k' (s.axle.decks.get k' ++ [a]) } a.number t := by
  have hmoved := crossing_of_moved (m := { pairedMap .idle line .b stamp s.axle with
      decks := (s.axle.decks.set k r).set k' (s.axle.decks.get k' ++ [a]) }) hcertain hcertain
    ((crossingEffect_forwardJoint rfl (ne_of_eq_of_ne hk (Nat.succ_ne_zero _)) hn).trans
      (forwardJoint_of_cons hk hk' hr)) hform
  rw [mayClear_forward hn.ne] at hmoved
  exact hmoved

/-- The front axle of deck N leaves the bridge (R65, R70). -/
theorem crossing_forwardExit {a : Axle} {r : List Axle} (hn : line.val = s.store.config.deckCount)
    (hr : s.axle.decks.get k = a :: r) : CrossingMoved s line .forward (stamp - t0)
      ({ pairedMap .idle line .b stamp s.axle with
        decks := s.axle.decks.set k r, exited := s.axle.exited ++ [a]
        exitedCount := s.axle.exitedCount + 1 } : AxleMap).clearIfGone a.number t := by
  have hline : line.val ≠ 0 := ne_of_eq_of_ne hk (Nat.succ_ne_zero _)
  have hmoved := crossing_of_moved (m := { pairedMap .idle line .b stamp s.axle with
      decks := s.axle.decks.set k r, exited := s.axle.exited ++ [a], exitedCount := s.axle.exitedCount + 1 })
    hcertain hcertain
    ((crossingEffect_forwardExit rfl hline hn).trans (forwardExit_of_cons (hn ▸ hk) hr)) hform
  rw [mayClear_exit hn hline] at hmoved
  exact hmoved

theorem crossing_forwardPhantom (hn : line.val ≤ s.store.config.deckCount) (hr : s.axle.decks.get k = []) :
    CrossingLost s line .forward (stamp - t0) .phantom t ∧ (t.axle.lines.get line).code = .phantom := by
  have hline : line.val ≠ 0 := ne_of_eq_of_ne hk (Nat.succ_ne_zero _)
  have hlost := fun heffect => crossing_of_lost (cause := .phantom) hcertain heffect hform
  obtain hlt | heq := Nat.lt_or_eq_of_le hn
  · exact (hlost ((crossingEffect_forwardJoint rfl hline hlt).trans (forwardJoint_of_nil hk hr))).imp_right (· rfl)
  · exact (hlost ((crossingEffect_forwardExit rfl hline heq).trans
      (forwardExit_of_nil (heq ▸ hk) hr))).imp_right (· rfl)

end

end forward

/-! ## Backward (R66) -/

section backward
variable (hcertain : s.axle.certain = true)
  (hform : OccupancyFormed s (activationCrossing line .a stamp t0 (stamp - t0) .backward s) quiet t)
include hcertain hform

/-- The rear axle of deck 1 leaves the bridge backward (R66, R70). -/
theorem crossing_backwardEntry {a : Axle} {r : List Axle} (hline : line.val = 0)
    (hr : s.axle.decks.get 0 = r ++ [a]) : CrossingMoved s line .backward (stamp - t0)
      ({ pairedMap .idle line .a stamp s.axle with
        decks := s.axle.decks.set 0 r, entered := s.axle.entered - 1, reversal := true
        entryComplete := false } : AxleMap).clearIfGone a.number t := by
  have hmoved := crossing_of_moved (m := { pairedMap .idle line .a stamp s.axle with
      decks := s.axle.decks.set 0 r, entered := s.axle.entered - 1, reversal := true, entryComplete := false })
    hcertain hcertain ((crossingEffect_backwardEntry rfl hline).trans (backwardEntry_of_snoc hr)) hform
  rw [mayClear_backwardEntry hline] at hmoved
  exact hmoved

theorem crossing_backwardEntryPhantom (hline : line.val = 0) (hr : s.axle.decks.get 0 = []) :
    CrossingLost s line .backward (stamp - t0) .phantom t ∧ (t.axle.lines.get line).code = .phantom :=
  (crossing_of_lost (cause := .phantom) hcertain
    ((crossingEffect_backwardEntry rfl hline).trans (backwardEntry_of_nil hr)) hform).imp_right (· rfl)

section
variable (hline : line.val ≠ 0)
include hline

/-- The rear axle of a deck moves back over the joint (R66). -/
theorem crossing_backwardJoint {k k' : Deck} {a : Axle} {r : List Axle} (hk : line.val = k.val + 1)
    (hk' : k'.val = k.val + 1) (hn : line.val < s.store.config.deckCount) (hr : s.axle.decks.get k' = r ++ [a]) :
    CrossingMoved s line .backward (stamp - t0)
      { pairedMap .idle line .a stamp s.axle with
        decks := (s.axle.decks.set k' r).set k (a :: s.axle.decks.get k) } a.number t := by
  have hmoved := crossing_of_moved (m := { pairedMap .idle line .a stamp s.axle with
      decks := (s.axle.decks.set k' r).set k (a :: s.axle.decks.get k) }) hcertain hcertain
    ((crossingEffect_backwardJoint rfl hline hn).trans (backwardJoint_of_snoc hk hk' hr)) hform
  rw [mayClear_backward hline] at hmoved
  exact hmoved

/-- The last axle that left comes back onto deck N (R66). -/
theorem crossing_backwardExit {k : Deck} {a : Axle} {r : List Axle} (hk : line.val = k.val + 1)
    (hn : line.val = s.store.config.deckCount) (hr : s.axle.exited = r ++ [a]) :
    CrossingMoved s line .backward (stamp - t0)
      { pairedMap .idle line .a stamp s.axle with
        exited := r, exitedCount := s.axle.exitedCount - 1
        decks := s.axle.decks.set k (a :: s.axle.decks.get k) } a.number t := by
  have hmoved := crossing_of_moved (m := { pairedMap .idle line .a stamp s.axle with
      exited := r, exitedCount := s.axle.exitedCount - 1
      decks := s.axle.decks.set k (a :: s.axle.decks.get k) }) hcertain hcertain
    ((crossingEffect_backwardExit rfl hline hn).trans (backwardExit_of_snoc (hn ▸ hk) hr)) hform
  rw [mayClear_backward hline] at hmoved
  exact hmoved

theorem crossing_backwardJointPhantom {k' : Deck} (hk' : line.val = k'.val) (hn : line.val < s.store.config.deckCount)
    (hr : s.axle.decks.get k' = []) :
    CrossingLost s line .backward (stamp - t0) .phantom t ∧ (t.axle.lines.get line).code = .phantom :=
  (crossing_of_lost (cause := .phantom) hcertain
    ((crossingEffect_backwardJoint rfl hline hn).trans (backwardJoint_of_nil hk' hr)) hform).imp_right (· rfl)

theorem crossing_backwardExitPhantom (hn : line.val = s.store.config.deckCount) (hr : s.axle.exited = []) :
    CrossingLost s line .backward (stamp - t0) .phantom t ∧ (t.axle.lines.get line).code = .phantom :=
  (crossing_of_lost (cause := .phantom) hcertain
    ((crossingEffect_backwardExit rfl hline hn).trans (backwardExit_of_nil hr)) hform).imp_right (· rfl)

end

end backward

end

/-! ## The obligation -/

section
variable {s t : State} {line : LineNo} {dir : Direction} {dt a : Nat} {m : AxleMap}

/-- The decks that a crossing does not touch. -/
theorem CrossingMoved.others (h : CrossingMoved s line dir dt m a t) {k k' : Deck}
    (hdecks : ∀ d, d ≠ k → d ≠ k' → m.decks.get d = s.axle.decks.get d) :
    s.crossingTold line dir dt t (some a) [] ∧ t.axle.certain = true ∧
      ∀ d, d ≠ k → d ≠ k' → t.axle.decks.get d = s.axle.decks.get d := by
  refine ⟨h.told, h.certain, fun d hd hd' => ?_⟩
  rw [h.axle]
  exact hdecks d hd hd'

end

/-- Two decks written leave the others. -/
theorem Bank.get_set_set_of_ne {α : Type} {n : Nat} (b : Bank α n) {k k' d : Fin n} (x y : α) (hk : d ≠ k)
    (hk' : d ≠ k') : ((b.set k x).set k' y).get d = b.get d := by
  rw [Bank.get_set_of_ne _ hk'.symm, Bank.get_set_of_ne _ hk.symm]

/-- Settles O36: every row is the effect of its crossing on the lists, told with the notices of R59, R68 and R73. -/
theorem crossingApplied : Obligations.CrossingApplied := by
  intro line el stamp t0 ok s hsupply hlevel hdecoded hfirst hstamp hcertain p n dt speed placed told lost cleared gone
    others
  refine ⟨fun hel hp => ?forward, fun hel hp => ?backward⟩
  case forward =>
    subst hel
    obtain ⟨t, hexec, hform⟩ := exec_activation_of_crossing (ok := ok) hsupply hlevel hdecoded
      (pairStep_partner (Or.inl ⟨rfl, hp⟩) hstamp)
    refine ⟨t, hexec, fun hnone => hform.exit (Or.inr hnone), fun hline hcomplete hroom => ?enters,
      fun hline hcomplete hempty => ?next, crossing_second_vehicle hcertain hform,
      crossing_overflow hcertain hform, fun k k' a r hk hk' hn hr => ?joint, fun k a r hk hn hr => ?exit,
      fun k hk hn hr => crossing_forwardPhantom hcertain hform hk hn hr⟩
    case enters =>
      have hmoved := crossing_enters hcertain hform hline hcomplete hroom
      refine ⟨newAxle s.axle s.site.treadle.separation (s.axle.entered + 1) (crossingOf line .forward stamp t0),
        rfl, rfl, rfl, newAxle_speedHigh, rfl, fun hone => newAxle_first hone.le, newAxle_uncertain,
        fun hlater b hb hnumber hunique => ?spacing, ?list, hmoved.others fun d hd _ => ?deck, ?entered, ?reversal⟩
      case spacing => exact newAxle_spacing hlater (AxleMap.record_of_unique hb hnumber hunique)
      case list => rw [hmoved.axle]; exact Bank.get_set_self ..
      case deck => exact Bank.get_set_of_ne _ (Ne.symm hd) _
      case entered => rw [hmoved.axle]
      case reversal => rw [hmoved.axle]
    case next =>
      have hmoved := crossing_enters_next hcertain hform hline hcomplete hempty
      obtain ⟨hspacing, hboundary⟩ := newAxle_first (m := s.axle.clearVehicle) (sep := s.site.treadle.separation)
        (c := crossingOf line .forward stamp t0) (Nat.le_refl 1)
      refine ⟨newAxle s.axle.clearVehicle s.site.treadle.separation 1 (crossingOf line .forward stamp t0),
        rfl, rfl, rfl, rfl, hspacing, hboundary, ?list, hmoved.others fun d hd _ => ?deck, ?record⟩
      case list => rw [hmoved.axle]; exact Bank.get_set_self ..
      case deck => exact Bank.get_set_of_ne _ (Ne.symm hd) _
      case record => rw [hmoved.axle]; exact ⟨rfl, rfl, rfl, rfl, rfl⟩
    case joint =>
      have hmoved := crossing_forwardJoint hcertain hform hk hk' hn hr
      have hne : k' ≠ k := fun h => by rw [h] at hk'; omega
      refine ⟨?source, ?target, hmoved.others fun d hd hd' => Bank.get_set_set_of_ne _ _ _ hd hd', ?entered, ?exited⟩
      case source => rw [hmoved.axle]; exact (Bank.get_set_of_ne _ hne _).trans (Bank.get_set_self ..)
      case target => rw [hmoved.axle]; exact Bank.get_set_self ..
      case entered => rw [hmoved.axle]; rfl
      case exited => rw [hmoved.axle]; rfl
    case exit =>
      have hmoved := crossing_forwardExit hcertain hform hk hn hr
      obtain ⟨hgoes, hstays, hdecks⟩ := hmoved.clears (k := k) (r := r) hcertain rfl rfl rfl
      refine ⟨?source, ⟨hmoved.told, hmoved.certain, fun d hd _ => ?deck⟩, fun hgone => ?gone, fun h => ?stays⟩
      case source => rw [hdecks]; exact Bank.get_set_self ..
      case deck => rw [hdecks]; exact Bank.get_set_of_ne _ (Ne.symm hd) _
      case gone =>
        dsimp only [cleared]
        rw [(hgoes hgone).axle]
        exact ⟨rfl, rfl, rfl, rfl, rfl⟩
      case stays =>
        rw [(hstays h).axle]
        exact ⟨rfl, rfl, rfl, rfl⟩
  case backward =>
    subst hel
    obtain ⟨t, hexec, hform⟩ := exec_activation_of_crossing (ok := ok) hsupply hlevel hdecoded
      (pairStep_partner (Or.inr ⟨rfl, hp⟩) hstamp)
    refine ⟨t, hexec, fun hnone => hform.exit (Or.inr hnone), fun a r hline hr => ?entry,
      fun k k' a r hk hk' hn hr => ?joint, fun k a r hk hn hr => ?exit,
      crossing_backwardEntryPhantom hcertain hform,
      fun k' hk' hpos hn hr => crossing_backwardJointPhantom hcertain hform hpos.ne' hk' hn hr,
      fun hpos hn hr => crossing_backwardExitPhantom hcertain hform hpos.ne' hn hr⟩
    case entry =>
      have hmoved := crossing_backwardEntry hcertain hform hline hr
      obtain ⟨hgoes, hstays, hdecks⟩ := hmoved.clears (k := 0) (r := r) hcertain rfl rfl rfl
      refine ⟨?source, ⟨hmoved.told, hmoved.certain, fun d hd _ => ?deck⟩, ?complete, fun hgone => ?gone,
        fun h => ?stays⟩
      case source => rw [hdecks]; exact Bank.get_set_self ..
      case deck => rw [hdecks]; exact Bank.get_set_of_ne _ (Ne.symm hd) _
      case complete =>
        by_cases hgone : s.axle.GoneWith 0 r
        · rw [(hgoes hgone).axle]
          rfl
        · rw [(hstays hgone).axle]
      case gone =>
        dsimp only [cleared]
        rw [(hgoes hgone).axle]
        exact ⟨rfl, rfl, rfl, rfl, rfl⟩
      case stays =>
        rw [(hstays h).axle]
        exact ⟨rfl, rfl, rfl, rfl⟩
    case joint =>
      have hmoved := crossing_backwardJoint hcertain hform (ne_of_eq_of_ne hk (Nat.succ_ne_zero _)) hk hk' hn hr
      have hne : k ≠ k' := fun h => by rw [h] at hk'; omega
      refine ⟨?source, ?target, hmoved.others fun d hd hd' => Bank.get_set_set_of_ne _ _ _ hd' hd, ?entered, ?exited⟩
      case source => rw [hmoved.axle]; exact (Bank.get_set_of_ne _ hne _).trans (Bank.get_set_self ..)
      case target => rw [hmoved.axle]; exact Bank.get_set_self ..
      case entered => rw [hmoved.axle]; rfl
      case exited => rw [hmoved.axle]; rfl
    case exit =>
      have hmoved := crossing_backwardExit hcertain hform (ne_of_eq_of_ne hk (Nat.succ_ne_zero _)) hk hn hr
      refine ⟨?exited, ?count, ?target, hmoved.others fun d hd _ => Bank.get_set_of_ne _ (Ne.symm hd) _, ?entered⟩
      case exited => rw [hmoved.axle]
      case count => rw [hmoved.axle]
      case target => rw [hmoved.axle]; exact Bank.get_set_self ..
      case entered => rw [hmoved.axle]; rfl

end Sys2Proof.Machine

/-! PROOFS. The counts of the axle map unit at a sample event (R71, R72). -/

namespace Sys2Proof.Machine

/-! ## The tests of the two counts (R71, R72) -/

/-- The result is a VALUE whose bridge total has `p`. -/
def SampleResult.TotalWith (r : SampleResult) (p : Nat → Prop) : Prop :=
  ∃ decks t gross zone, r = .value decks t gross zone ∧ p t.natAbs

theorem SampleResult.totalWith_iff {r : SampleResult} {p : Nat → Prop} :
    r.TotalWith p ↔ ∃ t, r.total? = some t ∧ p t.natAbs := by
  refine ⟨fun ⟨decks, t, gross, zone, hr, hp⟩ => ⟨t, by rw [hr]; rfl, hp⟩, fun ⟨t, ht, hp⟩ => ?_⟩
  cases r with
  | value decks total gross zone =>
    cases ht
    exact ⟨decks, t, gross, zone, rfl, hp⟩
  | scaleNotRunning => cases ht
  | uncalibrated => cases ht
  | deckDown => cases ht

/-- The hidden-load test (R71). -/
def HidesLoad (m : AxleMap) (eHg : Nat) (r : SampleResult) : Prop :=
  (m.loopEntry = false ∧ m.loopExit = false) ∧ (∀ d, m.decks.get d = []) ∧ r.TotalWith (20 * eHg < ·)

/-- The recovery test (R72). -/
def ShowsClear (m : AxleMap) (eHg : Nat) (r : SampleResult) : Prop :=
  (m.loopEntry = false ∧ m.loopExit = false) ∧ r.TotalWith (· ≤ 20 * eHg)

section
variable {m : AxleMap} {eHg : Nat} {r : SampleResult}

theorem hidesLoad_iff : HidesLoad m eHg r ↔
    (match r.total? with
      | some t => hiddenLoadHolds m eHg t
      | none => false) = true := by
  rw [HidesLoad, SampleResult.totalWith_iff]
  cases r.total? with
  | none => simp
  | some t =>
    simp [hiddenLoadHolds, AxleMap.isEmpty_iff, AxleMap.loopsClear_iff]
    tauto

theorem showsClear_iff : ShowsClear m eHg r ↔
    (match r.total? with
      | some t => recoveryHolds m eHg t
      | none => false) = true := by
  rw [ShowsClear, SampleResult.totalWith_iff]
  cases r.total? with
  | none => simp
  | some t => simp [recoveryHolds, AxleMap.loopsClear_iff]

end

section
variable {r : SampleResult} {e : Ev}

theorem serveHiddenLoad_of_not (h : ¬HidesLoad e.st.axle e.st.store.config.eHg r) : serveHiddenLoad r e =
    (e.upd fun s => s.setAxle { s.axle with hiddenCount := 0 }, none) := by
  rw [hidesLoad_iff, Bool.not_eq_true] at h
  exact if_pos ((congrArg Bool.not h).trans rfl)

theorem serveRecovery_of_not (h : ¬ShowsClear e.st.axle e.st.store.config.eHg r) : serveRecovery r e =
    e.upd fun s => s.setAxle { s.axle with recoveryCount := 0 } := by
  rw [showsClear_iff, Bool.not_eq_true] at h
  exact if_pos ((congrArg Bool.not h).trans rfl)

section
variable (h : HidesLoad e.st.axle e.st.store.config.eHg r)
include h

theorem serveHiddenLoad_of_below (hcount : e.st.axle.hiddenCount < 49) : serveHiddenLoad r e =
    (e.upd fun s => s.setAxle { s.axle with hiddenCount := s.axle.hiddenCount + 1 }, none) := by
  rw [hidesLoad_iff] at h
  exact (if_neg (ne_true_of_eq_false ((congrArg Bool.not h).trans rfl))).trans (if_neg (by omega))

theorem serveHiddenLoad_of_reached (hcount : 49 ≤ e.st.axle.hiddenCount) : serveHiddenLoad r e =
    ((loseCertainty .hiddenLoad none e).mark .hiddenLoad, some .hiddenLoad) := by
  rw [hidesLoad_iff] at h
  exact (if_neg (ne_true_of_eq_false ((congrArg Bool.not h).trans rfl))).trans (if_pos (by omega))

end

section
variable (h : ShowsClear e.st.axle e.st.store.config.eHg r)
include h

theorem serveRecovery_of_below (hcount : e.st.axle.recoveryCount < 49) : serveRecovery r e =
    e.upd fun s => s.setAxle { s.axle with recoveryCount := s.axle.recoveryCount + 1 } := by
  rw [showsClear_iff] at h
  exact (if_neg (ne_true_of_eq_false ((congrArg Bool.not h).trans rfl))).trans (if_neg (by omega))

theorem serveRecovery_of_reached (hcount : 49 ≤ e.st.axle.recoveryCount) : serveRecovery r e =
    (e.upd fun s => s.setAxle { s.axle with certain := true, recoveryCount := 0 }).mark .mapRecovery := by
  rw [showsClear_iff] at h
  exact (if_neg (ne_true_of_eq_false ((congrArg Bool.not h).trans rfl))).trans (if_pos (by omega))

end

theorem serveMap_of_certain (ok : Bool) (h : e.st.axle.certain = true) : serveMap ok r e =
    formOccupancy ok e.st.axle false (serveHiddenLoad r e).2 (serveHiddenLoad r e).1 := if_pos h

theorem serveMap_of_uncertain (ok : Bool) (h : e.st.axle.certain = false) : serveMap ok r e =
    formOccupancy ok e.st.axle false none (serveRecovery r e) := if_neg (by simp [h])

end

/-! ## The axle map unit at a sample event (R73) -/

/-- The event at which the zero and motion unit has served the result. -/
def zeroedAt (inp : SampleInput) (s : State) : Ev := serveZero (resultAt inp s) (acquiredAt inp s)

/-- The event at which the axle map unit has served the result. -/
def mappedAt (inp : SampleInput) (s : State) : Ev := serveMap inp.storeOk (resultAt inp s) (zeroedAt inp s)

section
variable {inp : SampleInput} {s : State}

theorem zeroedAt_axle : (zeroedAt inp s).st.axle = s.axle := by simp [zeroedAt, acquiredAt]

theorem zeroedAt_store : (zeroedAt inp s).st.store = s.store := by simp [zeroedAt, acquiredAt]

theorem zeroedAt_latest : (zeroedAt inp s).st.zm.latest = (sampled inp s).st.zm.latest := by
  rw [sampled_latest, zeroedAt, serveZero_latest, acquiredAt_sampleNumber, acquiredAt_store]
  rfl

/-- Behind the axle map unit a sample event leaves the map. -/
theorem sampled_axle : (sampled inp s).st.axle = (mappedAt inp s).st.axle := by
  change (warmupEnd (serveResult _ _ _ _)).st.axle = _
  unfold serveResult
  simp only [warmupEnd_keeps, serveAuditIdle_keeps, serveAdjustIdle_keeps, serveStep_keeps, serveCalibration_keeps,
    serveOperation_keeps]
  rfl

/-- Behind the axle map unit stand the notices of the capture controller and of the blocks after it, then SCALE_STATE at
the end of a warm-up (logs 12 and 14). -/
theorem sampled_notes_map : ∃ rest, (sampled inp s).notes = (mappedAt inp s).notes ++ rest ∧
    ∀ n ∈ rest, n.code = 0 ∨ 9 ≤ n.code := by
  obtain ⟨ns, hns, hcode⟩ := (serveResult_rest inp.storeOk (resultAt inp s) (acquire inp (Ev.start s)).value
    (acquiredAt inp s)).notes
  have hend := warmupEnd_notes (serveResult inp.storeOk (resultAt inp s) (acquire inp (Ev.start s)).value
    (acquiredAt inp s))
  rw [hns, List.append_assoc] at hend
  refine ⟨_, hend, fun n hn => ?_⟩
  rw [List.mem_append] at hn
  obtain hn | hn := hn
  · exact Or.inr (hcode n hn)
  · split_ifs at hn
    · rw [List.mem_singleton] at hn
      exact Or.inl (by rw [hn]; rfl)
    · cases hn

/-- A sample event whose axle map unit forms occupancy behind `e`. -/
structure MapServed (s : State) (e : Ev) (t : State) : Prop where
  axle : t.axle = { e.st.axle with occupancy := t.axle.occupancy }
  occupancy : t.axle.occupancy = occupancyOf e.st.axle t.zm.latest s.store.config.eHg
  raised : s.raisedFirst (e.notes ++ occupancyNotes s t) (fun n => n.code = 0 ∨ 9 ≤ n.code) t

theorem occupancyNotes_congr {s t u : State} (h : t.axle = u.axle) : occupancyNotes s t = occupancyNotes s u := by
  rw [occupancyNotes, h]
  rfl

theorem mapServed {e : Ev} {loss : Option LossCause}
    (hserve : mappedAt inp s = formOccupancy inp.storeOk s.axle false loss e)
    (hlatest : e.st.zm.latest = (zeroedAt inp s).st.zm.latest) (hstore : e.st.store = (zeroedAt inp s).st.store) :
    MapServed s e (afterSample inp s) := by
  have haxle : (afterSample inp s).axle = (mappedAt inp s).st.axle := afterSample_axle.trans sampled_axle
  have hform := formOccupancy_axle inp.storeOk s.axle false loss e
  rw [← hserve, ← haxle, hlatest, hstore, zeroedAt_latest, zeroedAt_store, ← afterSample_zm] at hform
  constructor
  case axle => rw [hform]
  case occupancy => rw [hform]
  case raised =>
    obtain ⟨rest, hrest, hcode⟩ := sampled_notes_map (inp := inp) (s := s)
    obtain ⟨ns, hns, hmap⟩ := formOccupancy_notes inp.storeOk s false loss e
    rw [← hserve] at hmap
    refine raisedFirst_of_notes ⟨ns ++ rest, ?_, fun n hn => ?_⟩
    · rw [hrest, hmap, occupancyNotes_congr haxle, List.append_assoc]
    · exact (List.mem_append.mp hn).elim (fun hn => Or.inr (hns n hn)) (hcode n)

end

/-! ## The rows of the counts -/

section
variable {inp : SampleInput} {s : State}

theorem exec_hiddenLoad : exec (.hiddenLoad inp) s = sampleWhen .hiddenLoad inp s := rfl

theorem exec_mapRecovery : exec (.mapRecovery inp) s = sampleWhen .mapRecovery inp s := rfl

/-- A mark of the axle map unit is found by the row of its count (log 4). -/
theorem finds_of_mapMark {m : Mark} (h : m ∈ (mappedAt inp s).marks) : finds m inp s = true :=
  finds_of_mark (Or.inr (Or.inl h))

/-- The map's notices, certainty, lists and numbers are as they were at a sample event that finds nothing. -/
def SameMap (inp : SampleInput) (s t : State) : Prop :=
  s.raisedFirst ((zeroedAt inp s).notes ++ [] ++ occupancyNotes s t) (fun n => n.code = 0 ∨ 9 ≤ n.code) t ∧
    t.axle.certain = s.axle.certain ∧ t.axle.decks = s.axle.decks ∧ t.axle.entered = s.axle.entered ∧
    t.axle.exited = s.axle.exited

/-- A sample event that changes of the map only a count. -/
theorem MapServed.same {f : AxleMap → AxleMap}
    (h : MapServed s ((zeroedAt inp s).upd fun u => u.setAxle (f u.axle)) (afterSample inp s))
    (hcertain : (f s.axle).certain = s.axle.certain) (hdecks : (f s.axle).decks = s.axle.decks)
    (hentered : (f s.axle).entered = s.axle.entered) (hexited : (f s.axle).exited = s.axle.exited) :
    SameMap inp s (afterSample inp s) ∧ (afterSample inp s).axle =
      { f s.axle with occupancy := (afterSample inp s).axle.occupancy } := by
  have haxle := h.axle
  change _ = ({ f (zeroedAt inp s).st.axle with occupancy := (afterSample inp s).axle.occupancy } : AxleMap) at haxle
  rw [zeroedAt_axle] at haxle
  refine ⟨⟨?_, ?_, ?_, ?_, ?_⟩, haxle⟩
  · rw [List.append_nil]
    exact h.raised
  · rw [haxle]; exact hcertain
  · rw [haxle]; exact hdecks
  · rw [haxle]; exact hentered
  · rw [haxle]; exact hexited

section certain
variable (hcertain : s.axle.certain = true)
include hcertain

theorem mappedAt_of_certain : mappedAt inp s = formOccupancy inp.storeOk s.axle false
    (serveHiddenLoad (resultAt inp s) (zeroedAt inp s)).2 (serveHiddenLoad (resultAt inp s) (zeroedAt inp s)).1 := by
  rw [mappedAt, serveMap_of_certain _ (by rw [zeroedAt_axle]; exact hcertain), zeroedAt_axle]

theorem hiddenCount_cleared (h : ¬HidesLoad s.axle s.store.config.eHg (resultAt inp s)) :
    MapServed s ((zeroedAt inp s).upd fun u => u.setAxle { u.axle with hiddenCount := 0 }) (afterSample inp s) := by
  have hserve := mappedAt_of_certain (inp := inp) hcertain
  rw [serveHiddenLoad_of_not (by rw [zeroedAt_axle, zeroedAt_store]; exact h)] at hserve
  exact mapServed hserve rfl rfl

variable (h : HidesLoad s.axle s.store.config.eHg (resultAt inp s))
include h

theorem hiddenCount_raised (hcount : s.axle.hiddenCount < 49) :
    MapServed s ((zeroedAt inp s).upd fun u => u.setAxle { u.axle with hiddenCount := u.axle.hiddenCount + 1 })
      (afterSample inp s) := by
  have hserve := mappedAt_of_certain (inp := inp) hcertain
  rw [serveHiddenLoad_of_below (by rw [zeroedAt_axle, zeroedAt_store]; exact h)
    (by rw [zeroedAt_axle]; exact hcount)] at hserve
  exact mapServed hserve rfl rfl

/-- The hidden-load count reaches its limit (R71). -/
theorem hiddenLoad_reached (hcount : 49 ≤ s.axle.hiddenCount) : finds .hiddenLoad inp s = true ∧
    MapServed s ((loseCertainty .hiddenLoad none (zeroedAt inp s)).mark .hiddenLoad) (afterSample inp s) := by
  have hserve := mappedAt_of_certain (inp := inp) hcertain
  rw [serveHiddenLoad_of_reached (by rw [zeroedAt_axle, zeroedAt_store]; exact h)
    (by rw [zeroedAt_axle]; exact hcount)] at hserve
  refine ⟨finds_of_mapMark ?_, mapServed hserve (by simp) (by simp)⟩
  rw [hserve]
  exact (formOccupancy_adds inp.storeOk s.axle false (some .hiddenLoad) _).marks (List.mem_cons_self ..)

end certain

section uncertain
variable (huncertain : s.axle.certain = false)
include huncertain

theorem mappedAt_of_uncertain : mappedAt inp s =
    formOccupancy inp.storeOk s.axle false none (serveRecovery (resultAt inp s) (zeroedAt inp s)) := by
  rw [mappedAt, serveMap_of_uncertain _ (by rw [zeroedAt_axle]; exact huncertain), zeroedAt_axle]

theorem recoveryCount_cleared (h : ¬ShowsClear s.axle s.store.config.eHg (resultAt inp s)) :
    MapServed s ((zeroedAt inp s).upd fun u => u.setAxle { u.axle with recoveryCount := 0 }) (afterSample inp s) := by
  have hserve := mappedAt_of_uncertain (inp := inp) huncertain
  rw [serveRecovery_of_not (by rw [zeroedAt_axle, zeroedAt_store]; exact h)] at hserve
  exact mapServed hserve rfl rfl

variable (h : ShowsClear s.axle s.store.config.eHg (resultAt inp s))
include h

theorem recoveryCount_raised (hcount : s.axle.recoveryCount < 49) :
    MapServed s ((zeroedAt inp s).upd fun u => u.setAxle { u.axle with recoveryCount := u.axle.recoveryCount + 1 })
      (afterSample inp s) := by
  have hserve := mappedAt_of_uncertain (inp := inp) huncertain
  rw [serveRecovery_of_below (by rw [zeroedAt_axle, zeroedAt_store]; exact h)
    (by rw [zeroedAt_axle]; exact hcount)] at hserve
  exact mapServed hserve rfl rfl

/-- The recovery count reaches its limit (R72). -/
theorem mapRecovery_reached (hcount : 49 ≤ s.axle.recoveryCount) : finds .mapRecovery inp s = true ∧
    MapServed s (((zeroedAt inp s).upd fun u => u.setAxle { u.axle with certain := true, recoveryCount := 0 }).mark
      .mapRecovery) (afterSample inp s) := by
  have hserve := mappedAt_of_uncertain (inp := inp) huncertain
  rw [serveRecovery_of_reached (by rw [zeroedAt_axle, zeroedAt_store]; exact h)
    (by rw [zeroedAt_axle]; exact hcount)] at hserve
  refine ⟨finds_of_mapMark ?_, mapServed hserve rfl rfl⟩
  rw [hserve]
  exact (formOccupancy_adds inp.storeOk s.axle false none _).marks (List.mem_cons_self ..)

end uncertain

/-- At every sample event the axle map unit forms occupancy anew, and it leaves the lines. -/
theorem exists_mapServed : ∃ e, MapServed s e (afterSample inp s) ∧ e.st.axle.lines = s.axle.lines := by
  have hlines : (zeroedAt inp s).st.axle.lines = s.axle.lines := congrArg AxleMap.lines zeroedAt_axle
  cases hcertain : s.axle.certain with
  | true =>
    by_cases h : HidesLoad s.axle s.store.config.eHg (resultAt inp s)
    · obtain hcount | hcount := Nat.lt_or_ge s.axle.hiddenCount 49
      · exact ⟨_, hiddenCount_raised hcertain h hcount, hlines⟩
      · exact ⟨_, (hiddenLoad_reached hcertain h hcount).2, (loseCertainty_lines ..).trans hlines⟩
    · exact ⟨_, hiddenCount_cleared hcertain h, hlines⟩
  | false =>
    by_cases h : ShowsClear s.axle s.store.config.eHg (resultAt inp s)
    · obtain hcount | hcount := Nat.lt_or_ge s.axle.recoveryCount 49
      · exact ⟨_, recoveryCount_raised hcertain h hcount, hlines⟩
      · exact ⟨_, (mapRecovery_reached hcertain h hcount).2, hlines⟩
    · exact ⟨_, recoveryCount_cleared hcertain h, hlines⟩

theorem afterSample_latest : (afterSample inp s).zm.latest = some
    { result := resultAt inp s, sampleNumber := s.acq.sampleNumber + 1, eHg := s.store.config.eHg } := by
  rw [afterSample_zm]
  exact sampled_latest inp s

/-- The map behind the row HIDDEN_LOAD (R68, R71). -/
theorem afterSample_hiddenLoad (hcertain : s.axle.certain = true)
    (h : HidesLoad s.axle s.store.config.eHg (resultAt inp s)) (hcount : 49 ≤ s.axle.hiddenCount) :
    s.raisedFirst ((zeroedAt inp s).notes ++ [.axleInconsistent .hiddenLoad none] ++
        occupancyNotes s (afterSample inp s)) (fun n => n.code = 0 ∨ 9 ≤ n.code) (afterSample inp s) ∧
      (afterSample inp s).axle =
        { s.axle.lose .hiddenLoad with occupancy := (afterSample inp s).axle.occupancy } ∧
      (afterSample inp s).axle.occupancy = .whole := by
  obtain ⟨-, hserved⟩ := hiddenLoad_reached (inp := inp) hcertain h hcount
  have hzeroed : (zeroedAt inp s).st.axle.certain = true := by rw [zeroedAt_axle]; exact hcertain
  have hnotes : ((loseCertainty .hiddenLoad none (zeroedAt inp s)).mark .hiddenLoad).notes =
      (zeroedAt inp s).notes ++ [.axleInconsistent .hiddenLoad none] :=
    (loseCertainty_notes _ _ _).trans (by rw [if_pos hzeroed])
  have haxle : ((loseCertainty .hiddenLoad none (zeroedAt inp s)).mark .hiddenLoad).st.axle =
      s.axle.lose .hiddenLoad := loseCertainty_axle.trans (by rw [if_pos hzeroed, zeroedAt_axle])
  obtain ⟨hloops, -, decks, total, gross, zone, hr, htotal⟩ := h
  refine ⟨hnotes ▸ hserved.raised, ?_, ?_⟩
  · have ht := hserved.axle
    rw [haxle] at ht
    exact ht
  · rw [hserved.occupancy, haxle]
    exact (occupancyOf_of_value rfl ((AxleMap.loopsClear_iff (s.axle.lose .hiddenLoad)).mpr hloops)
      afterSample_latest hr).trans (if_pos htotal)

/-- The map behind the row MAP_RECOVERY (R72). -/
theorem afterSample_mapRecovery (huncertain : s.axle.certain = false)
    (h : ShowsClear s.axle s.store.config.eHg (resultAt inp s)) (hcount : 49 ≤ s.axle.recoveryCount) :
    s.raisedFirst ((zeroedAt inp s).notes ++ [] ++ occupancyNotes s (afterSample inp s))
        (fun n => n.code = 0 ∨ 9 ≤ n.code) (afterSample inp s) ∧
      (afterSample inp s).axle =
        { s.axle with certain := true, recoveryCount := 0, occupancy := (afterSample inp s).axle.occupancy } ∧
      ((∀ d, s.axle.decks.get d = []) → (afterSample inp s).axle.occupancy = .empty) := by
  obtain ⟨-, hserved⟩ := mapRecovery_reached (inp := inp) huncertain h hcount
  have haxle : (((zeroedAt inp s).upd fun u => u.setAxle { u.axle with certain := true, recoveryCount := 0 }).mark
      .mapRecovery).st.axle = { s.axle with certain := true, recoveryCount := 0 } := by
    change ({ (zeroedAt inp s).st.axle with certain := true, recoveryCount := 0 } : AxleMap) = _
    rw [zeroedAt_axle]
  refine ⟨?_, ?_, fun hempty => ?_⟩
  · rw [List.append_nil]
    exact hserved.raised
  · have ht := hserved.axle
    rw [haxle] at ht
    exact ht
  · rw [hserved.occupancy, haxle]
    exact (occupancyOf_of_certain rfl).trans
      (if_pos ⟨(AxleMap.isEmpty_iff _).mpr hempty, (AxleMap.loopsClear_iff _).mpr h.1⟩)

/-! ## The exit lamp at a sample event (R109) -/

theorem mappedAt_exit (h : occupancyNotes s (afterSample inp s) = [] ∨ s.completesNone (afterSample inp s)) :
    (mappedAt inp s).st.cap.exit = exitByMap s (afterSample inp s) := by
  have haxle : (afterSample inp s).axle = (mappedAt inp s).st.axle := afterSample_axle.trans sampled_axle
  obtain ⟨hexit, hslot⟩ := serveZero_acquire_exit inp (resultAt inp s) s
  have hnone : s.completesNone (afterSample inp s) ↔ s.completesNone (mappedAt inp s).st := by
    unfold State.completesNone
    rw [haxle]
  rw [occupancyNotes_congr haxle, hnone] at h
  have hmap := serveMap_exit inp.storeOk (resultAt inp s) zeroedAt_axle hexit hslot h
  rw [exitByMap, haxle]
  exact hmap

theorem afterSample_exit (h : ∀ op, (mappedAt inp s).st.cap.slot = .capture op → (resultAt inp s).isDeckDown = true ∨
    (mappedAt inp s).st.zm.decisions.forProfile op.profile = false ∨
      ∃ op1, (afterSample inp s).cap.slot = .capture op1) :
    (afterSample inp s).cap.exit = (mappedAt inp s).st.cap.exit := by
  obtain ⟨hexit, hslot⟩ := sampleEvent_exit inp s
  have hserve := serveOperation_exit (e := mappedAt inp s) inp.storeOk (resultAt inp s) fun op hop => by
    refine (h op hop).imp_right (Or.imp_right ?_)
    rintro ⟨op1, hop1⟩
    rw [afterSample_slot] at hop1
    exact ⟨op1, hslot op1 hop1⟩
  exact (exit_happened _ _ _).trans (hexit.trans hserve)

end

/-! ## The obligation -/

/-- Settles O39: on a CERTAIN map the hidden-load count, on an UNCERTAIN one the recovery count, each by its test and
its limit. -/
theorem mapCountRows : Obligations.MapCountRows := by
  intro inp s hsupply a r clear total hides clears u
  obtain ⟨e, hserved, hlines⟩ := exists_mapServed (inp := inp) (s := s)
  refine ⟨afterSample inp s, exec_sampleEvent hsupply, ?lines, mappedAt_exit, afterSample_exit, ?occupancy,
    fun hcertain => ⟨fun h => ?hidesNot, fun h hcount => ?hidesBelow, fun h hcount => ?hidesReached⟩,
    fun huncertain => ⟨fun h => ?clearsNot, fun h hcount => ?clearsBelow, fun h hcount => ?clearsReached⟩⟩
  case lines => rw [hserved.axle]; exact hlines
  case occupancy => rw [hserved.axle]; exact hserved.occupancy
  case hidesNot =>
    obtain ⟨hsame, haxle⟩ := (hiddenCount_cleared hcertain h).same (f := fun m => { m with hiddenCount := 0 })
      rfl rfl rfl rfl
    exact ⟨hsame, by rw [haxle]⟩
  case hidesBelow =>
    obtain ⟨hsame, haxle⟩ := (hiddenCount_raised hcertain h hcount).same
      (f := fun m => { m with hiddenCount := m.hiddenCount + 1 }) rfl rfl rfl rfl
    exact ⟨hsame, by rw [haxle]⟩
  case hidesReached =>
    obtain ⟨hfinds, -⟩ := hiddenLoad_reached (inp := inp) hcertain h hcount.ge
    obtain ⟨htold, haxle, hwhole⟩ := afterSample_hiddenLoad (inp := inp) hcertain h hcount.ge
    obtain ⟨hc, hcause, hent, hexc, hex, hcomp, hrev, hhid, hrec, -, hdecks⟩ := AxleMap.lose_record .hiddenLoad s.axle
    refine ⟨exec_hiddenLoad.trans (sampleWhen_of_mark hsupply hfinds), htold, ?_⟩
    rw [hwhole] at haxle
    rw [haxle]
    exact ⟨hc, hcause, hent, hexc, hex, hcomp, hrev, hhid, hrec, hdecks, rfl⟩
  case clearsNot =>
    obtain ⟨hsame, haxle⟩ := (recoveryCount_cleared huncertain h).same (f := fun m => { m with recoveryCount := 0 })
      rfl rfl rfl rfl
    exact ⟨hsame, by rw [haxle]⟩
  case clearsBelow =>
    obtain ⟨hsame, haxle⟩ := (recoveryCount_raised huncertain h hcount).same
      (f := fun m => { m with recoveryCount := m.recoveryCount + 1 }) rfl rfl rfl rfl
    exact ⟨hsame, by rw [haxle]⟩
  case clearsReached =>
    obtain ⟨hfinds, -⟩ := mapRecovery_reached (inp := inp) huncertain h hcount.ge
    obtain ⟨htold, haxle, hempty⟩ := afterSample_mapRecovery (inp := inp) huncertain h hcount.ge
    refine ⟨exec_mapRecovery.trans (sampleWhen_of_mark hsupply hfinds), htold, ?_, ?_, ?_, ?_, hempty⟩
    · rw [haxle]
    · rw [haxle]
    · rw [haxle]
    · rw [haxle]

end Sys2Proof.Machine

/-! PROOFS. The axle sequence, the walk and the groups (R80 to R83). -/

namespace Sys2Proof.Machine

/-! ## A list put in order -/

section
variable {α : Type} {le : α → α → Bool}

theorem insertBy_perm (x : α) (l : List α) : (insertBy le x l).Perm (x :: l) := by
  induction l with
  | nil => exact .refl _
  | cons y r ih =>
    unfold insertBy
    split_ifs
    · exact .refl _
    · exact (ih.cons y).trans (.swap x y r)

theorem sortBy_perm (l : List α) : (sortBy le l).Perm l := by
  induction l with
  | nil => exact .refl _
  | cons x r ih => exact (insertBy_perm x (sortBy le r)).trans (ih.cons x)

theorem insertBy_pairwise (htotal : ∀ a b, le a b = true ∨ le b a = true)
    (htrans : ∀ a b c, le a b = true → le b c = true → le a c = true) (x : α) {l : List α}
    (h : l.Pairwise fun a b => le a b = true) : (insertBy le x l).Pairwise fun a b => le a b = true := by
  induction l with
  | nil => exact List.pairwise_singleton _ x
  | cons y r ih =>
    obtain ⟨hy, hr⟩ := List.pairwise_cons.mp h
    unfold insertBy
    split_ifs with hxy
    · refine List.pairwise_cons.mpr ⟨fun z hz => ?_, h⟩
      obtain rfl | hz := List.mem_cons.mp hz
      · exact hxy
      · exact htrans x y z hxy (hy z hz)
    · refine List.pairwise_cons.mpr ⟨fun z hz => ?_, ih hr⟩
      obtain rfl | hz := List.mem_cons.mp ((insertBy_perm x r).mem_iff.mp hz)
      · exact (htotal z y).resolve_left hxy
      · exact hy z hz

theorem sortBy_pairwise (htotal : ∀ a b, le a b = true ∨ le b a = true)
    (htrans : ∀ a b c, le a b = true → le b c = true → le a c = true) (l : List α) :
    (sortBy le l).Pairwise fun a b => le a b = true := by
  induction l with
  | nil => exact .nil
  | cons x r ih => exact insertBy_pairwise htotal htrans x ih

/-- A list put in the order of a number. -/
theorem sortBy_pairwise_key (f : α → Nat) (l : List α) :
    (sortBy (fun a b => decide (f a ≤ f b)) l).Pairwise fun a b => f a ≤ f b := by
  refine (sortBy_pairwise (fun a b => ?_) (fun a b c => ?_) l).imp fun h => of_decide_eq_true h
  · simp only [decide_eq_true_eq]
    exact Nat.le_total _ _
  · simp only [decide_eq_true_eq]
    exact Nat.le_trans

end

/-! ## The walk (R81) -/

/-- Two neighbours of one group: the rear one's spacing is at most the gap. -/
def WithinGap (gap : Nat) (_ : PlacedAxle) (y : PlacedAxle) : Prop := ∃ sp, y.axle.spacing = some sp ∧ sp ≤ gap

/-- Two neighbouring groups: an absent spacing makes the boundary uncertain on both sides, a wide one on neither. -/
def GroupBoundary (gap : Nat) (g h : WalkGroup) : Prop :=
  ∃ y r, h.axles = y :: r ∧
    (y.axle.spacing = none ∧ g.rear = true ∧ h.front = true ∨
      ∃ sp, y.axle.spacing = some sp ∧ gap < sp ∧ g.rear = false ∧ h.front = false)

section
variable {gap : Nat}

theorem walkFrom_flatMap (g : WalkGroup) (l : List PlacedAxle) :
    (walkFrom gap g l).flatMap WalkGroup.axles = g.axles ++ l := by
  induction l generalizing g with
  | nil => simp [walkFrom]
  | cons a r ih =>
    unfold walkFrom
    split
    · split_ifs
      · rw [List.flatMap_cons, ih]
        rfl
      · rw [ih, List.append_assoc]
        rfl
    · rw [List.flatMap_cons, ih]
      rfl

/-- The first group of a walk from an open group is that group, with axles behind its own. -/
theorem walkFrom_head (g : WalkGroup) (l : List PlacedAxle) :
    ∃ f r axles, walkFrom gap g l = f :: r ∧ f.front = g.front ∧ f.axles = g.axles ++ axles := by
  induction l generalizing g with
  | nil => exact ⟨g, [], [], rfl, rfl, (List.append_nil _).symm⟩
  | cons a r ih =>
    unfold walkFrom
    split
    · split_ifs
      · exact ⟨g, _, [], rfl, rfl, (List.append_nil _).symm⟩
      · obtain ⟨f, tl, axles, hwalk, hfront, haxles⟩ := ih { g with axles := g.axles ++ [a] }
        exact ⟨f, tl, [a] ++ axles, hwalk, hfront, haxles.trans (List.append_assoc ..)⟩
    · exact ⟨{ g with rear := true }, _, [], rfl, rfl, (List.append_nil _).symm⟩

/-- The group that a boundary opens begins with the axle behind the boundary. -/
theorem walkFrom_opens (a : PlacedAxle) (front : Bool) (l : List PlacedAxle) :
    ∃ f r axles, walkFrom gap { axles := [a], front := front, rear := false } l = f :: r ∧ f.front = front ∧
      f.axles = a :: axles :=
  walkFrom_head { axles := [a], front := front, rear := false } l

theorem walkFrom_ne_nil {g : WalkGroup} (hg : g.axles ≠ []) (l : List PlacedAxle) :
    ∀ x ∈ walkFrom gap g l, x.axles ≠ [] := by
  induction l generalizing g with
  | nil => exact fun x hx => List.mem_singleton.mp hx ▸ hg
  | cons a r ih =>
    unfold walkFrom
    split
    · split_ifs
      · exact List.forall_mem_cons.mpr ⟨hg, ih (List.cons_ne_nil a [])⟩
      · exact ih (List.append_ne_nil_of_right_ne_nil _ (List.cons_ne_nil a []))
    · exact List.forall_mem_cons.mpr ⟨hg, ih (List.cons_ne_nil a [])⟩

theorem walkFrom_withinGap {g : WalkGroup} (hg : g.axles.IsChain (WithinGap gap)) (l : List PlacedAxle) :
    ∀ x ∈ walkFrom gap g l, x.axles.IsChain (WithinGap gap) := by
  induction l generalizing g with
  | nil => exact fun x hx => List.mem_singleton.mp hx ▸ hg
  | cons a r ih =>
    have hone : ([a] : List PlacedAxle).IsChain (WithinGap gap) := .singleton a
    unfold walkFrom
    split
    · rename_i sp hsp
      split_ifs with hwide
      · exact List.forall_mem_cons.mpr ⟨hg, ih hone⟩
      · refine ih (List.isChain_append.mpr ⟨hg, hone, fun x _ y hy => ?_⟩)
        obtain rfl : a = y := Option.mem_some.mp hy
        exact ⟨sp, hsp, Nat.not_lt.mp hwide⟩
    · exact List.forall_mem_cons.mpr ⟨hg, ih hone⟩

theorem walkFrom_boundaries {g : WalkGroup} (hg : g.rear = false) (l : List PlacedAxle) :
    (walkFrom gap g l).IsChain (GroupBoundary gap) := by
  induction l generalizing g with
  | nil => exact .singleton g
  | cons a r ih =>
    unfold walkFrom
    split
    · rename_i sp hsp
      split_ifs with hwide
      · obtain ⟨f, tl, axles, hwalk, hfront, haxles⟩ := walkFrom_opens (gap := gap) a false r
        have htail := ih (g := { axles := [a], front := false, rear := false }) rfl
        rw [hwalk] at htail ⊢
        exact List.isChain_cons_cons.mpr ⟨⟨a, axles, haxles, Or.inr ⟨sp, hsp, hwide, hg, hfront⟩⟩, htail⟩
      · exact ih hg
    · rename_i hsp
      obtain ⟨f, tl, axles, hwalk, hfront, haxles⟩ := walkFrom_opens (gap := gap) a true r
      have htail := ih (g := { axles := [a], front := true, rear := false }) rfl
      rw [hwalk] at htail ⊢
      exact List.isChain_cons_cons.mpr ⟨⟨a, axles, haxles, Or.inl ⟨hsp, rfl, hfront⟩⟩, htail⟩

/-- The last group of a walk has a certain rear. -/
theorem walkFrom_last {g : WalkGroup} (hg : g.rear = false) (l : List PlacedAxle) :
    ∀ x, (walkFrom gap g l).getLast? = some x → x.rear = false := by
  have hcons : ∀ (w : WalkGroup) (a : PlacedAxle) (front : Bool) (r : List PlacedAxle),
      (w :: walkFrom gap { axles := [a], front := front, rear := false } r).getLast? =
        (walkFrom gap { axles := [a], front := front, rear := false } r).getLast? := fun w a front r => by
    obtain ⟨f, tl, -, hwalk, -, -⟩ := walkFrom_opens (gap := gap) a front r
    rw [hwalk, List.getLast?_cons_cons]
  induction l generalizing g with
  | nil =>
    intro x hx
    cases hx
    exact hg
  | cons a r ih =>
    unfold walkFrom
    split
    · split_ifs
      · rw [hcons]
        exact ih rfl
      · exact ih hg
    · rw [hcons]
      exact ih rfl

theorem walk_spec (axles : List PlacedAxle) : (walk gap axles).flatMap WalkGroup.axles = axles ∧
    (∀ g ∈ walk gap axles, g.axles ≠ []) ∧ (∀ g ∈ walk gap axles, g.axles.IsChain (WithinGap gap)) ∧
    (walk gap axles).IsChain (GroupBoundary gap) ∧ (∀ g, (walk gap axles).head? = some g → g.front = false) ∧
    (∀ g, (walk gap axles).getLast? = some g → g.rear = false) := by
  cases axles with
  | nil => exact ⟨rfl, nofun, nofun, .nil, nofun, nofun⟩
  | cons a r =>
    refine ⟨walkFrom_flatMap _ r, walkFrom_ne_nil (List.cons_ne_nil a []) r, walkFrom_withinGap (.singleton a) r,
      walkFrom_boundaries rfl r, fun g hg => ?_, walkFrom_last rfl r⟩
    obtain ⟨f, tl, -, hwalk, hfront, -⟩ := walkFrom_opens (gap := gap) a false r
    rw [walk, hwalk] at hg
    cases hg
    exact hfront

end

/-! ## The numbered groups (R81 to R83) -/

section
variable {limits : GroupLimits}

theorem numberGroups_eq_mapIdx (n : Nat) (l : List WalkGroup) :
    numberGroups limits n l = l.mapIdx fun i w => groupOf limits (n + i) w := by
  induction l generalizing n with
  | nil => rfl
  | cons w r ih =>
    rw [numberGroups, ih, List.mapIdx_cons]
    simp only [Nat.add_zero, Nat.add_right_comm n 1, Nat.add_assoc]

theorem map_numberGroups {β : Type} (n : Nat) (l : List WalkGroup) (f : Group → β) (h : WalkGroup → β)
    (hf : ∀ k w, f (groupOf limits k w) = h w) : (numberGroups limits n l).map f = l.map h := by
  induction l generalizing n with
  | nil => rfl
  | cons w r ih => rw [numberGroups, List.map_cons, List.map_cons, hf, ih]

theorem numberGroups_number (n : Nat) (l : List WalkGroup) :
    (numberGroups limits n l).map Group.number = List.range' n l.length := by
  induction l generalizing n with
  | nil => rfl
  | cons w r ih => rw [numberGroups, List.map_cons, ih, List.length_cons, List.range'_succ]; rfl

theorem mem_numberGroups {n : Nat} {l : List WalkGroup} {g : Group} (h : g ∈ numberGroups limits n l) :
    ∃ k w, g = groupOf limits k w := by
  rw [numberGroups_eq_mapIdx] at h
  obtain ⟨i, w, -, rfl⟩ := List.exists_of_mem_mapIdx h
  exact ⟨_, _, rfl⟩

theorem groupOf_decks (k : Nat) (w : WalkGroup) (d : Deck) :
    d ∈ (groupOf limits k w).decks ↔ ∃ a ∈ w.axles, a.place = some d := by
  simp [groupOf, mem_allDecks]

theorem groupOf_exited (k : Nat) (w : WalkGroup) :
    (groupOf limits k w).exited = true ↔ ∃ a ∈ w.axles, a.place = none := by
  simp [groupOf]

end

/-- A type by the position and the axle count (R82). -/
theorem groupType_spec (number count : Nat) :
    (count = 1 → number = 1 → groupType number count = .steerSingle) ∧
    (count = 1 → number ≠ 1 → groupType number count = .single) ∧
    (count = 2 → number = 1 → groupType number count = .steerTwin) ∧
    (count = 2 → number ≠ 1 → groupType number count = .tandem) ∧
    (count = 3 → groupType number count = .tridem) ∧ (4 ≤ count → groupType number count = .quad) := by
  refine ⟨fun hc hn => ?_, fun hc hn => ?_, fun hc hn => ?_, fun hc hn => ?_, fun hc => ?_, fun hc => ?_⟩
  · simp [groupType, hc, hn]
  · simp [groupType, hc, hn]
  · simp [groupType, hc, hn]
  · simp [groupType, hc, hn]
  · simp [groupType, hc]
  · simp [groupType, show ¬count ≤ 1 by omega, show count ≠ 2 by omega, show count ≠ 3 by omega]

/-- Settles O41: the walk by recursion over the axle sequence, the sequence as a sorted permutation, the records of the
groups from the walk's. -/
theorem groupsFormed : Obligations.GroupsFormed := by
  refine ⟨fun gap axles => ?walk, fun m => ⟨sortBy_perm _, ?sorted⟩, fun m gap limits => ?groups⟩
  case walk =>
    obtain ⟨hall, hne, hwithin, hboundaries, hfront, hrear⟩ := walk_spec (gap := gap) axles
    refine ⟨hall, hne, fun g hg pre x y post haxles => ?_, fun pre g h post hgs => ?_, hfront, hrear⟩
    · have hchain := hwithin g hg
      rw [haxles] at hchain
      exact (List.isChain_append_cons_cons.mp hchain).2.1
    · have hchain := hboundaries
      rw [show walk gap axles = _ from hgs] at hchain
      exact (List.isChain_append_cons_cons.mp hchain).2.1
  case sorted => exact sortBy_pairwise_key (fun a : PlacedAxle => a.axle.number) _
  case groups =>
    refine ⟨numberGroups_number 1 _, map_numberGroups 1 _ _ _ fun _ _ => rfl, map_numberGroups 1 _ _ _ fun _ _ => rfl,
      fun i g w hg hw => ?record, fun g hg => ?type⟩
    case record =>
      have hrecord : g = groupOf limits (1 + i) w := by
        change (numberGroups limits 1 (walk gap (axleSequence m)))[i]? = some g at hg
        rw [numberGroups_eq_mapIdx, List.getElem?_mapIdx, show (walk gap (axleSequence m))[i]? = some w from hw] at hg
        exact (Option.some.inj hg).symm
      rw [hrecord]
      refine ⟨fun a ha => ?_, fun a ha => ?_, groupOf_decks _ w, groupOf_exited _ w⟩
      · simp [groupOf, ha]
      · simp [groupOf, ha]
    case type =>
      obtain ⟨k, w, rfl⟩ := mem_numberGroups hg
      obtain ⟨hss, hs, hst, ht, htri, hquad⟩ := groupType_spec k w.axles.length
      have hlimit : ∀ type, groupType k w.axles.length = type →
          (groupOf limits k w).type = type ∧ (groupOf limits k w).limit = limits.limitOf type := by
        rintro _ rfl
        exact ⟨rfl, rfl⟩
      exact ⟨fun hc hn => hlimit _ (hss hc hn), fun hc hn => hlimit _ (hs hc hn), fun hc hn => hlimit _ (hst hc hn),
        fun hc hn => hlimit _ (ht hc hn), fun hc => hlimit _ (htri hc), fun hc => hlimit _ (hquad hc)⟩

end Sys2Proof.Machine

/-! PROOFS. The components of a verdict (R83). -/

namespace Sys2Proof.Machine

/-! ## The components as they are formed (R83) -/

/-- What holds of a component: its groups ascend, its decks are those its groups touch, in their order, and a division
of the decks that keeps every group's decks together does not split it (R83). -/
structure DeckChain.Formed (k : DeckChain) : Prop where
  held : k.groups ≠ []
  groups : k.groups.Pairwise fun g h => g.number ≤ h.number
  decks : k.decks.Pairwise (· < ·)
  touched : ∀ x, x ∈ k.decks ↔ ∃ g ∈ k.groups, x ∈ g.decks
  whole : ∀ part : Deck → Bool, (∀ g ∈ k.groups, ∀ x ∈ g.decks, ∀ y ∈ g.decks, part x = part y) →
    ∀ x ∈ k.decks, ∀ y ∈ k.decks, part x = part y

/-- No deck lies in two components. -/
def DeckChain.Apart (a b : DeckChain) : Prop := ∀ x ∈ a.decks, x ∉ b.decks

theorem DeckChain.Apart.symm {a b : DeckChain} (h : a.Apart b) : b.Apart a := fun x hx hx' => h x hx' hx

/-- Two components of a list whose members share no deck. -/
theorem DeckChain.apart_of_mem {cs : List DeckChain} (h : cs.Pairwise DeckChain.Apart) {a b : DeckChain} (ha : a ∈ cs)
    (hb : b ∈ cs) (hne : a ≠ b) : a.Apart b :=
  haveI : Std.Symm DeckChain.Apart := ⟨fun _ _ h => h.symm⟩
  h.forall ha hb hne

/-- The components formed of the groups `gs`. -/
structure ChainsOf (gs : List Group) (cs : List DeckChain) : Prop where
  groups : (cs.flatMap DeckChain.groups).Perm (gs.filter fun g => decide (g.decks ≠ []))
  formed : ∀ k ∈ cs, k.Formed
  apart : cs.Pairwise DeckChain.Apart

section
variable {cs : List DeckChain} {g : Group}

/-- The components that share a deck with a group. -/
def hitBy (cs : List DeckChain) (g : Group) : List DeckChain := cs.filter fun c => meet c.decks g.decks

/-- The components that share none. -/
def missedBy (cs : List DeckChain) (g : Group) : List DeckChain := cs.filter fun c => !meet c.decks g.decks

/-- The component that a group forms with those it shares a deck with. -/
def joinedBy (cs : List DeckChain) (g : Group) : DeckChain :=
  { decks := allDecks.filter fun d => g.decks.contains d || (hitBy cs g).any fun c => c.decks.contains d
    groups := sortBy (fun a b => decide (a.number ≤ b.number)) (g :: (hitBy cs g).flatMap DeckChain.groups) }

theorem joinGroup_of_nil (h : g.decks = []) : joinGroup cs g = cs := if_pos h

theorem joinGroup_of_decks (h : g.decks ≠ []) : joinGroup cs g = joinedBy cs g :: missedBy cs g := if_neg h

theorem meet_iff {a b : List Deck} : meet a b = true ↔ ∃ d ∈ a, d ∈ b := by
  simp [meet]

theorem mem_hitBy {c : DeckChain} : c ∈ hitBy cs g ↔ c ∈ cs ∧ ∃ d ∈ c.decks, d ∈ g.decks := by
  rw [hitBy, List.mem_filter, meet_iff]

theorem mem_missedBy {c : DeckChain} : c ∈ missedBy cs g ↔ c ∈ cs ∧ ∀ d ∈ c.decks, d ∉ g.decks := by
  rw [missedBy, List.mem_filter, Bool.not_eq_true', ← Bool.not_eq_true, meet_iff]
  simp only [not_exists, not_and]

theorem mem_joinedBy_decks {d : Deck} :
    d ∈ (joinedBy cs g).decks ↔ d ∈ g.decks ∨ ∃ c ∈ hitBy cs g, d ∈ c.decks := by
  simp [joinedBy, mem_allDecks]

theorem joinedBy_groups_perm : (joinedBy cs g).groups.Perm (g :: (hitBy cs g).flatMap DeckChain.groups) :=
  sortBy_perm _

theorem mem_joinedBy_groups {h : Group} : h ∈ (joinedBy cs g).groups ↔ h = g ∨ ∃ c ∈ hitBy cs g, h ∈ c.groups := by
  rw [joinedBy_groups_perm.mem_iff, List.mem_cons, List.mem_flatMap]

theorem joinGroup_groups (h : g.decks ≠ []) :
    ((joinGroup cs g).flatMap DeckChain.groups).Perm (g :: cs.flatMap DeckChain.groups) := by
  rw [joinGroup_of_decks h, List.flatMap_cons]
  refine (joinedBy_groups_perm.append_right _).trans ((?_ : List.Perm _ _).cons g)
  rw [List.append_eq, ← List.flatMap_append]
  exact (List.filter_append_perm _ cs).flatMap_right _

/-- A joined component is formed when the components before were. -/
theorem joinedBy_formed (hcs : ∀ k ∈ cs, k.Formed) (hg : g.decks ≠ []) : (joinedBy cs g).Formed := by
  have hhit : ∀ c ∈ hitBy cs g, c.Formed := fun c hc => hcs c (mem_hitBy.mp hc).1
  constructor
  case held =>
    intro hnil
    have hmem := mem_joinedBy_groups (cs := cs) (g := g).mpr (Or.inl rfl)
    rw [hnil] at hmem
    cases hmem
  case groups => exact sortBy_pairwise_key Group.number _
  case decks => exact List.Pairwise.filter _ (by decide : allDecks.Pairwise (· < ·))
  case touched =>
    intro x
    rw [mem_joinedBy_decks]
    refine ⟨?_, ?_⟩
    · rintro (hx | ⟨c, hc, hx⟩)
      · exact ⟨g, mem_joinedBy_groups.mpr (Or.inl rfl), hx⟩
      · obtain ⟨h, hh, hx⟩ := ((hhit c hc).touched x).mp hx
        exact ⟨h, mem_joinedBy_groups.mpr (Or.inr ⟨c, hc, hh⟩), hx⟩
    · rintro ⟨h, hh, hx⟩
      obtain rfl | ⟨c, hc, hh⟩ := mem_joinedBy_groups.mp hh
      · exact Or.inl hx
      · exact Or.inr ⟨c, hc, ((hhit c hc).touched x).mpr ⟨h, hh, hx⟩⟩
  case whole =>
    intro part hpart
    obtain ⟨d0, hd0⟩ := List.exists_mem_of_ne_nil _ hg
    have hown : ∀ x ∈ g.decks, part x = part d0 := fun x hx =>
      hpart g (mem_joinedBy_groups.mpr (Or.inl rfl)) x hx d0 hd0
    have hall : ∀ x ∈ (joinedBy cs g).decks, part x = part d0 := by
      intro x hx
      obtain hx | ⟨c, hc, hx⟩ := mem_joinedBy_decks.mp hx
      · exact hown x hx
      · obtain ⟨-, d, hd, hdg⟩ := mem_hitBy.mp hc
        have hsame := (hhit c hc).whole part (fun h hh => hpart h (mem_joinedBy_groups.mpr (Or.inr ⟨c, hc, hh⟩)))
          x hx d hd
        exact hsame.trans (hown d hdg)
    exact fun x hx y hy => (hall x hx).trans (hall y hy).symm

/-- A joined component shares no deck with those it left. -/
theorem joinedBy_apart (hcs : cs.Pairwise DeckChain.Apart) {c : DeckChain} (hc : c ∈ missedBy cs g) :
    (joinedBy cs g).Apart c := by
  obtain ⟨hmem, hmissed⟩ := mem_missedBy.mp hc
  intro x hx hxc
  obtain hx | ⟨c', hc', hx⟩ := mem_joinedBy_decks.mp hx
  · exact hmissed x hxc hx
  · obtain ⟨hmem', d, hd, hdg⟩ := mem_hitBy.mp hc'
    have hne : c' ≠ c := fun heq => hmissed d (heq ▸ hd) hdg
    exact DeckChain.apart_of_mem hcs hmem' hmem hne x hx hxc

/-- A group joined to the components of the groups before it. -/
theorem ChainsOf.join {gs : List Group} (h : ChainsOf gs cs) (g : Group) : ChainsOf (gs ++ [g]) (joinGroup cs g) := by
  by_cases hg : g.decks = []
  · rw [joinGroup_of_nil hg]
    refine { h with groups := ?_ }
    simpa [hg] using h.groups
  · constructor
    case groups =>
      refine (joinGroup_groups hg).trans ((h.groups.cons g).trans ?_)
      rw [List.filter_append, List.filter_singleton, decide_eq_true hg]
      exact (List.perm_append_singleton _ _).symm
    case formed =>
      rw [joinGroup_of_decks hg]
      exact List.forall_mem_cons.mpr ⟨joinedBy_formed h.formed hg, fun k hk => h.formed k (mem_missedBy.mp hk).1⟩
    case apart =>
      rw [joinGroup_of_decks hg]
      exact List.pairwise_cons.mpr ⟨fun c hc => joinedBy_apart h.apart hc, h.apart.filter _⟩

theorem ChainsOf.foldl {gs : List Group} (h : ChainsOf gs cs) (l : List Group) :
    ChainsOf (gs ++ l) (l.foldl joinGroup cs) := by
  induction l generalizing gs cs with
  | nil => rwa [List.append_nil]
  | cons g r ih =>
    rw [List.foldl_cons, List.append_cons]
    exact ih (h.join g)

theorem chainsOf_formComponents (gs : List Group) : ChainsOf gs (formComponents gs) := by
  have hfold : ChainsOf ([] ++ gs) (gs.foldl joinGroup []) := ChainsOf.foldl
    { groups := .refl _, formed := fun k hk => absurd hk List.not_mem_nil, apart := .nil } gs
  have hperm : (formComponents gs).Perm (gs.foldl joinGroup []) := sortBy_perm _
  constructor
  case groups => exact (hperm.flatMap_right _).trans hfold.groups
  case formed => exact fun k hk => hfold.formed k (hperm.mem_iff.mp hk)
  case apart => exact hperm.symm.pairwise hfold.apart fun h => h.symm

end

/-! ## Groups with distinct numbers -/

section
variable {gs : List Group} (hgs : (gs.map Group.number).Pairwise (· < ·))
include hgs

/-- The numbers of the groups in the components are distinct. -/
theorem formComponents_numbers_nodup :
    ((formComponents gs).flatMap fun k => k.groups.map Group.number).Nodup := by
  rw [← List.map_flatMap]
  refine (((chainsOf_formComponents gs).groups.map Group.number).nodup_iff).mpr ?_
  exact (List.Nodup.sublist (List.filter_sublist.map _) (hgs.imp fun h => Nat.ne_of_lt h))

theorem formComponents_groups {k : DeckChain} (hk : k ∈ formComponents gs) :
    k.groups.Pairwise fun g h => g.number < h.number := by
  have hnodup := (List.nodup_flatMap.mp (formComponents_numbers_nodup hgs)).1 k hk
  have hne := List.pairwise_map.mp hnodup
  exact (((chainsOf_formComponents gs).formed k hk).groups.and hne).imp fun ⟨hle, hne⟩ => Nat.lt_of_le_of_ne hle hne

/-- The components stand in the order of their frontmost group. -/
theorem formComponents_ordered : (formComponents gs).Pairwise fun a b =>
    ∀ g h, a.groups.head? = some g → b.groups.head? = some h → g.number < h.number := by
  have hfront : (formComponents gs).Pairwise fun a b => a.front ≤ b.front := sortBy_pairwise_key DeckChain.front _
  have hdisjoint := (List.nodup_flatMap.mp (formComponents_numbers_nodup hgs)).2
  refine (hfront.and hdisjoint).imp ?_
  rintro a b ⟨hle, hapart⟩ g h hg hh
  rw [DeckChain.front, DeckChain.front, hg, hh] at hle
  refine Nat.lt_of_le_of_ne hle fun heq => ?_
  refine hapart (List.mem_map_of_mem (List.mem_of_mem_head? hg)) ?_
  rw [heq]
  exact List.mem_map_of_mem (List.mem_of_mem_head? hh)

end

end Sys2Proof.Machine

/-! PROOFS. The judged components and the entries of a verdict (R83 to R90). -/

namespace Sys2Proof.Machine

/-! ## The judged components (R83, R85) -/

section
variable {eHg : Nat} {mean : Deck → Int} {subst : List Deck} {load : Bool}

theorem judgeComponents_eq_mapIdx (n : Nat) (l : List DeckChain) : judgeComponents eHg mean subst load n l =
    l.mapIdx fun i c => judgeComponent eHg mean subst load (n + i) c := by
  induction l generalizing n with
  | nil => rfl
  | cons c r ih =>
    rw [judgeComponents, ih, List.mapIdx_cons]
    simp only [Nat.add_zero, Nat.add_right_comm n 1, Nat.add_assoc]

theorem bne_nil_eq_decide {α : Type} [DecidableEq α] (l : List α) : (l != []) = decide (l ≠ []) := by
  cases l <;> rfl

variable {m : AxleMap} {c : MetroConfig} {limits : GroupLimits} {gap : Nat}

theorem judge_components : (judge m c limits gap mean subst).components =
    (formComponents (judge m c limits gap mean subst).groups).mapIdx fun i x =>
      judgeComponent c.eHg mean subst (decide ((judge m c limits gap mean subst).deckLoads ≠ [])) (i + 1) x := by
  change judgeComponents c.eHg mean subst ((judge m c limits gap mean subst).deckLoads != []) 1
    (formComponents (judge m c limits gap mean subst).groups) = _
  rw [judgeComponents_eq_mapIdx, bne_nil_eq_decide]
  simp only [Nat.add_comm 1]

theorem judgeComponent_substituted (n : Nat) (x : DeckChain) :
    (judgeComponent eHg mean subst load n x).substituted = true ↔ ∃ y ∈ x.decks, y ∈ subst := by
  simp [judgeComponent]

theorem Component.straddled_iff (k : Component) : k.straddled = true ↔ k.status = .single ∧ 2 ≤ k.decks.length := by
  simp [Component.straddled]

end

/-! ## The entries (R87, R90) -/

/-- A group lies in a component. -/
def Component.Holds (k : Component) (g : Group) : Prop := ∃ h ∈ k.groups, h.number = g.number

theorem Component.holds_iff {k : Component} {g : Group} :
    (k.groups.any fun h => h.number == g.number) = true ↔ k.Holds g := by
  simp [Component.Holds]

section
variable {j : Judged} {g : Group}

theorem Judged.componentOf_of_unique {k : Component} (hk : k ∈ j.components) (hholds : k.Holds g)
    (hunique : ∀ k' ∈ j.components, k'.Holds g → k' = k) : j.componentOf g = some k := by
  cases hfind : j.componentOf g with
  | none => exact absurd (Component.holds_iff.mpr hholds) (List.find?_eq_none.mp hfind k hk)
  | some k' =>
    have hmem := List.mem_of_find?_eq_some hfind
    have hholds' : k'.Holds g := Component.holds_iff.mp
      (List.find?_some (p := fun c : Component => c.groups.any fun h => h.number == g.number) hfind)
    rw [hunique k' hmem hholds']

theorem Judged.componentOf_of_none (h : ∀ k ∈ j.components, ¬k.Holds g) : j.componentOf g = none :=
  List.find?_eq_none.mpr fun k hk hholds => h k hk (Component.holds_iff.mp hholds)

/-- What its component gives a group's entry (R87, R90). -/
theorem Judged.groupEntry_of_component {k : Component} (h : j.componentOf g = some k) :
    (j.groupEntry g).component = some k.number ∧
    (j.groupEntry g).mass = (if k.status = .single then some k.roundedKg else none) ∧
    (j.groupEntry g).verdict = groupVerdict k.comparison g.uncertain ∧ (j.groupEntry g).straddled = k.straddled ∧
    (j.groupEntry g).substituted = k.substituted := by
  simp [groupEntry, h]

theorem Judged.groupEntry_of_none (h : j.componentOf g = none) :
    (j.groupEntry g).component = none ∧ (j.groupEntry g).mass = none ∧ (j.groupEntry g).verdict = .unresolved ∧
    (j.groupEntry g).straddled = false ∧ (j.groupEntry g).substituted = false := by
  simp [groupEntry, h, groupVerdict]

end

/-- Settles O42: the components by the invariant of the joins, the judged ones and the entries by their definitions. -/
theorem componentsAndEntries : Obligations.ComponentsAndEntries := by
  refine ⟨fun gs hgs => ?chains, fun m c limits gap mean subst => ?judged,
    fun eHg number mean subst load x => ⟨rfl, rfl, rfl, judgeComponent_substituted number x,
      Component.straddled_iff _⟩, fun m j cls entry kg => ?entries⟩
  case chains =>
    obtain ⟨hgroups, hformed, hapart⟩ := chainsOf_formComponents gs
    refine ⟨hgroups, fun k hk => ?_, hapart.and (formComponents_ordered hgs)⟩
    obtain ⟨hheld, -, hdecks, htouched, hwhole⟩ := hformed k hk
    exact ⟨hheld, formComponents_groups hgs hk, hdecks, htouched, hwhole⟩
  case judged =>
    intro j chains
    have hcomponents : j.components = chains.mapIdx fun i x =>
        judgeComponent c.eHg mean subst (decide (j.deckLoads ≠ [])) (i + 1) x := judge_components
    refine ⟨by rw [hcomponents, List.length_mapIdx], fun i k x hk hx => ?_⟩
    rw [hcomponents, List.getElem?_mapIdx, hx] at hk
    exact (Option.some.inj hk).symm
  case entries =>
    refine ⟨rfl, rfl, rfl, rfl, rfl, List.length_map .., List.length_map .., fun i x g hx hg => ?group,
      fun i x k hx hk => ?component⟩
    case group =>
      have hentry : x = j.groupEntry g := by
        rw [show (wholeVerdict m j cls entry kg).groups = j.groups.map j.groupEntry from rfl, List.getElem?_map,
          hg] at hx
        exact (Option.some.inj hx).symm
      subst hentry
      refine ⟨rfl, rfl, rfl, rfl, rfl, rfl, rfl, fun k hk hholds hunique => ?_, fun hnone => ?_⟩
      · exact Judged.groupEntry_of_component (Judged.componentOf_of_unique hk hholds hunique)
      · exact Judged.groupEntry_of_none (Judged.componentOf_of_none hnone)
    case component =>
      have hentry : x = k.entry := by
        rw [show (wholeVerdict m j cls entry kg).components = j.components.map Component.entry from rfl,
          List.getElem?_map, hk] at hx
        exact (Option.some.inj hx).symm
      subst hentry
      refine ⟨rfl, rfl, rfl, rfl, rfl, rfl, rfl, rfl, fun g hg => ?_, fun g hg => ?_⟩
      · simp [Component.entry, hg]
      · simp [Component.entry, hg]

/-! ## What is listed and judged (R80 to R86) -/

section
variable {m : AxleMap} {c : MetroConfig} {limits : GroupLimits} {gap : Nat} {mean : Deck → Int} {subst : List Deck}

theorem formComponents_nil : formComponents [] = [] := rfl

theorem judge_tooMany : (judge m c limits gap mean subst).tooMany = true ↔
    m.certain = true ∧ 13 ≤ (formGroups m gap limits).length := by
  simp [judge]

theorem judge_components_of_nil (h : (judge m c limits gap mean subst).groups = []) :
    (judge m c limits gap mean subst).components = [] := by
  rw [judge_components, h, formComponents_nil]
  rfl

/-- The decks of the judged components are those of the chains. -/
theorem judge_components_decks {d : Deck} : (∀ k ∈ (judge m c limits gap mean subst).components, d ∉ k.decks) ↔
    ∀ x ∈ formComponents (judge m c limits gap mean subst).groups, d ∉ x.decks := by
  rw [judge_components]
  refine ⟨fun h x hx => ?_, fun h k hk => ?_⟩
  · obtain ⟨i, hi, rfl⟩ := List.mem_iff_getElem.mp hx
    exact h _ (List.mem_mapIdx.mpr ⟨i, hi, rfl⟩)
  · obtain ⟨i, hi, rfl⟩ := List.mem_mapIdx.mp hk
    exact h _ (List.getElem_mem hi)

theorem judge_deckLoads {d : Deck} : d ∈ (judge m c limits gap mean subst).deckLoads ↔
    d ∈ c.activeDecks ∧ (∀ k ∈ (judge m c limits gap mean subst).components, d ∉ k.decks) ∧
      ((2 * c.eHg : Nat) : Int) < mean d := by
  rw [judge_components_decks]
  change d ∈ deckLoadsOf c mean (formComponents (judge m c limits gap mean subst).groups) ↔ _
  simp [deckLoadsOf]

end

section
variable {eHg number : Nat} {mean : Deck → Int} {subst : List Deck} {load : Bool} {c : DeckChain}

theorem componentStatus_of_unresolved {gs : List Group} (h : load = true ∨ ∃ g ∈ gs, g.exited = true) :
    componentStatus load gs = .unresolved := if_pos (by simpa using h)

theorem componentStatus_of_resolved {gs : List Group} (h : ¬(load = true ∨ ∃ g ∈ gs, g.exited = true)) :
    componentStatus load gs = if 2 ≤ gs.length then .combined else .single := if_neg (by simpa using h)

theorem judgeComponent_of_unresolved (h : load = true ∨ ∃ g ∈ c.groups, g.exited = true) :
    (judgeComponent eHg mean subst load number c).status = .unresolved ∧
      (judgeComponent eHg mean subst load number c).comparison = .unresolved := by
  simp [judgeComponent, componentStatus_of_unresolved h]

theorem judgeComponent_of_resolved (h : ¬(load = true ∨ ∃ g ∈ c.groups, g.exited = true)) :
    (judgeComponent eHg mean subst load number c).status = (if 2 ≤ c.groups.length then .combined else .single) ∧
      (judgeComponent eHg mean subst load number c).comparison =
        compareKg (judgeComponent eHg mean subst load number c).roundedKg
          (judgeComponent eHg mean subst load number c).limit := by
  refine ⟨componentStatus_of_resolved h, ?_⟩
  simp only [judgeComponent, componentStatus_of_resolved h]
  split_ifs <;> rfl

end

/-! ## The vehicle verdict (R89) -/

theorem Comparison.isOver_iff {c : Comparison} : c.isOver = true ↔ ∃ x, c = .overBy x := by
  cases c <;> simp [Comparison.isOver]

theorem IncompleteReasons.any_iff {r : IncompleteReasons} : r.list.any id = true ↔
    r.mapUncertain = true ∨ r.tooManyGroups = true ∨ r.deckLoadWithoutAxle = true ∨ r.groupUnresolved = true ∨
      r.groupUncertain = true ∨ r.classMismatch = true := by
  simp [IncompleteReasons.list]

section
variable {r : IncompleteReasons} {comps : List ComponentEntry} {gross : Comparison}

theorem vehicleVerdict_of_incomplete (h : r.list.any id = true) : vehicleVerdict r comps gross = .incomplete := if_pos h

theorem vehicleVerdict_of_over (h : ¬r.list.any id = true)
    (hover : (∃ c ∈ comps, ∃ x, c.comparison = .overBy x) ∨ ∃ x, gross = .overBy x) :
    vehicleVerdict r comps gross = .overloaded := by
  refine (if_neg h).trans (if_pos ?_)
  simpa only [Bool.or_eq_true, List.any_eq_true, Comparison.isOver_iff] using hover

theorem vehicleVerdict_of_within (h : ¬r.list.any id = true)
    (hover : ¬((∃ c ∈ comps, ∃ x, c.comparison = .overBy x) ∨ ∃ x, gross = .overBy x)) :
    vehicleVerdict r comps gross = .compliant := by
  refine (if_neg h).trans (if_neg ?_)
  simpa only [Bool.or_eq_true, List.any_eq_true, Comparison.isOver_iff] using hover

end

/-- Settles O43: what is judged of a map, the status and comparison of a component, the verdicts of groups and
vehicle. -/
theorem verdictDecided : Obligations.VerdictDecided := by
  refine ⟨fun m c limits gap mean subst => ⟨rfl, judge_tooMany, judge_components_of_nil, fun d => judge_deckLoads⟩,
    fun eHg number mean subst load c => ⟨sumInt_eq_sum _, rfl, rfl, judgeComponent_of_unresolved,
      judgeComponent_of_resolved⟩, fun _ => rfl, fun _ => ⟨rfl, rfl⟩, ⟨rfl, rfl⟩, fun m j cls entry kg => ?vehicle⟩
  case vehicle =>
    refine ⟨?_, rfl, ?_, ?_, ?_, ?_, rfl, rfl, fun h => ?_, fun h hover => ?_, fun h hover => ?_⟩
    · simp [wholeVerdict, makeVerdict]
    · simp [wholeVerdict, makeVerdict]
    · simp [wholeVerdict, makeVerdict]
    · simp [wholeVerdict, makeVerdict]
    · simp [wholeVerdict, makeVerdict]
    · exact vehicleVerdict_of_incomplete (IncompleteReasons.any_iff.mpr h)
    · exact vehicleVerdict_of_over (mt IncompleteReasons.any_iff.mp h) hover
    · exact vehicleVerdict_of_within (mt IncompleteReasons.any_iff.mp h) hover

end Sys2Proof.Machine

/-! PROOFS. Start Capture (R94 to R98, R117, R130). -/

namespace Sys2Proof.Machine

/-! ## The fields (R94) -/

/-- No character of a vehicle identifier. -/
def BadChar (b : Byte) : Prop :=
  b ≠ 0x2D ∧ ¬(0x30 ≤ b.toNat ∧ b.toNat ≤ 0x39) ∧ ¬(0x41 ≤ b.toNat ∧ b.toNat ≤ 0x5A)

theorem idChar_iff {b : Byte} : idChar b = true ↔ ¬BadChar b := by
  simp only [idChar, BadChar, Bool.or_eq_true, Bool.and_eq_true, beq_iff_eq, decide_eq_true_eq]
  tauto

theorem validVehicle_iff {t : Text} :
    validVehicle t = true ↔ ¬(t = [] ∨ 12 < t.length ∨ ∃ b ∈ t, BadChar b) := by
  simp only [validVehicle, Bool.and_eq_true, decide_eq_true_eq, List.all_eq_true, idChar_iff, not_or, not_lt,
    not_exists, not_and, and_assoc]
  refine and_congr ?_ Iff.rfl
  rw [Nat.one_le_iff_ne_zero, Ne, List.length_eq_zero_iff]

theorem captureKindOf_iff {n : Nat} {k : CaptureKind} (h : captureKindOf n = some k) : n ≤ 4 ∧
    (n = 0 ↔ k = .first) ∧ (n = 1 ↔ k = .second) ∧ (n = 2 ↔ k = .singlePass) ∧ (n = 3 ↔ k = .tare) ∧
    (n = 4 ↔ k = .axleCheck) := by
  unfold captureKindOf at h
  split at h <;> cases h <;> decide

theorem captureKindOf_of_le {n : Nat} (h : n ≤ 4) : ∃ k, captureKindOf n = some k := by
  interval_cases n <;> exact ⟨_, rfl⟩

theorem captureKindOf_of_gt {n : Nat} (h : 4 < n) : captureKindOf n = none := by
  obtain ⟨m, rfl⟩ := Nat.exists_eq_add_of_le' h
  rfl

theorem txKindOf_eq : (n : Nat) →
    txKindOf n = if 1 < n then none else some (if n = 0 then .receival else .outturn)
  | 0 => rfl
  | 1 => rfl
  | n + 2 => (if_pos (Nat.lt_add_left n Nat.one_lt_two)).symm

theorem carriesGoods_iff {k : CaptureKind} : k.carriesGoods = true ↔ k = .first ∨ k = .singlePass := by
  cases k <;> decide

theorem longGrade_iff {g : Option Text} : 6 < (g.getD []).length ↔ ∃ t, g = some t ∧ 6 < t.length := by
  cases g <;> simp

namespace CaptureFields

variable {f : CaptureFields}

/-- A vehicle or a class that R94 turns down. -/
def BadVehicle (f : CaptureFields) : Prop :=
  (f.vehicle = [] ∨ 12 < f.vehicle.length ∨ ∃ b ∈ f.vehicle, BadChar b) ∨ f.cls = 0 ∨ 32 < f.cls

/-- Goods of a kind that carries them that R94 turns down. -/
def BadGoods (f : CaptureFields) (k : CaptureKind) : Prop :=
  (k = .first ∨ k = .singlePass) ∧ (999 < f.commodity ∨ ∃ g, f.grade = some g ∧ 6 < g.length)

theorem badVehicle_iff :
    (!validVehicle f.vehicle || !(decide (1 ≤ f.cls) && decide (f.cls ≤ 32))) = true ↔ f.BadVehicle := by
  have hvehicle := validVehicle_iff (t := f.vehicle)
  simp only [BadVehicle, Bool.or_eq_true, Bool.not_eq_true', ← Bool.not_eq_true, Bool.and_eq_true, decide_eq_true_eq,
    hvehicle, not_not]
  exact or_congr_right (by omega)

theorem badGoods_iff {k : CaptureKind} :
    (k.carriesGoods && (decide (999 < f.commodity) || decide (6 < (f.grade.getD []).length))) = true ↔ f.BadGoods k := by
  simp only [BadGoods, Bool.and_eq_true, Bool.or_eq_true, decide_eq_true_eq, carriesGoods_iff, longGrade_iff]

/-- A request that R94 turns down. -/
def Bad (f : CaptureFields) (k : CaptureKind) : Prop :=
  f.BadVehicle ∨ f.BadGoods k ∨ (k = .first ∧ 1 < f.txKind) ∨ (k = .tare ∧ f.flags % 2 = 1)

/-- What the payload's fields give to the operation, each for the kinds that use it (R94). -/
def asked (f : CaptureFields) (k : CaptureKind) : CaptureRequest :=
  { kind := k, vehicle := f.vehicle, cls := f.cls
    txKind := if k = .first then txKindOf f.txKind else none
    commodity := if k.carriesGoods then f.commodity else 0
    grade := if k.carriesGoods then f.grade else none
    txNumber := if k = .second then f.txNumber else 0
    allowComposite := f.flags % 2 == 1
    acceptIncomplete := decide (k = .second) && f.flags / 2 % 2 == 1 }

section
variable {k : CaptureKind} (hk : captureKindOf f.kind = some k)
include hk

theorem request_of_bad (h : f.Bad k) : f.request = none := by
  unfold request
  rw [hk]
  dsimp only
  split_ifs with hvehicle hgoods htx htare
  · rfl
  · rfl
  · rfl
  · rfl
  · obtain h | h | ⟨hfirst, h⟩ | ⟨hkind, h⟩ := h
    · exact absurd (badVehicle_iff.mpr h) hvehicle
    · exact absurd (badGoods_iff.mpr h) hgoods
    · exact absurd ⟨hfirst, by rw [txKindOf_eq, if_pos h]⟩ htx
    · exact absurd ⟨hkind, beq_iff_eq.mpr h⟩ htare

theorem request_of_good (h : ¬f.Bad k) : f.request = some (f.asked k) := by
  obtain ⟨hvehicle, hgoods, htx, htare⟩ : ¬f.BadVehicle ∧ ¬f.BadGoods k ∧ ¬(k = .first ∧ 1 < f.txKind) ∧
      ¬(k = .tare ∧ f.flags % 2 = 1) := by simpa only [Bad, not_or] using h
  have htx' : ¬(k = .first ∧ txKindOf f.txKind = none) := fun ⟨hfirst, hnone⟩ => htx ⟨hfirst, by
    by_contra hle
    rw [txKindOf_eq, if_neg hle] at hnone
    cases hnone⟩
  have htare' : ¬(k = .tare ∧ (f.flags % 2 == 1) = true) := fun ⟨hkind, hallow⟩ => htare ⟨hkind, beq_iff_eq.mp hallow⟩
  unfold request
  rw [hk]
  exact (if_neg (mt badVehicle_iff.mp hvehicle)).trans ((if_neg (mt badGoods_iff.mp hgoods)).trans
    ((if_neg htx').trans (if_neg htare')))

end

end CaptureFields

/-! ## The checks (R95, R117) -/

/-- The checks that come before those of the record store (R95, R114). -/
def captureEarly (s : State) (r : CaptureRequest) : Option Status :=
  match s.cap.slot with
  | .capture _ => some .busy
  | .adjustment _ => some .sessionOpen
  | .audit _ => some .sessionOpen
  | .free =>
    if s.acq.scale ≠ .run ∨ s.zm.zeroState ≠ .set ∨ s.metro.valid = false then some .notReady
    else if latestIsDeckDown s = true then some .deckDown
    else if r.kind ≠ .axleCheck ∧ s.tm.storeFault = true then some .storeFault
    else none

section
variable {s : State} {r : CaptureRequest}

/-- A latched STORE_FAULT refuses every kind that writes (R114). -/
theorem tmChecks_of_latched (hkind : r.kind ≠ .axleCheck) (h : s.tm.storeFault = true) :
    tmChecks s r = some .storeFault := by
  unfold tmChecks
  split
  · exact absurd ‹_› hkind
  all_goals exact if_pos h

theorem captureChecks_of_early {st : Status} (h : captureEarly s r = some st) : captureChecks s r = some st := by
  unfold captureChecks
  cases hslot : s.cap.slot with
  | capture op => rw [captureEarly, hslot] at h; exact h
  | adjustment x => rw [captureEarly, hslot] at h; exact h
  | audit x => rw [captureEarly, hslot] at h; exact h
  | free =>
    rw [captureEarly, hslot] at h
    dsimp only [slotHeld] at h ⊢
    by_cases hready : s.acq.scale ≠ .run ∨ s.zm.zeroState ≠ .set ∨ s.metro.valid = false
    · rw [if_pos hready] at h ⊢
      exact h
    · rw [if_neg hready] at h ⊢
      by_cases hdown : latestIsDeckDown s = true
      · rw [if_pos hdown] at h ⊢
        exact h
      · rw [if_neg hdown] at h ⊢
        split_ifs at h with hfault
        exact (tmChecks_of_latched hfault.1 hfault.2).trans h

/-- Behind those checks stand the transaction manager's, with STORE_FAULT not latched for a kind that writes. -/
theorem captureChecks_of_not_early (h : captureEarly s r = none) :
    captureChecks s r = tmChecks s r ∧ (r.kind ≠ .axleCheck → s.tm.storeFault = false) := by
  unfold captureChecks
  cases hslot : s.cap.slot with
  | capture op => rw [captureEarly, hslot] at h; cases h
  | adjustment x => rw [captureEarly, hslot] at h; cases h
  | audit x => rw [captureEarly, hslot] at h; cases h
  | free =>
    rw [captureEarly, hslot] at h
    dsimp only at h
    split_ifs at h with hready hdown hfault
    refine ⟨(if_neg hready).trans (if_neg hdown), fun hkind => ?_⟩
    exact Bool.eq_false_of_not_eq_true fun hlatched => hfault ⟨hkind, hlatched⟩

theorem hasVehicle_iff {st : Store} {v : Text} : st.hasVehicle v = true ↔ ∃ e ∈ st.entries, e.vehicle = v := by
  simp [Store.hasVehicle]

theorem tmChecks_axleCheck (hkind : r.kind = .axleCheck) : tmChecks s r = none := by
  rw [tmChecks, hkind]

variable (hfault : s.tm.storeFault = false)
include hfault

theorem tmChecks_first (hkind : r.kind = .first) : tmChecks s r =
    if ∃ e ∈ s.store.entries, e.vehicle = r.vehicle then some .vehicleOpen
    else if 64 ≤ s.store.entries.length then some .tableFull
    else if 4294967295 ≤ s.store.txCounter then some .counterExhausted else none := by
  simp only [tmChecks, hkind, hfault, ← hasVehicle_iff]
  rfl

theorem tmChecks_singlePass (hkind : r.kind = .singlePass) : tmChecks s r =
    if ∃ e ∈ s.store.entries, e.vehicle = r.vehicle then some .vehicleOpen
    else if 64 ≤ s.store.entries.length then some .tableFull
    else if 4294967295 ≤ s.store.txCounter ∨ 4294967295 ≤ s.store.ticketCounter then some .counterExhausted
    else if 32 - s.store.tickets.length - s.tm.reserved = 0 then some .storeFull else none := by
  simp only [tmChecks, hkind, hfault, ← hasVehicle_iff]
  rfl

theorem tmChecks_second_none (hkind : r.kind = .second) (h : s.store.entry r.txNumber = none) :
    tmChecks s r = some .noSuchTransaction := by
  simp [tmChecks, hkind, hfault, h]

theorem tmChecks_second_some (hkind : r.kind = .second) {e : OpenEntry} (h : s.store.entry r.txNumber = some e) :
    tmChecks s r =
      if e.vehicle ≠ r.vehicle then some .badRequest
      else if 4294967295 ≤ s.store.ticketCounter then some .counterExhausted
      else if 32 - s.store.tickets.length - s.tm.reserved = 0 then some .storeFull else none := by
  simp only [tmChecks, hkind, hfault, h]
  rfl

theorem tmChecks_tare (hkind : r.kind = .tare) : tmChecks s r =
    if s.metro.status.tradeReady = true then none else some .notTradeReady := by
  simp only [tmChecks, hkind, hfault]
  rfl

end

/-! ## An accepted request (R97, R98, R130) -/

section
variable {s : State} {r : CaptureRequest} {i : Fin 32}

/-- The operation of an accepted request, in the words of R97 and R98. -/
def startedOperation (s : State) (r : CaptureRequest) (i : Fin 32) : Operation :=
  { number := if 65535 ≤ s.cap.opCounter then 1 else s.cap.opCounter + 1
    request := r, profile := (s.site.classes.get i).profile, timeoutLimit := s.cap.timeout * 50
    timeoutCount := 0
    state := match s.axle.occupancy with
      | .whole => .settling
      | .part => if s.axle.certain = true ∧ r.allowComposite = true then .settling else .awaitingVehicle
      | .empty => .awaitingVehicle
    mode := .whole, positions := 0, credited := [] }

theorem classEntry_of_number (hcls : r.cls = i.val + 1) : s.classEntry r.cls = s.site.classes.get i := by
  rw [State.classEntry, classOf_of_lt i hcls]

theorem newOperation_eq (hcls : r.cls = i.val + 1) : newOperation s r = startedOperation s r i := by
  unfold newOperation startedOperation
  rw [classEntry_of_number hcls]
  congr 1
  unfold wholeState
  cases s.axle.occupancy with
  | empty => rfl
  | whole => rfl
  | part => simp

theorem reserves_iff {k : CaptureKind} : k.reserves = true ↔ k = .second ∨ k = .singlePass := by
  cases k <;> decide

/-- What an accepted request makes of the state (R97, R130). -/
def startedState (s : State) (r : CaptureRequest) (i : Fin 32) : State :=
  (s.setCap { s.cap with slot := .capture (startedOperation s r i), opCounter := (startedOperation s r i).number }).setTm
    { s.tm with reserved := if r.kind = .second ∨ r.kind = .singlePass then 1 else s.tm.reserved }

theorem acceptCapture_st (hcls : r.cls = i.val + 1) (e : Ev) : (acceptCapture r e).1.st = startedState e.st r i := by
  change (if r.kind.reserves = true then setReserved 1 _ else _ : State) = _
  rw [newOperation_eq hcls, startedState]
  by_cases hreserves : r.kind.reserves = true
  · rw [if_pos hreserves, if_pos (reserves_iff.mp hreserves)]
    rfl
  · rw [if_neg hreserves, if_neg (mt reserves_iff.mpr hreserves)]
    rfl

end

/-! ## Start Capture (R94, R95, R97) -/

section
variable {p : List Byte} {f : CaptureFields} {s : State} {r : CaptureRequest} {i : Fin 32}

theorem exec_startCapture (p : List Byte) (s : State) : exec (.startCapture p) s =
    requestWith 0xB0 (parseCapture p) startCapture s := rfl

variable (hp : parseCapture p = some f) (hready : s.ready)
include hp hready

theorem exec_startCapture_of_bad (h : f.request = none) :
    exec (.startCapture p) s = .next (answered 0xB0 { status := .badRequest, body := .none } [] s) := by
  rw [exec_startCapture]
  exact requestWith_refused hp hready (by simp only [startCapture, h]; rfl)

variable (h : f.request = some r) (hcls : r.cls = i.val + 1)
include h hcls

theorem exec_startCapture_of_unused (hunused : (s.site.classes.get i).inUse = false) :
    exec (.startCapture p) s = .next (answered 0xB0 { status := .badRequest, body := .none } [] s) := by
  rw [exec_startCapture]
  refine requestWith_refused hp hready ?_
  simp only [startCapture, h]
  exact if_pos (by rw [classEntry_of_number hcls]; exact hunused)

variable (hused : (s.site.classes.get i).inUse = true)
include hused

omit hp hready in
theorem startCapture_of_used : startCapture f (Ev.start (endFrame s)) = (match captureChecks s r with
    | some st => (Ev.start (endFrame s), Reply.bare st)
    | none => acceptCapture r (Ev.start (endFrame s))) := by
  have hentry : ((Ev.start (endFrame s)).st.classEntry r.cls).inUse = true := by
    rw [classEntry_of_number hcls]
    exact hused
  simp only [startCapture, h, hentry]
  rfl

theorem exec_startCapture_of_refused {st : Status} (hchecks : captureChecks s r = some st) :
    exec (.startCapture p) s = .next (answered 0xB0 { status := st, body := .none } [] s) := by
  rw [exec_startCapture]
  refine requestWith_refused hp hready ((startCapture_of_used h hcls hused).trans ?_)
  rw [hchecks]
  rfl

theorem exec_startCapture_of_accepted (hchecks : captureChecks s r = none) :
    exec (.startCapture p) s = .next (executed 0xB0
      { status := .accepted, body := .operation (startedOperation s r i).number }
      [.operationState (startedOperation s r i).number (startedOperation s r i).state .whole 0] s
      (startedState s r i)) := by
  rw [exec_startCapture]
  have haccept := startCapture_of_used h hcls hused
  rw [hchecks] at haccept
  have hop : newOperation (endFrame s) r = startedOperation s r i := newOperation_eq hcls
  refine requestWith_executed hp hready (haccept.trans (Prod.ext rfl ?_)) ?_
    ((acceptCapture_st hcls _).trans rfl)
  · change ({ status := .accepted, body := .operation (newOperation (endFrame s) r).number } : Reply) = _
    rw [hop]
  · change [opNote (newOperation (endFrame s) r)] = _
    rw [hop]
    rfl

end

/-- Settles O44: the fields by the kind, then the checks in their order; an accepted request holds the slot. -/
theorem startCaptureDecided : Obligations.StartCaptureDecided := by
  intro p f s hp hready badChar bad
  refine ⟨fun hbad => ?bad, fun hgood => ?good, exec_startCapture_of_bad hp hready, fun r i h hcls =>
    ⟨exec_startCapture_of_unused hp hready h hcls, fun hused => ?used⟩⟩
  case bad =>
    obtain hkind | hkind := Nat.lt_or_ge 4 f.kind
    · simp only [CaptureFields.request, captureKindOf_of_gt hkind]
    · obtain ⟨k, hk⟩ := captureKindOf_of_le hkind
      obtain ⟨-, hfirst, -, hsingle, htare, -⟩ := captureKindOf_iff hk
      refine CaptureFields.request_of_bad hk ?_
      dsimp only [bad, CaptureFields.Bad, CaptureFields.BadVehicle, CaptureFields.BadGoods] at hbad ⊢
      rw [← hfirst, ← hsingle, ← htare]
      obtain h | h | h | h | h | h | h | h | h := hbad
      · omega
      · exact Or.inl (Or.inl (Or.inl h))
      · exact Or.inl (Or.inl (Or.inr (Or.inl h)))
      · exact Or.inl (Or.inl (Or.inr (Or.inr h)))
      · exact Or.inl (Or.inr (Or.inl h))
      · exact Or.inl (Or.inr (Or.inr h))
      · exact Or.inr (Or.inl h)
      · exact Or.inr (Or.inr (Or.inl h))
      · exact Or.inr (Or.inr (Or.inr h))
  case good =>
    have hkind : f.kind ≤ 4 := by
      by_contra hgt
      exact hgood (Or.inl (Nat.not_le.mp hgt))
    obtain ⟨k, hk⟩ := captureKindOf_of_le hkind
    obtain ⟨-, hfirst, hsecond, hsingle, htare, hcheck⟩ := captureKindOf_iff hk
    have hnotbad : ¬f.Bad k := by
      dsimp only [CaptureFields.Bad, CaptureFields.BadVehicle, CaptureFields.BadGoods]
      rw [← hfirst, ← hsingle, ← htare]
      rintro (((h | h | h) | h | h) | h | h | h)
      · exact hgood (Or.inr (Or.inl h))
      · exact hgood (Or.inr (Or.inr (Or.inl h)))
      · exact hgood (Or.inr (Or.inr (Or.inr (Or.inl h))))
      · exact hgood (Or.inr (Or.inr (Or.inr (Or.inr (Or.inl h)))))
      · exact hgood (Or.inr (Or.inr (Or.inr (Or.inr (Or.inr (Or.inl h))))))
      · exact hgood (Or.inr (Or.inr (Or.inr (Or.inr (Or.inr (Or.inr (Or.inl h)))))))
      · exact hgood (Or.inr (Or.inr (Or.inr (Or.inr (Or.inr (Or.inr (Or.inr (Or.inl h))))))))
      · exact hgood (Or.inr (Or.inr (Or.inr (Or.inr (Or.inr (Or.inr (Or.inr (Or.inr h))))))))
    have hgoods : (f.kind = 0 ∨ f.kind = 2) ↔ k.carriesGoods = true := by
      rw [carriesGoods_iff, hfirst, hsingle]
    refine ⟨f.asked k, CaptureFields.request_of_good hk hnotbad, rfl, rfl, ?tx, ?commodity, ?grade, ?number, ?accept,
      beq_iff_eq, hfirst, hsecond, hsingle, htare, hcheck⟩
    case tx =>
      refine (if_congr hfirst.symm rfl rfl).trans ?_
      by_cases h : f.kind = 0
      · have hone : ¬1 < f.txKind := fun hgt => hgood
          (Or.inr (Or.inr (Or.inr (Or.inr (Or.inr (Or.inr (Or.inr (Or.inl ⟨h, hgt⟩))))))))
        rw [if_pos h, if_pos h, txKindOf_eq, if_neg hone]
      · rw [if_neg h, if_neg h]
    case commodity => exact if_congr hgoods.symm rfl rfl
    case grade => exact if_congr hgoods.symm rfl rfl
    case number => exact if_congr hsecond.symm rfl rfl
    case accept => simp [CaptureFields.asked, hsecond]
  case used =>
    intro hasEntry noSlot txOut ticketOut early refusedWith accepted
    have hrefused : ∀ {st}, captureChecks s r = some st → refusedWith st :=
      fun hchecks => exec_startCapture_of_refused hp hready h hcls hused hchecks
    have haccepted : captureChecks s r = none → accepted :=
      fun hchecks => exec_startCapture_of_accepted hp hready h hcls hused hchecks
    refine ⟨fun st hearly => hrefused (captureChecks_of_early hearly), fun hearly => ?_⟩
    obtain ⟨hchecks, hfault⟩ := captureChecks_of_not_early (s := s) (r := r) hearly
    rw [hchecks] at hrefused haccepted
    refine ⟨fun hkind => haccepted (tmChecks_axleCheck hkind), fun hkind => ?first, fun hkind => ?single,
      fun hkind => ?second, fun hkind => ?tare⟩
    case first =>
      have htm := tmChecks_first (hfault (by rw [hkind]; decide)) hkind
      refine ⟨fun h1 => hrefused (htm.trans (if_pos h1)), fun h1 h2 => hrefused (htm.trans ?_),
        fun h1 h2 h3 => hrefused (htm.trans ?_), fun h1 h2 h3 => haccepted (htm.trans ?_)⟩
      · exact (if_neg h1).trans (if_pos h2)
      · exact (if_neg h1).trans ((if_neg (Nat.not_le.mpr h2)).trans (if_pos h3))
      · exact (if_neg h1).trans ((if_neg (Nat.not_le.mpr h2)).trans (if_neg h3))
    case single =>
      have htm := tmChecks_singlePass (hfault (by rw [hkind]; decide)) hkind
      refine ⟨fun h1 => hrefused (htm.trans (if_pos h1)), fun h1 h2 => hrefused (htm.trans ?_),
        fun h1 h2 h3 => hrefused (htm.trans ?_), fun h1 h2 h3 h4 => hrefused (htm.trans ?_),
        fun h1 h2 h3 h4 => haccepted (htm.trans ?_)⟩
      · exact (if_neg h1).trans (if_pos h2)
      · exact (if_neg h1).trans ((if_neg (Nat.not_le.mpr h2)).trans (if_pos h3))
      · exact (if_neg h1).trans ((if_neg (Nat.not_le.mpr h2)).trans ((if_neg h3).trans (if_pos h4)))
      · exact (if_neg h1).trans ((if_neg (Nat.not_le.mpr h2)).trans ((if_neg h3).trans (if_neg h4)))
    case second =>
      have hfault' := hfault (by rw [hkind]; decide)
      refine ⟨fun hnone => hrefused (tmChecks_second_none hfault' hkind hnone), fun e he => ?_⟩
      have htm := tmChecks_second_some hfault' hkind he
      refine ⟨fun h1 => hrefused (htm.trans (if_pos h1)), fun h1 h2 => hrefused (htm.trans ?_),
        fun h1 h2 h3 => hrefused (htm.trans ?_), fun h1 h2 h3 => haccepted (htm.trans ?_)⟩
      · exact (if_neg (not_not_intro h1)).trans (if_pos h2)
      · exact (if_neg (not_not_intro h1)).trans ((if_neg h2).trans (if_pos h3))
      · exact (if_neg (not_not_intro h1)).trans ((if_neg h2).trans (if_neg h3))
    case tare =>
      have htm := tmChecks_tare (hfault (by rw [hkind]; decide)) hkind
      refine ⟨fun hready' => hrefused (htm.trans (if_neg (by simp [hready']))), fun hready' =>
        haccepted (htm.trans (if_pos hready'))⟩

end Sys2Proof.Machine

/-! PROOFS. What the transaction manager makes of a capture result (R112, R114, R118, R120, R123 to R125, R128, R129). -/

namespace Sys2Proof.Machine

/-! ## The reason set (R128) -/

theorem bne_eq_decide_ne (a b : Nat) : (a != b) = decide (a ≠ b) := by
  by_cases h : a = b <;> simp [h]

/-- Nothing speaks against trade. -/
theorem tradeReasons_clean {status : StatusReasons} {closing other : WeighingFacts} {net : Int} :
    (tradeReasons status closing other net).list.any id = false ↔
      status.tradeReady = true ∧ closing.stamped = true ∧ other.stamped = true ∧ closing.counter = other.counter ∧
      (closing.flags.composite = false ∧ other.flags.composite = false) ∧
      (closing.flags.substituted = false ∧ other.flags.substituted = false) ∧
      (closing.flags.overMax = false ∧ other.flags.overMax = false) ∧
      (closing.flags.belowMin = false ∧ other.flags.belowMin = false) ∧ 0 ≤ net := by
  rw [tradeReady_iff]
  simp only [TradeReasons.list, StatusReasons.list, tradeReasons, List.cons_append, List.nil_append, List.any_cons,
    List.any_nil, id, Bool.or_eq_false_iff, bne_eq_decide_ne, decide_eq_false_iff_not, not_not, Bool.not_eq_false',
    not_lt, and_true]
  tauto

/-- The reason set of a SECOND, its weighings in the order of the ticket. -/
theorem tradeReasons_second (r : CaptureResult) (w : FirstWeighing) (net : Int) :
    tradeReasons r.status r.facts w.facts net =
      { status := { r.status with timeUnset := r.status.timeUnset || w.stamp.isNone || r.stamp.isNone }
        mixedCalibration := decide (w.counter ≠ r.counter)
        composite := w.flags.composite || r.flags.composite
        substituted := w.flags.substituted || r.flags.substituted
        overMax := w.flags.overMax || r.flags.overMax
        belowMin := w.flags.belowMin || r.flags.belowMin, reversed := decide (net < 0) } := by
  have hunset : (r.status.timeUnset || !r.stamp.isSome || !w.stamp.isSome) =
      (r.status.timeUnset || w.stamp.isNone || r.stamp.isNone) := by
    cases r.stamp <;> cases w.stamp <;> simp
  simp only [tradeReasons, CaptureResult.facts, FirstWeighing.facts, hunset, bne_eq_decide_ne, ne_comm,
    Bool.or_comm w.flags.composite, Bool.or_comm w.flags.substituted, Bool.or_comm w.flags.overMax,
    Bool.or_comm w.flags.belowMin]

theorem tradeReasons_stored (r : CaptureResult) (x : StoredTare) (net : Int) :
    tradeReasons r.status r.facts x.facts net =
      { status := { r.status with timeUnset := r.status.timeUnset || r.stamp.isNone }
        mixedCalibration := decide (x.counter ≠ r.counter), composite := r.flags.composite
        substituted := r.flags.substituted, overMax := r.flags.overMax, belowMin := r.flags.belowMin
        reversed := decide (net < 0) } := by
  have hunset : (r.status.timeUnset || !r.stamp.isSome || !true) = (r.status.timeUnset || r.stamp.isNone) := by
    cases r.stamp <;> simp
  simp only [tradeReasons, CaptureResult.facts, StoredTare.facts, noFlags, hunset, bne_eq_decide_ne, ne_comm,
    Bool.or_false]

theorem tareReasons_eq (r : CaptureResult) : tareReasons r =
    { status := { r.status with timeUnset := r.status.timeUnset || r.stamp.isNone }
      mixedCalibration := false, composite := r.flags.composite, substituted := r.flags.substituted
      overMax := r.flags.overMax, belowMin := r.flags.belowMin, reversed := false } := by
  simp [tareReasons, tradeReasons, CaptureResult.facts]

theorem tareReasons_clean {r : CaptureResult} : (tareReasons r).list.any id = false ↔
    r.status.tradeReady = true ∧ r.stamp ≠ none ∧ r.flags.composite = false ∧ r.flags.substituted = false ∧
      r.flags.overMax = false ∧ r.flags.belowMin = false := by
  rw [tareReasons, tradeReasons_clean]
  simp only [CaptureResult.facts, Option.isSome_iff_ne_none]
  simp

/-! ## The writes (R112, R114, R129) -/

section
variable {e : Ev} {w : StoreWrite}

/-- A write that fails while STORE_FAULT is not latched. -/
theorem latchStoreFault_of_clear (h : e.st.tm.storeFault = false) : latchStoreFault w e =
    { e with st := e.st.setTm { e.st.tm with storeFault := true }, notes := e.notes ++ [.storeFault w] } := by
  simp only [latchStoreFault, h]
  rfl

theorem issueWrite_true (t : Ticket) (also : Store → Store)
    (halso : ∀ st, (also st).tickets = st.tickets) : issueWrite true t also e =
      { e with
        st := (e.st.setStore (also { e.st.store with
          tickets := e.st.store.tickets ++ [t], ticketCounter := t.number })).setTm { e.st.tm with reserved := 0 }
        notes := e.notes ++ ticketNotes t.number (e.st.store.tickets.length + 1) e.st.site.ticket.watermark } := by
  have hcount : (also { e.st.store with
      tickets := e.st.store.tickets ++ [t], ticketCounter := t.number }).tickets.length =
      e.st.store.tickets.length + 1 := by
    rw [halso]
    exact List.length_append
  rw [← hcount]
  rfl

end

/-! ## The kinds (R107, R114) -/

section
variable {ok : Bool} {r : CaptureResult} {e : Ev}

theorem completeKind_axleCheck (h : r.request.kind = .axleCheck) : completeKind ok r e = (e, some .checked) := by
  simp only [completeKind, h]

theorem completeKind_of_latched (h : r.request.kind ≠ .axleCheck) (hfault : e.st.tm.storeFault = true) :
    completeKind ok r e = (e, none) := by
  unfold completeKind
  split
  · exact absurd ‹_› h
  all_goals exact if_pos hfault

variable (hfault : e.st.tm.storeFault = false)
include hfault

theorem completeKind_first (h : r.request.kind = .first) : completeKind ok r e = completeFirst ok r e := by
  simp only [completeKind, h]
  exact if_neg (by simp [hfault])

theorem completeKind_second (h : r.request.kind = .second) : completeKind ok r e = completeSecond ok r e := by
  simp only [completeKind, h]
  exact if_neg (by simp [hfault])

theorem completeKind_singlePass (h : r.request.kind = .singlePass) :
    completeKind ok r e = completeSinglePass ok r e := by
  simp only [completeKind, h]
  exact if_neg (by simp [hfault])

theorem completeKind_tare (h : r.request.kind = .tare) : completeKind ok r e = completeTare ok r e := by
  simp only [completeKind, h]
  exact if_neg (by simp [hfault])

/-! ## The Open write (R118) -/

theorem openWrite_false (kind : TxKind) : openWrite false kind r e =
    { e with st := e.st.setTm { e.st.tm with storeFault := true }, notes := e.notes ++ [.storeFault .openEntry] } :=
  latchStoreFault_of_clear hfault

end

/-! ## A SECOND (R120) -/

section
variable {ok : Bool} {r : CaptureResult} {e : Ev} {x : OpenEntry}

/-- A SECOND that is ticketed: a RECEIVAL, or an OUTTURN that is COMPLIANT or accepted INCOMPLETE (R120). -/
def Ticketed (kind : TxKind) (v : VehicleVerdict) (accept : Bool) : Prop :=
  kind = .receival ∨ v = .compliant ∨ v = .incomplete ∧ accept = true

theorem reworkReason_of_ticketed {kind : TxKind} {v : Verdict} {accept : Bool}
    (h : Ticketed kind v.vehicle accept) : reworkReason kind v accept = none := by
  unfold reworkReason
  obtain rfl | h | ⟨h, rfl⟩ := h
  · rfl
  · rw [h]
    cases kind <;> rfl
  · rw [h]
    cases kind <;> rfl

theorem reworkReason_of_not_ticketed {kind : TxKind} {v : Verdict} {accept : Bool}
    (h : ¬Ticketed kind v.vehicle accept) : reworkReason kind v accept =
      some (if v.vehicle = .overloaded then .overloaded else .incomplete v.reasons) := by
  unfold reworkReason
  cases kind with
  | receival => exact absurd (Or.inl rfl) h
  | outturn =>
    cases hv : v.vehicle with
    | compliant => exact absurd (Or.inr (Or.inl hv)) h
    | overloaded => rfl
    | incomplete =>
      cases accept with
      | true => exact absurd (Or.inr (Or.inr ⟨hv, rfl⟩)) h
      | false => rfl

variable (hx : e.st.store.entry r.request.txNumber = some x)
include hx

theorem completeSecond_of_ticketed (h : Ticketed x.kind r.verdict.vehicle r.request.acceptIncomplete) :
    completeSecond ok r e =
      (issueWrite ok (secondTicket (e.st.store.ticketCounter + 1) x r (netOf x.kind x.first.gross r.gross))
        (removeEntry x.number) e, if ok then some (.ticketIssued (e.st.store.ticketCounter + 1) x.number) else none) := by
  simp only [completeSecond, hx, reworkReason_of_ticketed h]
  rfl

theorem completeSecond_of_rework (h : ¬Ticketed x.kind r.verdict.vehicle r.request.acceptIncomplete) :
    completeSecond ok r e =
      (storeWrite ok .rework (fun s => s.setStore (reworkEntry x.number
        (if r.verdict.vehicle = .overloaded then .overloaded else .incomplete r.verdict.reasons) s.store)) e,
        if ok then some (.rework x.number
          (if r.verdict.vehicle = .overloaded then .overloaded else .incomplete r.verdict.reasons)) else none) := by
  simp only [completeSecond, hx, reworkReason_of_not_ticketed h]

end

/-! ## A TARE (R123) -/

section
variable {ok : Bool} {r : CaptureResult} {e : Ev}

theorem completeTare_of_clean {stamp : DateTime} (hreasons : (tareReasons r).list.any id = false)
    (hverdict : r.verdict.vehicle = .compliant) (hstamp : r.stamp = some stamp) : completeTare ok r e =
      (storeWrite ok .tare (fun s => s.setStore { s.store with
        tares := s.store.tares.set (chooseSlot e.st.store r.request.vehicle) (some
          { vehicle := r.request.vehicle, mass := r.gross, date := stamp.date, counter := r.counter }) }) e,
        if ok then some (.tareStored ((chooseSlot e.st.store r.request.vehicle).val + 1)
          (displaced e.st.store r.request.vehicle (chooseSlot e.st.store r.request.vehicle))) else none) := by
  simp only [completeTare, hreasons, hverdict, hstamp]
  rfl

theorem completeTare_of_not_clean
    (h : ¬((tareReasons r).list.any id = false ∧ r.verdict.vehicle = .compliant)) :
    completeTare ok r e = (e, some (.tareNotStored (tareReasons r))) := by
  have hbad : ((tareReasons r).list.any id || r.verdict.vehicle != .compliant) = true := by
    rw [← Bool.not_eq_false, Bool.or_eq_false_iff, bne_eq_false_iff_eq]
    exact h
  simp only [completeTare, hbad]

/-- The slot of a stored tare, and the vehicle that it displaces (R123). -/
theorem slot_of_holder {st : Store} {v : Text} {i : Fin 128} {x : StoredTare} (hx : st.tares.get i = some x)
    (hv : x.vehicle = v) (hunique : ∀ j y, st.tares.get j = some y → y.vehicle = v → j = i) :
    chooseSlot st v = i ∧ displaced st v i = none := by
  refine ⟨by simp only [chooseSlot, tareSlot_eq hx hv hunique], ?_⟩
  simp [displaced, hx, hv]

theorem slot_of_empty {st : Store} {v : Text} {i : Fin 128} (hnone : ∀ j y, st.tares.get j = some y → y.vehicle ≠ v)
    (hi : st.tares.get i = none) (hlow : ∀ j, j < i → st.tares.get j ≠ none) :
    chooseSlot st v = i ∧ displaced st v i = none :=
  ⟨chooseSlot_empty (tareSlot_eq_none hnone) hi hlow, by simp [displaced, hi]⟩

theorem slot_of_full {st : Store} {v : Text} {i : Fin 128} {x : StoredTare}
    (hnone : ∀ j y, st.tares.get j = some y → y.vehicle ≠ v) (hfull : ∀ j, st.tares.get j ≠ none)
    (hx : st.tares.get i = some x) (hold : ∀ j y, st.tares.get j = some y →
      x.date.dayNumber < y.date.dayNumber ∨ x.date.dayNumber = y.date.dayNumber ∧ i ≤ j) :
    chooseSlot st v = i ∧ displaced st v i = some x.vehicle := by
  refine ⟨chooseSlot_oldest (tareSlot_eq_none hnone) hfull fun j => ?_, by simp [displaced, hx, hnone i x hx]⟩
  obtain ⟨y, hy⟩ := Option.ne_none_iff_exists'.mp (hfull j)
  simpa [tareDay, hx, hy] using hold j y hy

end

/-! ## A SINGLE_PASS (R124, R125) -/

section
variable {ok : Bool} {r : CaptureResult} {e : Ev} {s : State} {v : Text} {i : Fin 128} {x : StoredTare}

theorem judgeTare_of_none (h : ∀ j y, s.store.tares.get j = some y → y.vehicle ≠ v) : judgeTare s v = .inr .noTare := by
  simp [judgeTare, Store.tareOf, tareSlot_eq_none h]

/-- The slot `i` holds the one stored tare of the vehicle. -/
theorem tareOf_of_holder (hx : s.store.tares.get i = some x) (hv : x.vehicle = v)
    (hunique : ∀ j y, s.store.tares.get j = some y → y.vehicle = v → j = i) : s.store.tareOf v = some x := by
  simp [Store.tareOf, tareSlot_eq hx hv hunique, hx]

theorem judgeTare_of_unusable {reason : FallbackReason} (h : s.store.tareOf v = some x)
    (hreason : tareUnusable x s.cal.value s.site.ticket.tareValidity s.store.eventCounter = some reason) :
    judgeTare s v = .inr reason := by
  simp only [judgeTare, h, hreason]

theorem judgeTare_of_usable (h : s.store.tareOf v = some x)
    (hnone : tareUnusable x s.cal.value s.site.ticket.tareValidity s.store.eventCounter = none) :
    judgeTare s v = .inl x := by
  simp only [judgeTare, h, hnone]

variable {now : DateTime} {validity counter : Nat}

/-- The date of a stored tare lies ahead or too far back (R124). -/
theorem tareAged_iff : (tareAge x.date now.date < 0 ∨ (validity : Int) < tareAge x.date now.date) ↔
    now.date.dayNumber < x.date.dayNumber ∨ x.date.dayNumber + validity < now.date.dayNumber := by
  unfold tareAge
  omega

theorem tareUnusable_of_aged
    (h : now.date.dayNumber < x.date.dayNumber ∨ x.date.dayNumber + validity < now.date.dayNumber) :
    tareUnusable x (some now) validity counter = some .tareAged := if_pos (tareAged_iff.mpr h)

section
variable (h : ¬(now.date.dayNumber < x.date.dayNumber ∨ x.date.dayNumber + validity < now.date.dayNumber))
include h

theorem tareUnusable_of_counter (hcounter : x.counter ≠ counter) :
    tareUnusable x (some now) validity counter = some .tareCounter :=
  (if_neg (mt tareAged_iff.mp h)).trans (if_pos hcounter)

theorem tareUnusable_of_usable (hcounter : x.counter = counter) : tareUnusable x (some now) validity counter = none :=
  (if_neg (mt tareAged_iff.mp h)).trans (if_neg (not_not_intro hcounter))

end

theorem completeSinglePass_of_fallback {reason : FallbackReason} (h : judgeTare e.st r.request.vehicle = .inr reason) :
    completeSinglePass ok r e =
      (openWrite ok .receival r e, if ok then some (.fallbackTwoPass (e.st.store.txCounter + 1) reason) else none) := by
  simp only [completeSinglePass, h]

theorem completeSinglePass_of_usable (h : judgeTare e.st r.request.vehicle = .inl x) : completeSinglePass ok r e =
    (issueWrite ok (singlePassTicket (e.st.store.ticketCounter + 1) (e.st.store.txCounter + 1) x r)
      (fun st => { st with txCounter := e.st.store.txCounter + 1 }) e,
      if ok then some (.ticketIssued (e.st.store.ticketCounter + 1) (e.st.store.txCounter + 1)) else none) := by
  simp only [completeSinglePass, h]
  rfl

end

/-! ## The obligation -/

/-- Settles O46: each kind's completion by its write, failed or verified. -/
theorem completionsRecorded : Obligations.CompletionsRecorded := by
  refine ⟨fun ok r e => ⟨completeKind_axleCheck, completeKind_of_latched⟩, fun ok r e hfault => ?_⟩
  have hlatch : ∀ w, latchStoreFault w e =
      { e with st := e.st.setTm { e.st.tm with storeFault := true }, notes := e.notes ++ [.storeFault w] } :=
    fun w => latchStoreFault_of_clear hfault
  refine ⟨fun kind hkind htx => ?first, fun x hkind hx => ?second, fun hkind => ?tare, fun hkind => ?single⟩
  case first =>
    have hcomplete := completeKind_first (ok := ok) hfault hkind
    rw [completeFirst, htx] at hcomplete
    refine ⟨fun hok => ?_, fun hok => ?_⟩
    · subst hok
      exact hcomplete.trans (Prod.ext (hlatch _) rfl)
    · subst hok
      exact hcomplete
  case second =>
    have hcomplete := completeKind_second (ok := ok) hfault hkind
    refine ⟨fun hticketed hok => ?_, fun hticketed hok => ⟨?clean, ?issued⟩, fun hrework hok => ?_, fun hrework hok => ?_⟩
    · subst hok
      rw [completeSecond_of_ticketed hx hticketed] at hcomplete
      exact hcomplete.trans (Prod.ext (hlatch .issue) rfl)
    case clean =>
      rw [← tradeReasons_second r x.first]
      refine tradeReasons_clean.trans ?_
      simp only [CaptureResult.facts, FirstWeighing.facts, Option.isSome_iff_ne_none, List.forall_mem_cons,
        List.not_mem_nil, false_implies, implies_true, and_true]
      constructor
      · rintro ⟨hready, hr, hw, hcounter, ⟨hc, hc'⟩, ⟨hs, hs'⟩, ⟨ho, ho'⟩, ⟨hb, hb'⟩, hnet⟩
        exact ⟨hready, hcounter.symm, hw, hr, hnet, ⟨hc, hs, ho, hb⟩, hc', hs', ho', hb'⟩
      · rintro ⟨hready, hcounter, hw, hr, hnet, ⟨hc, hs, ho, hb⟩, hc', hs', ho', hb'⟩
        exact ⟨hready, hr, hw, hcounter.symm, ⟨hc, hc'⟩, ⟨hs, hs'⟩, ⟨ho, ho'⟩, ⟨hb, hb'⟩, hnet⟩
    case issued =>
      subst hok
      rw [completeSecond_of_ticketed hx hticketed, issueWrite_true _ (removeEntry x.number) fun _ => rfl, secondTicket,
        tradeReasons_second] at hcomplete
      refine hcomplete.trans ?_
      simp only [removeEntry, bne_eq_decide_ne]
      rfl
    · subst hok
      rw [completeSecond_of_rework hx hrework] at hcomplete
      exact hcomplete.trans (Prod.ext (hlatch _) rfl)
    · subst hok
      rw [completeSecond_of_rework hx hrework] at hcomplete
      exact hcomplete
  case tare =>
    intro v clean stored
    have hcomplete := completeKind_tare (ok := ok) hfault hkind
    refine ⟨fun hnot => ?notStored, fun hclean hverdict => ?stored⟩
    case notStored =>
      rw [completeTare_of_not_clean fun h => hnot ⟨tareReasons_clean.mp h.1, h.2⟩, tareReasons_eq] at hcomplete
      exact hcomplete
    case stored =>
      have hslot : ∀ i gone, chooseSlot e.st.store v = i ∧ displaced e.st.store v i = gone → stored i gone := by
        rintro i gone ⟨hi, hgone⟩ t hstamp
        rw [completeTare_of_clean (tareReasons_clean.mpr hclean) hverdict hstamp, hi, hgone] at hcomplete
        refine ⟨fun hok => ?_, fun hok => ?_⟩
        · subst hok
          exact hcomplete.trans (Prod.ext (hlatch _) rfl)
        · subst hok
          exact hcomplete
      exact ⟨fun i x hx hv hunique => hslot i none (slot_of_holder hx hv hunique), fun hnone =>
        ⟨fun i hi hlow => hslot i none (slot_of_empty hnone hi hlow), fun i x hfull hx hold =>
          hslot i _ (slot_of_full hnone hfull hx hold)⟩⟩
  case single =>
    intro v tx usable fallback
    have hcomplete := completeKind_singlePass (ok := ok) hfault hkind
    have hfallback : ∀ reason, judgeTare e.st v = .inr reason → fallback reason := by
      intro reason hjudge
      rw [completeSinglePass_of_fallback hjudge] at hcomplete
      refine ⟨fun hok => ?_, fun hok => ?_⟩
      · subst hok
        exact hcomplete.trans (Prod.ext (hlatch _) rfl)
      · subst hok
        exact hcomplete
    refine ⟨fun hnone => hfallback _ (judgeTare_of_none hnone), fun i x hx hv hunique => ?_⟩
    have htare := tareOf_of_holder hx hv hunique
    have husable : usable x → judgeTare e.st v = .inl x := by
      rintro ⟨now, hnow, hfrom, hto, hcounter⟩
      refine judgeTare_of_usable htare ?_
      rw [hnow]
      exact tareUnusable_of_usable (by omega) hcounter
    refine ⟨fun hundated => hfallback _ (judgeTare_of_unusable htare (by rw [hundated]; rfl)), fun now hnow =>
      ⟨fun haged => hfallback _ (judgeTare_of_unusable htare (by rw [hnow]; exact tareUnusable_of_aged haged)),
        fun hfresh hcounter => hfallback _ (judgeTare_of_unusable htare
          (by rw [hnow]; exact tareUnusable_of_counter hfresh hcounter))⟩,
      fun huse hok => ?failed, fun huse hok => ⟨?clean, ?issued⟩⟩
    case failed =>
      subst hok
      rw [completeSinglePass_of_usable (husable huse)] at hcomplete
      exact hcomplete.trans (Prod.ext (hlatch .issue) rfl)
    case clean =>
      rw [← tradeReasons_stored]
      refine tradeReasons_clean.trans ?_
      simp only [CaptureResult.facts, StoredTare.facts, noFlags, Option.isSome_iff_ne_none, true_and, and_true]
      constructor
      · rintro ⟨hready, hr, hcounter, hc, hs, ho, hb, hnet⟩
        exact ⟨hready, hr, hcounter, hnet, hc, hs, ho, hb⟩
      · rintro ⟨hready, hr, hcounter, hnet, hc, hs, ho, hb⟩
        exact ⟨hready, hr, hcounter, hc, hs, ho, hb, hnet⟩
    case issued =>
      subst hok
      rw [completeSinglePass_of_usable (husable huse), issueWrite_true _ (fun st => { st with txCounter := tx })
        fun _ => rfl, singlePassTicket] at hcomplete
      dsimp only at hcomplete
      rw [tradeReasons_stored] at hcomplete
      exact hcomplete

end Sys2Proof.Machine

/-! PROOFS. How an operation moves (R97, R98, R103, R104). -/

namespace Sys2Proof.Machine

/-! ## The moves of an operation (R97, R98, R104) -/

/-- An operation put into a state, with OPERATION_STATE when that changes it (R97). -/
def movedTo (x : OpState) (op : Operation) (e : Ev) : Ev :=
  if x = op.state then e
  else
    { e with
      st := e.st.setCap { e.st.cap with slot := .capture { op with state := x } }
      notes := e.notes ++ [.operationState op.number x op.mode op.positions] }

/-- The state that the map gives to an operation in WHOLE mode (R98). -/
def stateBy (m : AxleMap) (op : Operation) : OpState :=
  if m.occupancy = .whole ∨ m.occupancy = .part ∧ m.certain = true ∧ op.request.allowComposite = true then .settling
  else .awaitingVehicle

/-- A crossing returns an operation from POSITION_WAIT to SETTLING (R101). -/
def Resumes (rep : MapReport) (op : Operation) : Prop := rep.crossing = true ∧ op.state = .positionWait

section
variable {ok : Bool} {rep : MapReport} {op : Operation} {e : Ev} {reason : FailReason}

theorem failOp_eq : failOp op reason e =
    { e with
      st := (e.st.setTm { e.st.tm with reserved := 0 }).setCap { e.st.cap with slot := .free }
      notes := e.notes ++ [.captureFailed op.number op.request.kind reason op.positions] } := rfl

theorem movedTo_of_ne {x : OpState} (h : x ≠ op.state) : movedTo x op e =
    { e with
      st := e.st.setCap { e.st.cap with slot := .capture { op with state := x } }
      notes := e.notes ++ [.operationState op.number x op.mode op.positions] } := if_neg h

theorem movedTo_self : movedTo op.state op e = e := if_pos rfl

theorem wholeState_eq (m : AxleMap) (op : Operation) :
    wholeState m.occupancy m.certain op.request.allowComposite = stateBy m op := by
  unfold wholeState stateBy
  cases m.occupancy <;> simp

theorem resumeSettling_of_resumes (h : Resumes rep op) : resumeSettling rep.crossing op e =
    ({ op with state := OpState.settling }, movedTo .settling op e) := by
  have hne : OpState.settling ≠ op.state := by rw [h.2]; decide
  rw [movedTo_of_ne hne]
  exact if_pos h

theorem resumeSettling_of_not (h : ¬Resumes rep op) : resumeSettling rep.crossing op e = (op, e) := if_neg h

theorem reportWhole_of_second (h : rep.loss = some .secondVehicle) : reportWhole rep op e = failOp op .twoVehicles e :=
  if_pos h

theorem reportWhole_of_unchanged (h : rep.loss ≠ some .secondVehicle) (hchanged : rep.changed = false) :
    reportWhole rep op e = e := (if_neg h).trans (if_neg (by simp [hchanged]))

theorem reportWhole_of_changed (h : rep.loss ≠ some .secondVehicle) (hchanged : rep.changed = true) :
    reportWhole rep op e = movedTo (stateBy e.st.axle op) op e := by
  refine (if_neg h).trans ((if_pos hchanged).trans ?_)
  rw [← wholeState_eq]
  rfl

theorem reportToCapture_of_capture (h : e.st.cap.slot = .capture op) : reportToCapture ok rep e =
    match (resumeSettling rep.crossing op e).1.mode with
    | .composite =>
      reportComposite ok rep (resumeSettling rep.crossing op e).1 (resumeSettling rep.crossing op e).2
    | .whole => reportWhole rep (resumeSettling rep.crossing op e).1 (resumeSettling rep.crossing op e).2 := by
  simp only [reportToCapture, h] <;> rfl

theorem resumeSettling_op (crossing : Bool) : (resumeSettling crossing op e).1.mode = op.mode ∧
    (resumeSettling crossing op e).1.credited = op.credited ∧ (resumeSettling crossing op e).2.st.axle = e.st.axle := by
  unfold resumeSettling
  split_ifs <;> exact ⟨rfl, rfl, rfl⟩

theorem reportToCapture_whole {op1 : Operation} {e1 : Ev} (h : e.st.cap.slot = .capture op) (hmode : op.mode = .whole)
    (hresume : resumeSettling rep.crossing op e = (op1, e1)) : reportToCapture ok rep e = reportWhole rep op1 e1 := by
  have hmode1 : op1.mode = .whole := by
    have hkeep := (resumeSettling_op (op := op) (e := e) rep.crossing).1
    rw [hresume] at hkeep
    exact hkeep.trans hmode
  rw [reportToCapture_of_capture h, hresume]
  simp only [hmode1]

theorem reportToCapture_composite {op1 : Operation} {e1 : Ev} (h : e.st.cap.slot = .capture op)
    (hmode : op.mode = .composite) (hresume : resumeSettling rep.crossing op e = (op1, e1)) :
    reportToCapture ok rep e = reportComposite ok rep op1 e1 := by
  have hmode1 : op1.mode = .composite := by
    have hkeep := (resumeSettling_op (op := op) (e := e) rep.crossing).1
    rw [hresume] at hkeep
    exact hkeep.trans hmode
  rw [reportToCapture_of_capture h, hresume]
  simp only [hmode1]

end

/-! ## Occupancy formed anew and its report (R73) -/

/-- The event in which occupancy stands formed anew, ahead of its report. -/
def occupied (m0 : AxleMap) (e : Ev) : Ev :=
  let occ := occupancyOf e.st.axle e.st.zm.latest e.st.store.config.eHg
  (e.upd fun s =>
    let s1 := s.setAxle { s.axle with occupancy := occ }
    if occ == .empty && m0.occupancy != .empty then s1.setCap { s1.cap with exitLamp := .red } else s1).when
      (occ != m0.occupancy || e.st.axle.certain != m0.certain)
      (·.note (.occupancy occ e.st.axle.certain m0.occupancy))

/-- What the axle map unit reports of it. -/
def reportOf (m0 : AxleMap) (crossing : Bool) (loss : Option LossCause) (e : Ev) : MapReport :=
  let occ := occupancyOf e.st.axle e.st.zm.latest e.st.store.config.eHg
  { crossing := crossing, loss := loss, changed := occ != m0.occupancy || e.st.axle.certain != m0.certain
    emptied := occ == .empty && m0.occupancy != .empty }

section
variable {ok crossing : Bool} {loss : Option LossCause} {s t : State} {e : Ev}

theorem formOccupancy_eq (m0 : AxleMap) : formOccupancy ok m0 crossing loss e =
    reportToCapture ok (reportOf m0 crossing loss e) (occupied m0 e) := rfl

theorem occupied_keeps (m0 : AxleMap) : (occupied m0 e).st.cap.slot = e.st.cap.slot ∧ (occupied m0 e).st.tm = e.st.tm ∧
    (occupied m0 e).st.store = e.st.store ∧ (occupied m0 e).st.link = e.st.link ∧ (occupied m0 e).st.axle =
      { e.st.axle with occupancy := occupancyOf e.st.axle e.st.zm.latest e.st.store.config.eHg } := by
  unfold occupied
  dsimp only
  rw [Ev.when_note_st, Ev.upd_st]
  split_ifs <;> exact ⟨rfl, rfl, rfl, rfl, rfl⟩

/-- OCCUPANCY stands behind the notices before it where occupancy or certainty changed. -/
theorem occupied_notes (h : t.axle = (occupied s.axle e).st.axle) :
    (occupied s.axle e).notes = e.notes ++ occupancyNotes s t := by
  obtain ⟨-, -, -, -, haxle⟩ := occupied_keeps (e := e) s.axle
  rw [haxle] at h
  unfold occupancyNotes
  rw [h]
  unfold occupied
  dsimp only
  by_cases hocc : occupancyOf e.st.axle e.st.zm.latest e.st.store.config.eHg = s.axle.occupancy <;>
    by_cases hcertain : e.st.axle.certain = s.axle.certain <;> simp [hocc, hcertain, Ev.when]

theorem reportOf_changed (m0 : AxleMap) (hcertain : e.st.axle.certain = m0.certain) :
    (reportOf m0 crossing loss e).changed = true ↔ (occupied m0 e).st.axle.occupancy ≠ m0.occupancy := by
  obtain ⟨-, -, -, -, haxle⟩ := occupied_keeps (e := e) m0
  rw [haxle]
  simp [reportOf, hcertain]

end

/-! ## The capture controller at a sample event (R103) -/

section
variable {inp : SampleInput} {s : State} {op : Operation}

/-- Behind the capture controller only a warm-up can end at a sample event with no session in the slot. -/
theorem sampled_of_served {e1 : Ev} (hserve : serveOperation inp.storeOk (resultAt inp s) (mappedAt inp s) = e1)
    (hslot : e1.st.cap.slot = .free ∨ ∃ op, e1.st.cap.slot = .capture op) : sampled inp s = warmupEnd e1 := by
  have hcal : ∀ (value : Chan → Int) (t : Nat), serveCalibration (resultAt inp s) value t e1 = e1 := fun value t => by
    obtain h | ⟨op, h⟩ := hslot <;> simp only [serveCalibration, h]
  have hstep : serveStep e1 = e1 := by
    obtain h | ⟨op, h⟩ := hslot <;> simp only [serveStep, h, Slot.auditSession]
  have hadjust : serveAdjustIdle e1 = e1 := by
    obtain h | ⟨op, h⟩ := hslot <;> simp only [serveAdjustIdle, h]
  have haudit : serveAuditIdle e1 = e1 := by
    obtain h | ⟨op, h⟩ := hslot <;> simp only [serveAuditIdle, h, Slot.auditSession]
  change warmupEnd (serveAuditIdle (serveAdjustIdle (serveStep (serveCalibration (resultAt inp s) _ _
    (serveOperation inp.storeOk (resultAt inp s) (mappedAt inp s)))))) = _
  rw [hserve, hcal, hstep, hadjust, haudit]

/-- Behind the capture controller nothing happens at a sample event in RUN with no session in the slot. -/
theorem exec_sampleEvent_of_served {e1 : Ev} (hsupply : s.mainSupply = true)
    (hrun : (acquiredAt inp s).st.acq.scale = .run)
    (hserve : serveOperation inp.storeOk (resultAt inp s) (mappedAt inp s) = e1)
    (hslot : e1.st.cap.slot = .free ∨ ∃ op, e1.st.cap.slot = .capture op) :
    exec (.sampleEvent inp) s = .next (happened e1.notes s e1.st) := by
  have hscale : e1.st.acq.scale ≠ .warmup := by
    have hkeep : e1.st.acq = (acquiredAt inp s).st.acq := by
      rw [← hserve]
      simp [mappedAt, zeroedAt]
    rw [hkeep, hrun]
    decide
  rw [exec_sampleEvent hsupply, afterSample, sampled_of_served hserve hslot, warmupEnd_of_not_warmup hscale]

/-- A result in DECK_DOWN is formed in RUN only. -/
theorem run_of_deckDown (h : (resultAt inp s).isDeckDown = true) : (acquiredAt inp s).st.acq.scale = .run := by
  by_contra hno
  have hresult : resultAt inp s = .scaleNotRunning := if_pos hno
  rw [hresult] at h
  cases h

theorem serveOperation_of_deckDown {ok : Bool} {r : SampleResult} {e : Ev} (hslot : e.st.cap.slot = .capture op)
    (h : r.isDeckDown = true) : serveOperation ok r e = failOp op .deckDown e := by
  simp only [serveOperation, hslot, h]
  rfl

end

/-! ## The obligation -/

section
variable {lp : Loop} {active ok : Bool} {op : Operation} {s : State}

/-- A loop change moves an operation in WHOLE mode where it changes occupancy (R69, R98). -/
theorem exec_loopChange_of_whole (hsupply : s.mainSupply = true)
    (h : s.axle.loopEntry ≠ active ∧ lp = .entry ∨ s.axle.loopExit ≠ active ∧ lp = .exit)
    (hslot : s.cap.slot = .capture op) (hmode : op.mode = .whole) :
    ∃ t, exec (.loopChange lp active ok) s = .next t ∧
      (let x := if t.axle.occupancy = s.axle.occupancy then op.state else stateBy t.axle op
       s.raised
         ((if lp = .entry ∧ active = true ∧ s.acq.scale = .standby then [.scaleState .warmup .standby] else []) ++
           occupancyNotes s t ++
           if x = op.state then [] else [.operationState op.number x .whole op.positions]) t ∧
       t.cap.slot = .capture { op with state := x } ∧ t.tm = s.tm ∧ t.store = s.store) := by
  obtain ⟨hlink, -, haxle, -, hcap, hstore, -⟩ := loopEvent_keeps (lp := lp) (active := active) (s := s)
  have htm : (loopEvent lp active s).st.tm = s.tm := by
    change ((Ev.when _ wake _).st).tm = _
    cases decide (lp = .entry) && active <;> simp [Ev.when]
  obtain ⟨hslot', htm', hstore', hlink', -⟩ := occupied_keeps (e := loopEvent lp active s) s.axle
  rw [hcap, hslot] at hslot'
  have hcertain : (loopEvent lp active s).st.axle.certain = s.axle.certain := by
    rw [haxle]
    exact (s.axle.loopChange_keeps lp active).2.1
  set e := occupied s.axle (loopEvent lp active s) with he
  have hresume : resumeSettling (reportOf s.axle false none (loopEvent lp active s)).crossing op e = (op, e) :=
    resumeSettling_of_not fun hresumes => Bool.false_ne_true hresumes.1
  have hevent : loopChange ok lp active (Ev.start s) =
      movedTo (if e.st.axle.occupancy = s.axle.occupancy then op.state else stateBy e.st.axle op) op e := by
    rw [loopChange_start h, formOccupancy_eq, reportToCapture_whole hslot' hmode hresume]
    have hchanged := reportOf_changed (crossing := false) (loss := none) s.axle hcertain
    by_cases hocc : e.st.axle.occupancy = s.axle.occupancy
    · rw [if_pos hocc, movedTo_self]
      exact reportWhole_of_unchanged nofun (Bool.eq_false_of_not_eq_true fun hc => hchanged.mp hc hocc)
    · rw [if_neg hocc]
      exact reportWhole_of_changed nofun (hchanged.mpr hocc)
  generalize hx : (if e.st.axle.occupancy = s.axle.occupancy then op.state else stateBy e.st.axle op) = x at hevent
  have hmoved : (movedTo x op e).st.axle = e.st.axle ∧ (movedTo x op e).st.link = e.st.link ∧
      (movedTo x op e).st.tm = e.st.tm ∧ (movedTo x op e).st.store = e.st.store ∧
      (movedTo x op e).st.cap.slot = .capture { op with state := x } ∧
      (movedTo x op e).notes = e.notes ++ if x = op.state then [] else
        [.operationState op.number x .whole op.positions] := by
    by_cases hsame : x = op.state
    · rw [hsame, movedTo_self, if_pos rfl]
      exact ⟨rfl, rfl, rfl, rfl, hslot', (List.append_nil _).symm⟩
    · rw [movedTo_of_ne hsame, if_neg hsame, hmode]
      exact ⟨rfl, rfl, rfl, rfl, rfl, rfl⟩
  obtain ⟨hmaxle, hmlink, hmtm, hmstore, hmslot, hmnotes⟩ := hmoved
  have hexec := event_happened (f := loopChange ok lp active) hsupply
  rw [hevent] at hexec
  have htaxle : (happened (movedTo x op e).notes s (movedTo x op e).st).axle = e.st.axle := by
    simp only [happened_keeps, hmaxle]
  have hnotes := occupied_notes (s := s) (e := loopEvent lp active s) htaxle
  rw [loopEvent_notes, ← he] at hnotes
  refine ⟨_, hexec, ?_⟩
  dsimp only
  rw [htaxle, hx]
  refine ⟨⟨(movedTo x op e).st, (hmlink.trans hlink').trans hlink, ?_⟩, ?_, ?_, ?_⟩
  · rw [← hnotes, ← hmnotes]
  · simp only [happened_keeps, hmslot]
  · simp only [happened_keeps, hmtm, htm', htm]
  · simp only [happened_keeps, hmstore, hstore', hstore]

end

/-! ## A second vehicle (R67, R104) -/

section
variable {ok : Bool} {rep : MapReport} {op : Operation} {e : Ev}

theorem allCredited_of_incomplete {m : AxleMap} (h : m.entryComplete = false) (gs : List CreditedGroup) :
    allCredited m gs = false := by
  simp [allCredited, h]

/-! ### The rows of R102 -/

section
variable {op1 : Operation} {e1 : Ev}

theorem reportComposite_of_nothing (h : ¬(rep.crossing = true ∨ rep.loss ≠ none ∨ rep.changed = true)) :
    reportComposite ok rep op1 e1 = e1 := by
  refine if_pos ?_
  rw [← Bool.not_eq_true, Bool.or_eq_true, Bool.or_eq_true, Option.isSome_iff_ne_none, or_assoc]
  exact h

variable (h : rep.crossing = true ∨ rep.loss ≠ none ∨ rep.changed = true)
include h

theorem reportComposite_of_reported : reportComposite ok rep op1 e1 =
    if allCredited e1.st.axle op1.credited then completeComposite ok op1 e1
    else match rep.loss with
      | some .secondVehicle => failOp op1 .twoVehicles e1
      | some _ => failOp op1 .mapUncertain e1
      | none => if rep.emptied then failOp op1 .compositeIncomplete e1 else e1 := by
  refine if_neg ?_
  rw [← Bool.not_eq_true, not_not, Bool.or_eq_true, Bool.or_eq_true, Option.isSome_iff_ne_none, or_assoc]
  exact h

theorem reportComposite_of_credited (hcredited : allCredited e1.st.axle op1.credited = true) :
    reportComposite ok rep op1 e1 = completeComposite ok op1 e1 :=
  (reportComposite_of_reported h).trans (if_pos hcredited)

variable (hcredited : allCredited e1.st.axle op1.credited = false)
include hcredited

theorem reportComposite_of_second (hloss : rep.loss = some .secondVehicle) :
    reportComposite ok rep op1 e1 = failOp op1 .twoVehicles e1 := by
  rw [reportComposite_of_reported h, if_neg (by simp [hcredited]), hloss]

theorem reportComposite_of_loss {cause : LossCause} (hloss : rep.loss = some cause) (hcause : cause ≠ .secondVehicle) :
    reportComposite ok rep op1 e1 = failOp op1 .mapUncertain e1 := by
  rw [reportComposite_of_reported h, if_neg (by simp [hcredited]), hloss]
  cases cause <;> first | rfl | exact absurd rfl hcause

theorem reportComposite_of_emptied (hloss : rep.loss = none) (hemptied : rep.emptied = true) :
    reportComposite ok rep op1 e1 = failOp op1 .compositeIncomplete e1 := by
  rw [reportComposite_of_reported h, if_neg (by simp [hcredited]), hloss]
  exact if_pos hemptied

theorem reportComposite_of_other (hloss : rep.loss = none) (hemptied : rep.emptied = false) :
    reportComposite ok rep op1 e1 = e1 := by
  rw [reportComposite_of_reported h, if_neg (by simp [hcredited]), hloss]
  exact if_neg (by simp [hemptied])

end

/-- A second vehicle fails an operation in either mode, behind the return of R101 (R104). -/
theorem reportToCapture_of_second (h : e.st.cap.slot = .capture op) (hloss : rep.loss = some .secondVehicle)
    (hopen : e.st.axle.entryComplete = false) : reportToCapture ok rep e =
      failOp (resumeSettling rep.crossing op e).1 .twoVehicles (resumeSettling rep.crossing op e).2 := by
  obtain ⟨-, -, haxle⟩ := resumeSettling_op (op := op) (e := e) rep.crossing
  have hpair : resumeSettling rep.crossing op e =
      ((resumeSettling rep.crossing op e).1, (resumeSettling rep.crossing op e).2) := Prod.mk.eta.symm
  cases hmode : op.mode with
  | whole =>
    rw [reportToCapture_whole h hmode hpair]
    exact reportWhole_of_second hloss
  | composite =>
    rw [reportToCapture_composite h hmode hpair]
    refine reportComposite_of_second (Or.inr (Or.inl (by simp [hloss]))) ?_ hloss
    rw [haxle]
    exact allCredited_of_incomplete hopen _

theorem failOp_resumed (crossing : Bool) (hcrossing : crossing = true) :
    (failOp (resumeSettling crossing op e).1 .twoVehicles (resumeSettling crossing op e).2).notes =
      e.notes ++ (if op.state = .positionWait then [.operationState op.number .settling op.mode op.positions] else []) ++
        [.captureFailed op.number op.request.kind .twoVehicles op.positions] ∧
    (failOp (resumeSettling crossing op e).1 .twoVehicles (resumeSettling crossing op e).2).st.cap.slot = .free ∧
    (failOp (resumeSettling crossing op e).1 .twoVehicles (resumeSettling crossing op e).2).st.tm.reserved = 0 ∧
    (failOp (resumeSettling crossing op e).1 .twoVehicles (resumeSettling crossing op e).2).st.store = e.st.store ∧
    (failOp (resumeSettling crossing op e).1 .twoVehicles (resumeSettling crossing op e).2).st.link = e.st.link ∧
    (failOp (resumeSettling crossing op e).1 .twoVehicles (resumeSettling crossing op e).2).st.axle = e.st.axle := by
  subst hcrossing
  by_cases h : op.state = .positionWait
  · have hresume : resumeSettling true op e = ({ op with state := OpState.settling }, _) := if_pos ⟨rfl, h⟩
    rw [hresume, if_pos h]
    exact ⟨rfl, rfl, rfl, rfl, rfl, rfl⟩
  · have hresume : resumeSettling true op e = (op, e) := if_neg fun hboth => h hboth.2
    rw [hresume, if_neg h, List.append_nil]
    exact ⟨rfl, rfl, rfl, rfl, rfl, rfl⟩

end

section
variable {line : LineNo} {stamp t0 : Nat} {ok : Bool} {op : Operation} {s : State}

/-- The crossing of a second vehicle ahead of occupancy: the loss, with its notices. -/
theorem secondVehicle_crossing (hcertain : s.axle.certain = true) (hline : line.val = 0)
    (hcomplete : s.axle.entryComplete = true) (hheld : ∃ d, s.axle.decks.get d ≠ []) :
    (applyCrossing (crossingOf line .forward stamp t0) (pairedEvent .idle line .b stamp s)).2.2 = some .secondVehicle ∧
    (activationCrossing line .b stamp t0 (stamp - t0) .forward s).st.axle.entryComplete = false ∧
    (activationCrossing line .b stamp t0 (stamp - t0) .forward s).notes =
      (if s.acq.scale = .standby then [.scaleState .warmup .standby] else []) ++
        [.axleInconsistent .secondVehicle (some line), .axleCrossing line .forward
          (crossingSpeed s.site.treadle.separation (stamp - t0)) none false] := by
  obtain ⟨hcertain', hmeets⟩ := crossing_meets (line := line) (el := .b) (stamp := stamp) (t0 := t0)
    (dt := stamp - t0) (dir := .forward) hcertain
  have heffect : crossingEffect s.store.config.deckCount s.site.treadle.separation
      (crossingOf line .forward stamp t0) (pairedMap .idle line .b stamp s.axle) = .lost .secondVehicle :=
    (crossingEffect_enter rfl hline).trans (enterAxle_of_second hcomplete fun h =>
      hheld.elim fun d hd => hd ((AxleMap.isEmpty_iff _).mp h d))
  have happly := applyCrossing_of_lost hcertain' (hmeets.trans heffect)
  obtain ⟨-, -, -, -, -, -, -, hnotes⟩ :=
    pairedEvent_keeps (line := line) (el := .b) (stamp := stamp) (s := s) .idle
  have haxle : (activationCrossing line .b stamp t0 (stamp - t0) .forward s).st.axle =
      (pairedEvent .idle line .b stamp s).st.axle.lose .secondVehicle := by
    rw [activationCrossing_axle, happly]
    exact loseCertainty_axle.trans (if_pos hcertain')
  refine ⟨congrArg (fun x => x.2.2) happly, by rw [haxle]; rfl, ?_⟩
  rw [activationCrossing_notes, happly, haxle]
  have hlost : (loseCertainty .secondVehicle (some line) (pairedEvent .idle line .b stamp s)).notes =
      (if s.acq.scale = .standby then [.scaleState .warmup .standby] else []) ++
        [.axleInconsistent .secondVehicle (some line)] := by
    rw [loseCertainty_notes, if_pos hcertain', hnotes, levelEvent_notes]
    simp only [hline, true_and]
  exact (congrArg (· ++ _) hlost).trans (List.append_assoc ..)

/-- A second vehicle at line 0 fails an operation, with exactly these notices (R67, R104). -/
theorem exec_activation_of_second (hsupply : s.mainSupply = true) (hline : line.val = 0)
    (hlevel : (s.axle.lines.get line).level .b = false) (hdecoded : s.decoded line = true) (hstamp : stamp ≤ t0 + 1000)
    (hp : (s.axle.lines.get line).pairing = .openA t0 ∨ (s.axle.lines.get line).pairing = .guardA t0)
    (hcertain : s.axle.certain = true) (hcomplete : s.axle.entryComplete = true)
    (hheld : ∃ d, s.axle.decks.get d ≠ []) (hslot : s.cap.slot = .capture op) :
    ∃ t, exec (.activation line .b stamp ok) s = .next t ∧
      s.raised
        ((if s.acq.scale = .standby then [.scaleState .warmup .standby] else []) ++
          [.axleInconsistent .secondVehicle (some line), .axleCrossing line .forward
            (crossingSpeed s.site.treadle.separation (stamp - t0)) none false] ++
          occupancyNotes s t ++
          (if op.state = .positionWait then [.operationState op.number .settling op.mode op.positions] else []) ++
          [.captureFailed op.number op.request.kind .twoVehicles op.positions]) t ∧
      t.cap.slot = .free ∧ t.tm.reserved = 0 ∧ t.store = s.store := by
  obtain ⟨hloss, hopen, hnotes⟩ := secondVehicle_crossing (stamp := stamp) (t0 := t0) hcertain hline hcomplete hheld
  obtain ⟨hlink, -, -, -, -, hstore, hcap, -⟩ := crossedEvent_keeps (c := crossingOf line .forward stamp t0)
    (e := pairedEvent .idle line .b stamp s)
  obtain ⟨hlink', -, -, hcap', hstore', -⟩ := pairedEvent_keeps (line := line) (el := .b) (stamp := stamp) (s := s) .idle
  have hevent := activation_of_crossing (ok := ok) (dir := .forward) (dt := stamp - t0) hlevel hdecoded
    (pairStep_partner (Or.inl ⟨rfl, hp⟩) hstamp)
  change _ = formOccupancy ok s.axle true (applyCrossing (crossingOf line .forward stamp t0) _).2.2 _ at hevent
  rw [hloss, formOccupancy_eq] at hevent
  obtain ⟨hoslot, -, hostore, holink, hoaxle⟩ :=
    occupied_keeps (e := activationCrossing line .b stamp t0 (stamp - t0) .forward s) s.axle
  set e := occupied s.axle (activationCrossing line .b stamp t0 (stamp - t0) .forward s) with he
  have hcapture : e.st.cap.slot = .capture op := by
    rw [hoslot]
    change (crossedEvent (crossingOf line .forward stamp t0) (pairedEvent .idle line .b stamp s)).st.cap.slot = _
    rw [hcap, hcap', hslot]
    rfl
  rw [reportToCapture_of_second hcapture rfl (by rw [hoaxle]; exact hopen)] at hevent
  obtain ⟨hfnotes, hfslot, hfreserved, hfstore, hflink, hfaxle⟩ := failOp_resumed (op := op) (e := e) true rfl
  change _ = failOp (resumeSettling true op e).1 .twoVehicles (resumeSettling true op e).2 at hevent
  generalize failOp (resumeSettling true op e).1 .twoVehicles (resumeSettling true op e).2 = e1 at *
  have hexec := event_happened (f := activation ok line .b stamp) hsupply
  rw [hevent] at hexec
  refine ⟨_, hexec, ⟨e1.st, ?link, ?told⟩, ?slot, ?reserved, ?store⟩
  case link => exact hflink.trans (holink.trans (hlink.trans hlink'))
  case told =>
    have htaxle : (happened e1.notes s e1.st).axle = e.st.axle := by simp only [happened_keeps, hfaxle]
    have hocc := occupied_notes (s := s) htaxle
    rw [← he, hnotes] at hocc
    rw [hocc] at hfnotes
    exact congrArg (happened · s e1.st) hfnotes
  case slot => simp only [happened_keeps]; exact hfslot
  case reserved => simp only [happened_keeps]; exact hfreserved
  case store =>
    simp only [happened_keeps]
    exact hfstore.trans (hostore.trans (hstore.trans hstore'))

end

/-- Settles O47: the report by the mode, a loop change and a second vehicle through occupancy formed anew, DECK_DOWN at
a sample event. -/
theorem operationMoves : Obligations.OperationMoves := by
  refine ⟨fun ok rep op e hslot hmode => ?report, fun lp active ok op s hsupply h hslot hmode =>
    exec_loopChange_of_whole hsupply h hslot hmode, fun line stamp t0 ok op s hsupply hline hlevel hdecoded _ hstamp hp
      hcertain hcomplete hheld hslot => exec_activation_of_second hsupply hline hlevel hdecoded hstamp hp hcertain
        hcomplete hheld hslot, fun inp op s decks hsupply => ?deckDown⟩
  case report =>
    intro resumes op1 e1
    have hresume : resumeSettling rep.crossing op e = (op1, e1) := by
      by_cases h : resumes
      · rw [show op1 = _ from if_pos h, show e1 = _ from if_pos h]
        exact resumeSettling_of_resumes h
      · rw [show op1 = _ from if_neg h, show e1 = _ from if_neg h]
        exact resumeSettling_of_not h
    have haxle : e1.st.axle = e.st.axle := by
      have hkeep := (resumeSettling_op (op := op) (e := e) rep.crossing).2.2
      rw [hresume] at hkeep
      exact hkeep
    have hreport := reportToCapture_whole (ok := ok) hslot hmode hresume
    refine ⟨fun hloss => ?_, fun hloss hchanged => ?_, fun hloss hchanged => ?_⟩
    · exact hreport.trans (reportWhole_of_second hloss)
    · exact hreport.trans (reportWhole_of_unchanged hloss hchanged)
    · rw [hreport, reportWhole_of_changed hloss hchanged, haxle]
      rfl
  case deckDown =>
    intro a r e hr hslot
    have hdown : (resultAt inp s).isDeckDown = true := by
      rw [show resultAt inp s = _ from hr]
      rfl
    exact exec_sampleEvent_of_served hsupply (run_of_deckDown hdown) (serveOperation_of_deckDown hslot hdown)
      (Or.inl rfl)

end Sys2Proof.Machine

/-! PROOFS. The completion of an operation and the capture in WHOLE mode (R16 to R19, R99, R104, R106, R107, R109). -/

namespace Sys2Proof.Machine

/-! ## The completion (R104, R107, R109) -/

/-- The state of a completion with its reservation released and the slot FREE. -/
def freedBy (e : Ev) : State := (e.st.setTm { e.st.tm with reserved := 0 }).setCap { e.st.cap with slot := .free }

section
variable {ok : Bool} {op : Operation} {r : CaptureResult} {e : Ev}

theorem completeOp_of_none (h : (completeKind ok r e).2 = none) :
    completeOp ok op r e = failOp op .storeFault (completeKind ok r e).1 := by
  simp only [completeOp, h]

theorem completeOp_of_some {o : Completion} (h : (completeKind ok r e).2 = some o) : completeOp ok op r e =
    { (completeKind ok r e).1 with
      st := completionLamps o (freedBy (completeKind ok r e).1)
      notes := (completeKind ok r e).1.notes ++ [.captureResult { r with outcome := o }] } := by
  simp only [completeOp, h]
  rfl

theorem completionLamps_rework (tx : Nat) (reason : ReworkReason) (s : State) :
    completionLamps (.rework tx reason) s = s.setCap { s.cap with exitLamp := .red, reworkHold := true } := rfl

theorem completionLamps_tareNotStored (reasons : TradeReasons) (s : State) :
    completionLamps (.tareNotStored reasons) s = s := rfl

theorem completionLamps_other {o : Completion} (hrework : ∀ tx reason, o ≠ .rework tx reason)
    (htare : ∀ reasons, o ≠ .tareNotStored reasons) (s : State) :
    completionLamps o s = s.setCap { s.cap with exitLamp := .green, reworkHold := false } := by
  cases o with
  | rework tx reason => exact absurd rfl (hrework tx reason)
  | tareNotStored reasons => exact absurd rfl (htare reasons)
  | checked => rfl
  | opened => rfl
  | ticketIssued => rfl
  | fallbackTwoPass => rfl
  | tareStored => rfl

/-- Of the operation a completion looks at the number, the kind and the positions only. -/
theorem completeOp_congr {op' : Operation} (hnumber : op'.number = op.number)
    (hkind : op'.request.kind = op.request.kind) (hpositions : op'.positions = op.positions) :
    completeOp ok op' r e = completeOp ok op r e := by
  cases h : (completeKind ok r e).2 with
  | none => rw [completeOp_of_none h, completeOp_of_none h, failOp_eq, failOp_eq, hnumber, hkind, hpositions]
  | some o => rw [completeOp_of_some h, completeOp_of_some h]

end

/-! ## The range check (R18) -/

section
variable {c : MetroConfig} {g : Int}

theorem rangeCheck_of_over (h : ((c.maxHg + 9 * c.eHg : Nat) : Int) < g) : rangeCheck c g = .overload := if_pos h

theorem rangeCheck_of_under (h : g < 0) : rangeCheck c g = .underload := (if_neg (by omega)).trans (if_pos h)

theorem rangeCheck_of_within (hlow : 0 ≤ g) (hhigh : g ≤ ((c.maxHg + 9 * c.eHg : Nat) : Int)) :
    rangeCheck c g = .ok (decide ((c.maxHg : Int) < g)) (decide (g < ((20 * c.eHg : Nat) : Int))) :=
  (if_neg (Int.not_lt.mpr hhigh)).trans (if_neg (Int.not_lt.mpr hlow))

end

/-! ## What a capture reads (R16, R17) -/

section
variable {s : State}

theorem capturedGross_eq (s : State) : s.capturedGross =
    roundTo s.store.config.eHg (s.store.config.activeDecks.map fun d => windowMean s.zm.window d).sum :=
  congrArg (roundTo s.store.config.eHg) (sumInt_eq_sum _)

theorem mem_substitutedDecks {d : Deck} : d ∈ s.substitutedDecks ↔ d ∈ s.store.config.activeDecks ∧
    ∃ w ∈ s.zm.window, ∃ m ∈ w.decks, m.deck = d ∧ m.substituted = true := by
  rw [activeDecks_mem]
  simp [State.substitutedDecks, windowSubstituted, mem_allDecks, and_comm]

theorem substitutedDecks_ne_nil : (s.substitutedDecks != []) = true ↔ ∃ d ∈ s.store.config.activeDecks,
    ∃ w ∈ s.zm.window, ∃ m ∈ w.decks, m.deck = d ∧ m.substituted = true := by
  rw [bne_iff_ne]
  constructor
  · intro hne
    obtain ⟨d, hd⟩ := List.exists_mem_of_ne_nil _ hne
    exact ⟨d, mem_substitutedDecks.mp hd⟩
  · rintro ⟨d, hd⟩
    exact List.ne_nil_of_mem (mem_substitutedDecks.mpr hd)

end

/-! ## The capture in WHOLE mode (R99) -/

section
variable {ok : Bool} {op : Operation} {e : Ev} {r : SampleResult}

theorem takeWhole_of_over
    (h : ((e.st.store.config.maxHg + 9 * e.st.store.config.eHg : Nat) : Int) < e.st.capturedGross) :
    takeWhole ok op e = failOp op .overload e := by
  simp only [takeWhole, rangeCheck_of_over h]

theorem takeWhole_of_under (h : e.st.capturedGross < 0) : takeWhole ok op e = failOp op .underload e := by
  simp only [takeWhole, rangeCheck_of_under h]

/-- The record of a capture in WHOLE mode, with everything that is read at its completion (R106). -/
def wholeResult (s : State) (op : Operation) (cls : Fin 32) : CaptureResult :=
  { operation := op.number, request := op.request, gross := s.capturedGross / 10
    deckMeans := s.store.config.activeDecks.map fun d => roundToKg s.store.config.eHg (s.mean d)
    flags :=
      { noFlags with
        overMax := decide ((s.store.config.maxHg : Int) < s.capturedGross)
        belowMin := decide (s.capturedGross < ((20 * s.store.config.eHg : Nat) : Int))
        substituted := s.substitutedDecks != [], degraded := s.cal.degraded }
    stamp := s.cal.value, status := s.metro.status, counter := s.store.eventCounter, checksum := s.store.checksum
    verdict := wholeVerdict s.axle s.judged op.request.cls (s.site.classes.get cls) (s.capturedGross / 10)
    outcome := .checked }

theorem takeWhole_of_within {cls : Fin 32} (hlow : 0 ≤ e.st.capturedGross)
    (hhigh : e.st.capturedGross ≤ ((e.st.store.config.maxHg + 9 * e.st.store.config.eHg : Nat) : Int))
    (hcls : op.request.cls = cls.val + 1) : takeWhole ok op e = completeOp ok op (wholeResult e.st op cls) e := by
  simp only [takeWhole, rangeCheck_of_within hlow hhigh, classEntry_of_number hcls]
  rfl

theorem SampleResult.isDeckDown_of_isValue (h : r.isValue = true) : r.isDeckDown = false := by
  obtain ⟨decks, total, gross, zone, rfl⟩ := SampleResult.eq_value_of_isValue h
  rfl

/-- A stable sample event in SETTLING with the map WHOLE takes the capture of an operation in WHOLE mode (R99, R103). -/
theorem serveOperation_of_whole (hslot : e.st.cap.slot = .capture op) (hstate : op.state = .settling)
    (hmode : op.mode = .whole) (hocc : e.st.axle.occupancy = .whole)
    (hstable : e.st.zm.decisions.forProfile op.profile = true) (hvalue : r.isValue = true) :
    serveOperation ok r e = takeWhole ok { op with timeoutCount := op.timeoutCount + 1 } e := by
  have htry : tryCapture ok { op with timeoutCount := op.timeoutCount + 1 } e =
      some (takeWhole ok { op with timeoutCount := op.timeoutCount + 1 } e) := by
    simp only [tryCapture, hstate, hmode, hocc, hstable]
    rfl
  simp only [serveOperation, hslot, SampleResult.isDeckDown_of_isValue hvalue, htry]
  rfl

end

/-- Settles O48: the completion by its outcome; the capture of a whole vehicle by the range check of its gross. -/
theorem captureTaken : Obligations.CaptureTaken := by
  refine ⟨fun ok op r e => ⟨fun hnone => completeOp_of_none hnone, fun o ho => ?completed⟩,
    fun inp op s hsupply => ?taken⟩
  case completed =>
    intro ended
    have hdone := completeOp_of_some (op := op) ho
    refine ⟨?_, ?_, fun hrework htare => ?_⟩
    · rintro ⟨tx, reason, rfl⟩
      exact hdone
    · rintro ⟨reasons, rfl⟩
      exact hdone
    · rw [completionLamps_other hrework htare] at hdone
      exact hdone
  case taken =>
    intro a r e u c mean gross failsWith hslot hstate hmode hocc hstable hvalue
    have hserve := serveOperation_of_whole (ok := inp.storeOk) (e := mappedAt inp s) hslot hstate hmode hocc hstable
      hvalue
    have hgross : gross = (mappedAt inp s).st.capturedGross := (capturedGross_eq _).symm
    have hexec := fun (e1 : Ev) (h : serveOperation inp.storeOk (resultAt inp s) (mappedAt inp s) = e1) hfree =>
      exec_sampleEvent_of_served hsupply (formedResult_isValue hvalue) h (Or.inl hfree)
    have hfails : ∀ reason, takeWhole inp.storeOk { op with timeoutCount := op.timeoutCount + 1 } (mappedAt inp s) =
        failOp { op with timeoutCount := op.timeoutCount + 1 } reason (mappedAt inp s) → failsWith reason :=
      fun reason h => (hexec _ (hserve.trans h) rfl).trans rfl
    rw [hgross]
    refine ⟨fun hover => ?overload, fun hunder => ?underload, fun hlow hhigh cls hcls => ?within⟩
    case overload => exact hfails _ (takeWhole_of_over hover)
    case underload => exact hfails _ (takeWhole_of_under hunder)
    case within =>
      refine ⟨wholeResult u op cls, rfl, rfl, rfl, rfl, decide_eq_true_iff, decide_eq_true_iff,
        substitutedDecks_ne_nil, rfl, rfl, rfl, rfl, rfl, rfl,
        ⟨u.substitutedDecks, fun d => mem_substitutedDecks, rfl⟩, ?_⟩
      refine hexec _ (hserve.trans ((takeWhole_of_within hlow hhigh hcls).trans ?_)) (completeOp_slot _ _ _ _)
      exact completeOp_congr rfl rfl rfl

end Sys2Proof.Machine

/-! PROOFS. Composite positions and the composite verdict (R20, R91, R92, R100 to R102). -/

namespace Sys2Proof.Machine

/-! ## The credited components (R20, R92) -/

theorem mem_creditedComponents {k : CreditedComponent} {l : List CreditedGroup} :
    k ∈ creditedComponents l ↔ ∃ g ∈ l, g.component = k := by
  induction l with
  | nil => simp [creditedComponents]
  | cons g r ih =>
    rw [creditedComponents, List.mem_cons, List.mem_filter, ih, List.exists_mem_cons_iff, bne_iff_ne]
    by_cases h : k = g.component
    · simp [h]
    · simp [h, Ne.symm h]

theorem creditedComponents_nodup (l : List CreditedGroup) : (creditedComponents l).Nodup := by
  induction l with
  | nil => exact .nil
  | cons g r ih => exact List.nodup_cons.mpr ⟨by simp, ih.filter _⟩

/-- The credited components stand in the order of their frontmost group. -/
theorem creditedComponents_sublist (l : List CreditedGroup) :
    (creditedComponents l).Sublist (l.map CreditedGroup.component) := by
  induction l with
  | nil => exact .slnil
  | cons g r ih => exact (List.filter_sublist.trans ih).cons_cons _

theorem creditedInOrder_perm (l : List CreditedGroup) : (creditedInOrder l).Perm l := sortBy_perm l

theorem mem_creditedInOrder_components {k : CreditedComponent} {l : List CreditedGroup} :
    k ∈ creditedComponents (creditedInOrder l) ↔ ∃ g ∈ l, g.component = k := by
  simp only [mem_creditedComponents, (creditedInOrder_perm l).mem_iff]

/-- A component is creditable when it is resolved and each of its groups is new, not exited and behind no open end. -/
theorem mem_creditableComponents {m : AxleMap} {j : Judged} {gs : List CreditedGroup} {k : Component} :
    k ∈ creditableComponents m j gs ↔
      m.certain = true ∧ j.tooMany = false ∧ j.deckLoads = [] ∧ k ∈ j.components ∧ k.status ≠ .unresolved ∧
        ∀ g ∈ k.groups, g.exited = false ∧ (g.lastAxle < m.entered ∨ m.entryComplete = true) ∧
          ∀ x ∈ gs, g.lastAxle < x.firstAxle ∨ x.lastAxle < g.firstAxle := by
  have hgroup : ∀ g : Group, g.creditable m gs = true ↔ g.exited = false ∧
      (g.lastAxle < m.entered ∨ m.entryComplete = true) ∧
        ∀ x ∈ gs, g.lastAxle < x.firstAxle ∨ x.lastAxle < g.firstAxle := fun g => by
    simp only [Group.creditable, Group.isNew, Bool.and_eq_true, Bool.or_eq_true, List.all_eq_true, decide_eq_true_eq,
      Bool.not_eq_true']
    tauto
  unfold creditableComponents
  split_ifs with h
  · refine iff_of_false List.not_mem_nil ?_
    rintro ⟨hcertain, htooMany, hloads, -⟩
    simp [hcertain, htooMany, hloads] at h
  · simp only [Bool.or_eq_true, Bool.not_eq_true', bne_iff_ne, not_or, Bool.not_eq_false, Bool.not_eq_true,
      not_not] at h
    obtain ⟨⟨hcertain, htooMany⟩, hloads⟩ := h
    simp [hcertain, htooMany, hloads, hgroup]

/-! ## The composite verdict (R92) -/

section
variable {cs : List CreditedComponent}

theorem compositeGroups_number (n : Nat) (l : List CreditedGroup) :
    (compositeGroups cs n l).map GroupEntry.number = List.range' n l.length := by
  induction l generalizing n with
  | nil => rfl
  | cons g r ih => rw [compositeGroups, List.map_cons, ih]; rfl

theorem compositeGroups_entries (n : Nat) (l : List CreditedGroup) :
    (compositeGroups cs n l).map (fun g => (g.firstAxle, g.lastAxle, g.type, g.limit, g.verdict)) =
      l.map (fun g => (g.firstAxle, g.lastAxle, g.type, g.limit,
        groupVerdict g.component.comparison g.uncertainBoundary)) := by
  induction l generalizing n with
  | nil => rfl
  | cons g r ih => rw [compositeGroups, List.map_cons, ih]; rfl

end

section
variable {gs : List GroupEntry}

theorem compositeComponents_number (n : Nat) (l : List CreditedComponent) :
    (compositeComponents gs n l).map ComponentEntry.number = List.range' n l.length := by
  induction l generalizing n with
  | nil => rfl
  | cons k r ih => rw [compositeComponents, List.map_cons, ih]; rfl

theorem compositeComponents_entries (n : Nat) (l : List CreditedComponent) :
    (compositeComponents gs n l).map (fun k => (k.position, k.decks, k.status, k.mass, k.comparison)) =
      l.map (fun k => (k.position, k.decks, k.status, k.roundedKg, k.comparison)) := by
  induction l generalizing n with
  | nil => rfl
  | cons k r ih => rw [compositeComponents, List.map_cons, ih]; rfl

theorem compositeComponents_over (n : Nat) (l : List CreditedComponent) :
    (∃ k ∈ compositeComponents gs n l, ∃ x, k.comparison = .overBy x) ↔ ∃ k ∈ l, ∃ x, k.comparison = .overBy x := by
  induction l generalizing n with
  | nil => simp [compositeComponents]
  | cons k r ih =>
    rw [compositeComponents, List.exists_mem_cons_iff, List.exists_mem_cons_iff, ih]

end

theorem compareKg_isOver {kg : Int} {limit : Nat} : (∃ x, compareKg kg limit = .overBy x) ↔ (limit : Int) < kg := by
  unfold compareKg
  split_ifs with h
  · simp [h]
  · simp; omega

section
variable {gs : List CreditedGroup} {entered cls : Nat} {entry : ClassEntry} {kg : Int}

theorem compositeVerdict_reasons : (compositeVerdict gs entered cls entry kg).reasons =
    { mapUncertain := false, tooManyGroups := decide (13 ≤ gs.length), deckLoadWithoutAxle := false
      groupUnresolved := false, groupUncertain := gs.any CreditedGroup.uncertainBoundary
      classMismatch := decide (entry.maxAxles < entered) } := by
  have huncertain : (creditedInOrder gs).any CreditedGroup.uncertainBoundary =
      gs.any CreditedGroup.uncertainBoundary := (creditedInOrder_perm gs).any_eq
  simp only [compositeVerdict, makeVerdict, huncertain, (creditedInOrder_perm gs).length_eq]

theorem compositeVerdict_incomplete : (compositeVerdict gs entered cls entry kg).reasons.list.any id = true ↔
    13 ≤ gs.length ∨ (∃ g ∈ gs, g.uncertainBoundary = true) ∨ entry.maxAxles < entered := by
  rw [IncompleteReasons.any_iff, compositeVerdict_reasons]
  simp

theorem compositeVerdict_of_tooMany (h : 13 ≤ gs.length) :
    (compositeVerdict gs entered cls entry kg).groups = [] ∧
      (compositeVerdict gs entered cls entry kg).components = [] := by
  simp [compositeVerdict, makeVerdict, (creditedInOrder_perm gs).length_eq, h]

section
variable (h : gs.length < 13)
include h

theorem compositeVerdict_of_few : (compositeVerdict gs entered cls entry kg).groups =
      compositeGroups (creditedComponents (creditedInOrder gs)) 1 (creditedInOrder gs) ∧
    (compositeVerdict gs entered cls entry kg).components =
      compositeComponents (compositeVerdict gs entered cls entry kg).groups 1
        (creditedComponents (creditedInOrder gs)) := by
  simp [compositeVerdict, makeVerdict, (creditedInOrder_perm gs).length_eq, Nat.not_le.mpr h]

theorem compositeVerdict_over : ((∃ k ∈ (compositeVerdict gs entered cls entry kg).components,
      ∃ x, k.comparison = .overBy x) ∨ ∃ x, compareKg kg entry.grossLimit = .overBy x) ↔
    (∃ k ∈ creditedComponents (creditedInOrder gs), ∃ x, k.comparison = .overBy x) ∨ (entry.grossLimit : Int) < kg := by
  rw [compareKg_isOver, compositeVerdict_of_few h |>.2, compositeComponents_over]

end

end

/-! ## The end of a composite operation (R20, R102) -/

/-- The record of a composite capture, with everything that is read at its completion (R106). -/
def compositeResult (s : State) (op : Operation) (cls : Fin 32) (gross : Int) : CaptureResult :=
  { operation := op.number, request := op.request, gross := gross / 10, deckMeans := []
    flags :=
      { overMax := decide ((s.store.config.maxHg : Int) < gross)
        belowMin := decide (gross < ((20 * s.store.config.eHg : Nat) : Int)), composite := true
        positions := op.positions, substituted := op.credited.any fun x => x.component.substituted
        degraded := s.cal.degraded }
    stamp := s.cal.value, status := s.metro.status, counter := s.store.eventCounter, checksum := s.store.checksum
    verdict := compositeVerdict op.credited s.axle.entered op.request.cls (s.site.classes.get cls) (gross / 10)
    outcome := .checked }

/-- The composite gross in hg (R20). -/
def compositeGross (c : MetroConfig) (gs : List CreditedGroup) : Int :=
  roundTo c.eHg ((creditedComponents (creditedInOrder gs)).map CreditedComponent.mass).sum

section
variable {ok : Bool} {op : Operation} {e : Ev} {r : SampleResult}

theorem compositeGross_eq (c : MetroConfig) (gs : List CreditedGroup) :
    roundTo c.eHg (compositeMass gs) = compositeGross c gs := congrArg (roundTo c.eHg) (sumInt_eq_sum _)

theorem completeComposite_of_over (h : ((e.st.store.config.maxHg + 9 * e.st.store.config.eHg : Nat) : Int) <
    compositeGross e.st.store.config op.credited) : completeComposite ok op e = failOp op .overload e := by
  simp only [completeComposite, compositeGross_eq, rangeCheck_of_over h]

theorem completeComposite_of_under (h : compositeGross e.st.store.config op.credited < 0) :
    completeComposite ok op e = failOp op .underload e := by
  simp only [completeComposite, compositeGross_eq, rangeCheck_of_under h]

theorem completeComposite_of_within {cls : Fin 32} (hlow : 0 ≤ compositeGross e.st.store.config op.credited)
    (hhigh : compositeGross e.st.store.config op.credited ≤
      ((e.st.store.config.maxHg + 9 * e.st.store.config.eHg : Nat) : Int))
    (hcls : op.request.cls = cls.val + 1) : completeComposite ok op e =
      completeOp ok op (compositeResult e.st op cls (compositeGross e.st.store.config op.credited)) e := by
  simp only [completeComposite, compositeGross_eq, rangeCheck_of_within hlow hhigh, classEntry_of_number hcls]
  rfl

/-! ## A position sought (R100) -/

/-- An operation that seeks a position at a stable sample event: on a certain map, from a part of the vehicle on. -/
def SeeksPosition (m : AxleMap) (op : Operation) : Prop := m.certain = true ∧
  (op.mode = .whole ∧ m.occupancy = .part ∧ op.request.allowComposite = true ∨
    op.mode = .composite ∧ m.occupancy ≠ .empty)

theorem seekPosition_of_over
    (h : ((e.st.store.config.maxHg + 9 * e.st.store.config.eHg : Nat) : Int) < e.st.capturedGross) :
    seekPosition ok op e = some (failOp op .overload e) := by
  simp only [seekPosition, rangeCheck_of_over h]

theorem seekPosition_of_under (h : e.st.capturedGross < 0) : seekPosition ok op e = some (failOp op .underload e) := by
  simp only [seekPosition, rangeCheck_of_under h]

section
variable (hlow : 0 ≤ e.st.capturedGross)
  (hhigh : e.st.capturedGross ≤ ((e.st.store.config.maxHg + 9 * e.st.store.config.eHg : Nat) : Int))
include hlow hhigh

theorem seekPosition_of_none (h : creditableComponents e.st.axle e.st.judged op.credited = []) :
    seekPosition ok op e = none := by
  simp only [seekPosition, rangeCheck_of_within hlow hhigh, h]

theorem seekPosition_of_some (h : creditableComponents e.st.axle e.st.judged op.credited ≠ []) : seekPosition ok op e =
    some (takePosition ok op (creditableComponents e.st.axle e.st.judged op.credited) e) := by
  simp only [seekPosition, rangeCheck_of_within hlow hhigh]
  split
  · exact absurd ‹_› h
  · rename_i hcomps
    rw [hcomps]

end

theorem tryCapture_of_seeks (hstate : op.state = .settling) (hseeks : SeeksPosition e.st.axle op)
    (hstable : e.st.zm.decisions.forProfile op.profile = true) : tryCapture ok op e = seekPosition ok op e := by
  obtain ⟨hcertain, ⟨hmode, hocc, hallow⟩ | ⟨hmode, hocc⟩⟩ := hseeks
  · simp [tryCapture, hstate, hstable, hmode, hocc, hcertain, hallow]
  · simp [tryCapture, hstate, hstable, hmode, hocc, hcertain]

section
variable (hslot : e.st.cap.slot = .capture op) (hup : r.isDeckDown = false)
include hslot hup

theorem serveOperation_of_taken {e1 : Ev}
    (h : tryCapture ok { op with timeoutCount := op.timeoutCount + 1 } e = some e1) : serveOperation ok r e = e1 := by
  simp only [serveOperation, hslot, hup, h]
  rfl

theorem serveOperation_of_waiting (h : tryCapture ok { op with timeoutCount := op.timeoutCount + 1 } e = none) :
    serveOperation ok r e =
      if op.timeoutLimit ≤ op.timeoutCount + 1 then (failOp op .unstableTimeout e).mark .unstableTimeout
      else e.upd (setSlot (.capture { op with timeoutCount := op.timeoutCount + 1 })) := by
  simp only [serveOperation, hslot, hup, h]
  rfl

end

/-! ## A position taken (R100, R102) -/

/-- The event in which a position stands credited and reported. -/
def credited (op : Operation) (comps : List Component) (e : Ev) : Ev :=
  (e.upd (setSlot (.capture (op.credit comps)))).note
    (.positionCaptured op.number (op.positions + 1) (comps.flatMap fun k => k.groups.map fun g =>
      (g.firstAxle, g.lastAxle)))

section
variable {comps : List Component}

theorem takePosition_of_credited (h : allCredited e.st.axle (op.credit comps).credited = true) :
    takePosition ok op comps e = completeComposite ok (op.credit comps) (credited op comps e) := if_pos h

variable (h : allCredited e.st.axle (op.credit comps).credited = false)
include h

theorem takePosition_of_last (hlast : 6 ≤ op.positions + 1) :
    takePosition ok op comps e = failOp (op.credit comps) .positionLimit (credited op comps e) :=
  (if_neg (ne_true_of_eq_false h)).trans (if_pos hlast)

theorem takePosition_of_more (hmore : op.positions + 1 < 6) : takePosition ok op comps e =
    ((credited op comps e).upd
      (setSlot (.capture { op.credit comps with state := .positionWait }))).note
        (opNote { op.credit comps with state := .positionWait }) :=
  (if_neg (ne_true_of_eq_false h)).trans (if_neg (Nat.not_le.mpr hmore))

end

end

/-! ## The obligation -/

/-- Settles O49: the credited components and the composite verdict by induction over the credited list, the positions
by what a stable sample event takes, the reports by the rows of R102. -/
theorem compositePositions : Obligations.CompositePositions := by
  unfold Obligations.CompositePositions
  intro isCredited failed holds told ends
  have hends : ∀ ok op e, ends ok op e (completeComposite ok op e) := fun ok op e =>
    ⟨creditedComponents (creditedInOrder op.credited), creditedComponents_nodup _,
      fun k => mem_creditedInOrder_components, fun hover => completeComposite_of_over hover,
      fun hunder => completeComposite_of_under hunder, fun hlow hhigh cls hcls =>
        ⟨compositeResult e.st op cls (compositeGross e.st.store.config op.credited), rfl, rfl, rfl, rfl,
          decide_eq_true_iff, decide_eq_true_iff, rfl, rfl, List.any_eq_true, rfl, rfl, rfl, rfl, rfl, rfl,
          completeComposite_of_within hlow hhigh hcls⟩⟩
  refine ⟨fun m j gs k => mem_creditableComponents, fun inp op s hsupply => ?positions,
    fun ok rep op e hslot hmode => ?reports, fun gs entered cls entry kg => ?verdict⟩
  case positions =>
    intro a r e u c mean gross after hslot hstate hcertain hmode hstable hvalue
    have hgross : gross = (mappedAt inp s).st.capturedGross := (capturedGross_eq _).symm
    have htry : tryCapture inp.storeOk { op with timeoutCount := op.timeoutCount + 1 } (mappedAt inp s) =
        seekPosition inp.storeOk { op with timeoutCount := op.timeoutCount + 1 } (mappedAt inp s) :=
      tryCapture_of_seeks hstate ⟨hcertain, hmode⟩ hstable
    have hexec : ∀ {e1 : Ev}, serveOperation inp.storeOk (resultAt inp s) (mappedAt inp s) = e1 →
        (e1.st.cap.slot = .free ∨ ∃ op, e1.st.cap.slot = .capture op) → after e1 := fun h hfree =>
      exec_sampleEvent_of_served hsupply (formedResult_isValue hvalue) h hfree
    have hup : r.isDeckDown = false := SampleResult.isDeckDown_of_isValue hvalue
    have htaken : ∀ {e1 : Ev}, seekPosition inp.storeOk { op with timeoutCount := op.timeoutCount + 1 }
        (mappedAt inp s) = some e1 → (e1.st.cap.slot = .free ∨ ∃ op, e1.st.cap.slot = .capture op) → after e1 :=
      fun h hfree => hexec (serveOperation_of_taken hslot hup (htry.trans h)) hfree
    have hfails : ∀ reason, seekPosition inp.storeOk { op with timeoutCount := op.timeoutCount + 1 } (mappedAt inp s) =
        some (failOp { op with timeoutCount := op.timeoutCount + 1 } reason (mappedAt inp s)) →
          after (failed op reason e) := fun reason h => htaken h (Or.inl rfl)
    rw [hgross]
    refine ⟨fun hover => hfails _ (seekPosition_of_over hover), fun hunder => hfails _ (seekPosition_of_under hunder),
      fun hlow hhigh => ⟨u.substitutedDecks, fun d => mem_substitutedDecks, ?_⟩⟩
    intro comps place op1 e1
    refine ⟨fun hnone => ?_, fun hsome => ?_⟩
    · have hwaiting := serveOperation_of_waiting hslot hup (htry.trans (seekPosition_of_none hlow hhigh hnone))
      refine ⟨fun hmore => hexec (hwaiting.trans (if_neg (Nat.not_le.mpr hmore))) (Or.inr ⟨_, rfl⟩),
        fun hlast => ?_⟩
      have hfailed := hexec (hwaiting.trans (if_pos hlast)) (Or.inl rfl)
      exact hfailed
    · have hseek := seekPosition_of_some (ok := inp.storeOk) (op := { op with timeoutCount := op.timeoutCount + 1 })
        hlow hhigh hsome
      refine ⟨fun hall => ?_, fun hopen hlast => ?_, fun hopen hmore => ?_⟩
      · refine ⟨_, hends inp.storeOk op1 e1,
          htaken (hseek.trans (congrArg some ?_)) (Or.inl (completeComposite_slot _ _ _))⟩
        exact takePosition_of_credited ((allCredited_iff _ _).mpr hall)
      · refine htaken (hseek.trans (congrArg some ?_)) (Or.inl rfl)
        exact takePosition_of_last (Bool.eq_false_of_not_eq_true fun h => hopen ((allCredited_iff _ _).mp h)) hlast
      · refine htaken (hseek.trans (congrArg some ?_)) (Or.inr ⟨_, rfl⟩)
        exact takePosition_of_more (Bool.eq_false_of_not_eq_true fun h => hopen ((allCredited_iff _ _).mp h)) hmore
  case reports =>
    intro op1 e1 reported e2
    have hresume : resumeSettling rep.crossing op e = (op1, e1) := by
      by_cases h : Resumes rep op
      · have hop : op1 = { op with state := OpState.settling } := if_pos h
        have hne : OpState.settling ≠ op.state := by rw [h.2]; decide
        rw [show e1 = told op1 (holds op1 e) from if_pos h, hop]
        exact (resumeSettling_of_resumes h).trans (congrArg (Prod.mk _) (movedTo_of_ne hne))
      · rw [show op1 = _ from if_neg h, show e1 = _ from if_neg h]
        exact resumeSettling_of_not h
    obtain ⟨-, hcredits, haxle⟩ := resumeSettling_op (op := op) (e := e) rep.crossing
    rw [hresume] at hcredits haxle
    have hreport : e2 = reportComposite ok rep op1 e1 := reportToCapture_composite hslot hmode hresume
    have hall : allCredited e1.st.axle op1.credited = true ↔ isCredited e.st.axle op.credited := by
      rw [hcredits, haxle]
      exact allCredited_iff _ _
    rw [hreport]
    refine ⟨fun hnothing => ?_, fun hreported hcredited => ?_, fun hreported hopen => ?_⟩
    · have hstays : ¬Resumes rep op := fun h => hnothing (Or.inl h.1)
      rw [resumeSettling_of_not hstays] at hresume
      rw [reportComposite_of_nothing hnothing, ← (Prod.mk.inj hresume).2]
    · rw [reportComposite_of_credited hreported (hall.mpr hcredited)]
      exact hends ok op1 e1
    · have hopen' := Bool.eq_false_of_not_eq_true (mt hall.mp hopen)
      exact ⟨fun hloss => reportComposite_of_second hreported hopen' hloss,
        fun cause hloss hcause => reportComposite_of_loss hreported hopen' hloss hcause,
        fun hloss hemptied => reportComposite_of_emptied hreported hopen' hloss hemptied,
        fun hloss hemptied => reportComposite_of_other hreported hopen' hloss hemptied⟩
  case verdict =>
    intro v
    refine ⟨creditedInOrder gs, creditedComponents (creditedInOrder gs), creditedInOrder_perm gs,
      sortBy_pairwise_key CreditedGroup.firstAxle gs, creditedComponents_nodup _, creditedComponents_sublist _,
      fun g hg => mem_creditedInOrder_components.mpr ⟨g, hg, rfl⟩, rfl, rfl, rfl, rfl, rfl, compositeVerdict_reasons,
      compositeVerdict_of_tooMany, fun hfew => ?_, ?_⟩
    · obtain ⟨hgroups, hcomps⟩ :=
        compositeVerdict_of_few (entered := entered) (cls := cls) (entry := entry) (kg := kg) hfew
      refine ⟨?_, ?_, ?_, ?_⟩
      · rw [hgroups, compositeGroups_number, (creditedInOrder_perm gs).length_eq]
      · rw [hgroups, compositeGroups_entries]
      · rw [hcomps, compositeComponents_number]
      · rw [hcomps, compositeComponents_entries]
    · intro incomplete overloaded
      have hincomplete : v.reasons.list.any id = true ↔ incomplete := compositeVerdict_incomplete
      have hoverloaded : ¬incomplete → ((∃ k ∈ v.components, ∃ x, k.comparison = .overBy x) ∨
          (∃ x, compareKg kg entry.grossLimit = .overBy x) ↔ overloaded) := fun h =>
        compositeVerdict_over (Nat.not_le.mp fun hmany => h (Or.inl hmany))
      exact ⟨fun h => vehicleVerdict_of_incomplete (hincomplete.mpr h),
        fun h hover => vehicleVerdict_of_over (mt hincomplete.mp h) ((hoverloaded h).mpr hover),
        fun h hover => vehicleVerdict_of_within (mt hincomplete.mp h) (mt (hoverloaded h).mp hover)⟩

end Sys2Proof.Machine

/-! PROOFS. The adjustment session opened and ended (R136, R137, R145, R147). -/

namespace Sys2Proof.Machine

/-! ## The status notice (R147) -/

/-- METROLOGY_STATUS where the reasons differ from those that stood. -/
def statusNote (new old : StatusReasons) : List Notice := if new = old then [] else [.metrologyStatus new old]

section
variable {e : Ev}

theorem recomputeStatus_notes : (recomputeStatus e).notes = e.notes ++
    statusNote (statusReasons e.st.metro.valid e.st.cap.slot.isAdjustment e.st.store e.st.cal.value)
      e.st.metro.status := by
  unfold recomputeStatus statusNote
  dsimp only
  split_ifs with h
  · rw [Ev.when_of_false (by simp [h]), List.append_nil]
    rfl
  · rw [Ev.when_of_true (by simp [h])]
    rfl

/-- A slot that is not FREE answers an attempt to take it. -/
theorem slotHeld_of_session {x : Slot} (h : (∃ sess, x = .adjustment sess) ∨ ∃ a, x = .audit a) :
    slotHeld x = some .sessionOpen := by
  obtain ⟨sess, rfl⟩ | ⟨a, rfl⟩ := h <;> rfl

theorem isAdjustment_iff {x : Slot} : x.isAdjustment = true ↔ ∃ sess, x = .adjustment sess := by
  cases x <;> simp [Slot.isAdjustment]

end

/-! ## The effects (R136, R137, R145) -/

section
variable {s : State} {e : Ev}

theorem openAdjustment_of_run (h : e.st.metro.switchCal = false) :
    openAdjustment e = (e, Reply.bare .switchNotCal) := if_pos h

theorem openAdjustment_of_held {st : Status} (h : e.st.metro.switchCal = true)
    (hslot : slotHeld e.st.cap.slot = some st) : openAdjustment e = (e, Reply.bare st) := by
  simp [openAdjustment, h, hslot]

/-- The session that Open Adjustment opens on the stored configuration. -/
def openedSession (s : State) : AdjustSession :=
  { staged := if s.metro.valid = true then s.store.config else defaultConfig, idle := 0, calibration := none }

theorem openAdjustment_of_free (h : e.st.metro.switchCal = true) (hslot : e.st.cap.slot = .free) : openAdjustment e =
    (recomputeStatus (e.upd (setSession (openedSession e.st))),
      Reply.okWith (.adjustmentOpened e.st.store.eventCounter e.st.metro.valid (!e.st.metro.valid))) := by
  simp [openAdjustment, h, hslot, slotHeld, openedSession]

theorem endAdjustment_st : (endAdjustment e).st =
    ((e.st.setCap { e.st.cap with slot := .free }).setMetro
      { e.st.metro with status := statusReasons e.st.metro.valid false e.st.store e.st.cal.value }) :=
  recomputeStatus_st _

theorem endAdjustment_notes : (endAdjustment e).notes = e.notes ++
    statusNote (statusReasons e.st.metro.valid false e.st.store e.st.cal.value) e.st.metro.status :=
  recomputeStatus_notes

theorem switchState_of_change {toCal : Bool} (h : toCal ≠ e.st.metro.switchCal)
    (hkeeps : toCal = true ∨ e.st.cap.slot.isAdjustment = false) : switchState toCal e =
      (e.upd fun s => s.setMetro { s.metro with switchCal := toCal }).note (.switchState toCal) := by
  refine (if_neg (Ne.symm h)).trans (Ev.when_of_false ?_)
  obtain rfl | hslot := hkeeps
  · rfl
  · rw [hslot, Bool.and_false]

theorem switchState_of_abort (h : false ≠ e.st.metro.switchCal) (hslot : e.st.cap.slot.isAdjustment = true) :
    switchState false e = abortAdjustment .switch
      ((e.upd fun s => s.setMetro { s.metro with switchCal := false }).note (.switchState false)) :=
  (if_neg (Ne.symm h)).trans (Ev.when_of_true hslot)

end

theorem exec_openAdjustment (p : List Byte) (s : State) :
    exec (.openAdjustment p) s = requestWith 0xD0 (parseEmpty p) (fun _ => openAdjustment) s := rfl

theorem exec_abandonAdjustment (p : List Byte) (s : State) :
    exec (.abandonAdjustment p) s = requestWith 0xD6 (parseEmpty p) (fun _ => abandonAdjustment) s := rfl

theorem exec_switchState (toCal : Bool) (s : State) : exec (.switchState toCal) s = event (switchState toCal) s := rfl

/-- Settles O50: the two requests by their checks, the switch by whether a session stands. -/
theorem adjustmentOpenedAndEnded : Obligations.AdjustmentOpenedAndEnded := by
  intro s now note isSession freed
  have hstands : s.cap.slot.isAdjustment = true ↔ isSession := isAdjustment_iff
  refine ⟨fun hready => ⟨fun hswitch => ?run, fun hswitch => ⟨fun op hslot => ?busy, fun hslot => ?held,
    fun hslot => ?opened⟩, fun hnone => ?noSession, fun hsession => ?abandoned⟩,
    fun toCal hsupply hchange => ⟨fun hkeeps => ?turned, fun hrun hsession => ?aborted⟩⟩
  case run =>
    rw [exec_openAdjustment]
    exact requestWith_refused parseEmpty_nil hready (openAdjustment_of_run hswitch)
  case busy =>
    rw [exec_openAdjustment]
    exact requestWith_refused parseEmpty_nil hready (openAdjustment_of_held hswitch (congrArg slotHeld hslot))
  case held =>
    rw [exec_openAdjustment]
    exact requestWith_refused parseEmpty_nil hready (openAdjustment_of_held hswitch (slotHeld_of_session hslot))
  case opened =>
    intro sess
    rw [exec_openAdjustment]
    exact requestWith_executed parseEmpty_nil hready (openAdjustment_of_free hswitch hslot) recomputeStatus_notes
      (recomputeStatus_st _)
  case noSession =>
    rw [exec_abandonAdjustment]
    exact requestWith_refused parseEmpty_nil hready (if_neg (mt hstands.mp hnone))
  case abandoned =>
    rw [exec_abandonAdjustment]
    exact requestWith_executed parseEmpty_nil hready (if_pos (hstands.mpr hsession)) endAdjustment_notes
      endAdjustment_st
  case turned =>
    rw [exec_switchState, event_happened hsupply, switchState_of_change hchange
      (hkeeps.imp_right fun hno => Bool.eq_false_of_not_eq_true (mt hstands.mp hno))]
    exact congrArg _ (happened_plain rfl rfl rfl)
  case aborted =>
    subst hrun
    rw [exec_switchState, event_happened hsupply, switchState_of_abort hchange (hstands.mpr hsession), abortAdjustment,
      endAdjustment_notes, endAdjustment_st]
    rfl

end Sys2Proof.Machine

/-! PROOFS. The audit session's requests (R149 to R151, R157). -/

namespace Sys2Proof.Machine

/-! ## Decks by number and their channels -/

theorem deckOf_succ (d : Deck) : deckOf (d.val + 1) = some d := dif_pos ⟨by omega, by omega⟩

theorem deckOf_eq_none {n : Nat} (h : n = 0 ∨ 4 < n) : deckOf n = none := dif_neg (by omega)

theorem mem_deckChans {c : MetroConfig} {d : Deck} {i : Chan} : i ∈ c.deckChans d ↔ c.assign i = some d := by
  simp [MetroConfig.deckChans, deckChannels, mem_allChans]

theorem deckHealthy_iff {s : State} {c : MetroConfig} {d : Deck} : deckHealthy s c d = true ↔
    ∀ i, c.assign i = some d → (s.acq.channels.get i).health = .good ∨ (s.acq.channels.get i).health = .watch := by
  simp only [deckHealthy, List.all_eq_true, mem_deckChans, Health.included_iff]

theorem targetHealthy_iff {s : State} {t : StepTarget} : targetHealthy s t = true ↔
    ∀ d ∈ targetDecks s.store.config t, ∀ i : Chan, s.store.config.assign i = some d →
      (s.acq.channels.get i).health = .good ∨ (s.acq.channels.get i).health = .watch := by
  simp only [targetHealthy, List.all_eq_true, deckHealthy_iff]

/-! ## Open Audit and Abandon Audit (R149, R157) -/

theorem auditSession_eq_some {x : Slot} {a : AuditSession} : x.auditSession = some a ↔ x = .audit a := by
  cases x <;> simp [Slot.auditSession]

theorem auditSession_eq_none {x : Slot} : x.auditSession = none ↔ ∀ a, x ≠ .audit a := by
  cases x <;> simp [Slot.auditSession]

section
variable {s : State} {e : Ev}

theorem openAuditChecks_of_held {st : Status} (h : slotHeld s.cap.slot = some st) : openAuditChecks s = some st := by
  simp only [openAuditChecks, h]

/-- The checks of Open Audit behind that of the slot. -/
theorem openAuditChecks_of_free (h : s.cap.slot = .free) : openAuditChecks s =
    if s.metro.valid = false then some .notReady
    else if s.cal.value.isNone then some .calendarUnset
    else if s.acq.scale ≠ .run ∨ s.zm.zeroState ≠ .set then some .notReady
    else none := by
  simp only [openAuditChecks, h, slotHeld]

/-- The session that Open Audit opens. -/
def openedAudit (s : State) : AuditSession :=
  { number := s.store.auditCounter + 1, steps := [], idle := 0, flight := none }

theorem openAudit_of_refused {st : Status} (h : openAuditChecks e.st = some st) :
    openAudit e = (e, Reply.bare st) := by
  simp only [openAudit, h]

theorem openAudit_of_accepted (h : openAuditChecks e.st = none) : openAudit e =
    (e.upd (setAudit (openedAudit e.st)), Reply.okWith (.auditOpened (e.st.store.auditCounter + 1)
      e.st.store.eventCounter e.st.store.checksum (perActive e.st fun d => e.st.store.config.minTestLoad.get d))) := by
  simp only [openAudit, h]
  rfl

theorem abandonAudit_of_none (h : ∀ a, e.st.cap.slot ≠ .audit a) :
    abandonAudit e = (e, Reply.bare .notInSession) := by
  simp only [abandonAudit, auditSession_eq_none.mpr h]

theorem abandonAudit_of_session {a : AuditSession} (h : e.st.cap.slot = .audit a) :
    abandonAudit e = (abandonSession .request e, Reply.bare .ok) := by
  simp only [abandonAudit, auditSession_eq_some.mpr h]

end

/-! ## Audit Step (R150, R151) -/

/-- A step request that is well formed: an active target, a load that suits the kind, and for REPEAT a LOAD step of the
same target and load behind the index. -/
def StepWell (c : MetroConfig) (steps : List StepRecord) (f : StepFields) (k : StepKind) (t : StepTarget) : Prop :=
  (∀ d, t = .deck d → d ∈ c.activeDecks) ∧ (k ≠ .zero → 1 ≤ f.load ∧ f.load ≤ 200000) ∧ (k = .zero → f.load = 0) ∧
    (k = .again → ∃ y, steps.find? (fun z => z.index == f.refIndex) = some y ∧ y.kind = .load ∧ y.target = t ∧
      y.load = f.load)

section
variable {c : MetroConfig} {steps : List StepRecord} {f : StepFields} {k : StepKind} {t : StepTarget}

theorem targetActive_iff : targetActive c t = true ↔ ∀ d, t = .deck d → d ∈ c.activeDecks := by
  cases t <;> simp [targetActive, activeDecks_mem]

theorem loadSuits_iff {load : Nat} : loadSuits k load = true ↔
    (k ≠ .zero → 1 ≤ load ∧ load ≤ 200000) ∧ (k = .zero → load = 0) := by
  cases k <;> simp [loadSuits]

theorem refSuits_iff {load index : Nat} : refSuits k steps t load index = true ↔
    (k = .again → ∃ y, steps.find? (fun z => z.index == index) = some y ∧ y.kind = .load ∧ y.target = t ∧
      y.load = load) := by
  cases k with
  | load => simp [refSuits]
  | zero => simp [refSuits]
  | again =>
    cases hfind : steps.find? (fun z => z.index == index) <;> simp [refSuits, stepAt, hfind, and_assoc]

theorem stepWell_iff : (targetActive c t && loadSuits k f.load && refSuits k steps t f.load f.refIndex) = true ↔
    StepWell c steps f k t := by
  rw [Bool.and_eq_true, Bool.and_eq_true, targetActive_iff, loadSuits_iff, refSuits_iff, and_assoc, and_assoc, StepWell]

section
variable (hk : stepKindOf f.kind = some k) (ht : stepTargetOf f.target = some t)
include hk ht

theorem StepFields.checked_of_well (h : StepWell c steps f k t) : f.checked c steps = some (k, t) := by
  simp only [StepFields.checked, hk, ht]
  exact if_pos (stepWell_iff.mpr h)

theorem StepFields.checked_of_not_well (h : ¬StepWell c steps f k t) : f.checked c steps = none := by
  simp only [StepFields.checked, hk, ht]
  exact if_neg (mt stepWell_iff.mp h)

end

theorem stepKindOf_eq_none {n : Nat} (h : 2 < n) : stepKindOf n = none := by
  obtain ⟨m, rfl⟩ : ∃ m, n = m + 3 := ⟨n - 3, by omega⟩
  rfl

theorem StepFields.checked_of_unknown (h : 2 < f.kind ∨ 4 < f.target) : f.checked c steps = none := by
  obtain hkind | htarget := h
  · simp only [StepFields.checked, stepKindOf_eq_none hkind]
  · have htarget' : stepTargetOf f.target = none := by
      rw [stepTargetOf, if_neg (by omega), deckOf_eq_none (Or.inr htarget)]
      rfl
    simp only [StepFields.checked, htarget']
    cases stepKindOf f.kind <;> rfl

end

section
variable {x : AuditSession} {f : StepFields} {e : Ev}

theorem auditStep_of_none (h : ∀ a, e.st.cap.slot ≠ .audit a) : auditStep f e = (e, Reply.bare .notInSession) := by
  simp only [auditStep, auditSession_eq_none.mpr h]

theorem auditStep_of_session (h : e.st.cap.slot = .audit x) : auditStep f e = stepInSession x f e := by
  simp only [auditStep, auditSession_eq_some.mpr h]

/-- The event in which an Audit Step has set the idle count to 0. -/
def touchedAudit (x : AuditSession) (e : Ev) : Ev := e.upd (setAudit { x with idle := 0 })

theorem stepInSession_of_flight (h : x.flight ≠ none) :
    stepInSession x f e = (touchedAudit x e, Reply.bare .busy) := if_pos (Option.isSome_iff_ne_none.mpr h)

variable (hflight : x.flight = none)
include hflight

theorem stepInSession_of_bad (h : f.checked e.st.store.config x.steps = none) :
    stepInSession x f e = (touchedAudit x e, Reply.bare .badRequest) := by
  refine (if_neg (by simp [hflight])).trans ?_
  simp only [h]
  rfl

variable {k : StepKind} {t : StepTarget} (h : f.checked e.st.store.config x.steps = some (k, t))
include h

theorem stepInSession_of_checked : stepInSession x f e =
    if 24 ≤ x.steps.length then (touchedAudit x e, Reply.bare .stepLimit)
    else if targetHealthy e.st t = false then (touchedAudit x e, Reply.bare .channelExcluded)
    else
      (e.upd (setAudit
        { x with
          idle := 0
          flight := some
            { kind := k, target := t, load := f.load, refIndex := f.refIndex, count := 0
              limit := e.st.cap.timeout * 50 } }),
       { status := .accepted, body := .stepIndex (x.steps.length + 1) }) := by
  refine (if_neg (by simp [hflight])).trans ?_
  simp only [h]
  rfl

end

theorem exec_openAudit (p : List Byte) (s : State) :
    exec (.openAudit p) s = requestWith 0xE0 (parseEmpty p) (fun _ => openAudit) s := rfl

theorem exec_auditStep (p : List Byte) (s : State) :
    exec (.auditStep p) s = requestWith 0xE1 (parseStep p) auditStep s := rfl

theorem exec_abandonAudit (p : List Byte) (s : State) :
    exec (.abandonAudit p) s = requestWith 0xE3 (parseEmpty p) (fun _ => abandonAudit) s := rfl

/-- Within an open session the lamps stand: an audit session stays one. -/
theorem lampInputs_setAudit {s : State} {x : AuditSession} (h : s.cap.slot = .audit x) (y : AuditSession) :
    (setAudit y s).lampInputs = s.lampInputs := by
  simp [State.lampInputs, setAudit, setSlot, h, Slot.isSession]

/-- Settles O54: each request by its checks in their order. -/
theorem auditRequests : Obligations.AuditRequests := by
  intro s hready c openRefused
  have hrefused : ∀ st, openAuditChecks s = some st → openRefused st := fun st h =>
      (exec_openAudit [] s).trans (requestWith_refused parseEmpty_nil hready (openAudit_of_refused h))
  refine ⟨?busy, ?held, fun hfree => ?opened, fun hnone => ?noSession, fun x hslot => ?abandoned,
    fun p f hp => ⟨fun hnone => ?noStep, fun x hslot => ?step⟩⟩
  case busy =>
    rintro ⟨op, hslot⟩
    exact hrefused _ (openAuditChecks_of_held (congrArg slotHeld hslot))
  case held => exact fun hslot => hrefused _ (openAuditChecks_of_held (slotHeld_of_session hslot))
  case opened =>
    have hchecks := openAuditChecks_of_free hfree
    refine ⟨fun hvalid => ?_, fun hvalid hunset => ?_, fun hvalid hset hstate => ?_, fun hvalid hset hrun hzero => ?_⟩
    · exact hrefused _ (hchecks.trans (if_pos hvalid))
    · exact hrefused _ (hchecks.trans (by simp [hvalid, hunset]))
    · exact hrefused _ (hchecks.trans (by simp [hvalid, hset, hstate]))
    · intro opened
      rw [exec_openAudit]
      refine requestWith_executed parseEmpty_nil hready (openAudit_of_accepted ?_) rfl rfl
      exact hchecks.trans (by simp [hvalid, hset, hrun, hzero])
  case noSession =>
    rw [exec_abandonAudit]
    exact requestWith_refused parseEmpty_nil hready (abandonAudit_of_none hnone)
  case abandoned =>
    rw [exec_abandonAudit]
    exact requestWith_executed parseEmpty_nil hready (abandonAudit_of_session hslot) rfl rfl
  case noStep =>
    rw [exec_auditStep]
    exact requestWith_refused hp hready (auditStep_of_none hnone)
  case step =>
    intro refusedWith
    have hrun : ∀ (y : AuditSession) (r : Reply), stepInSession x f (Ev.start (endFrame s)) =
        ((Ev.start (endFrame s)).upd (setAudit y), r) →
          exec (.auditStep p) s = .next (answered 0xE1 r [] (setAudit y s)) := fun y r h => by
      rw [exec_auditStep]
      exact requestWith_answered hp hready ((auditStep_of_session hslot).trans h) rfl rfl (lampInputs_setAudit hslot y)
        rfl rfl
    refine ⟨fun hflight => hrun _ _ (stepInSession_of_flight hflight), fun hflight => ⟨fun hunknown => ?_,
      fun k t hk ht => ?_⟩⟩
    · exact hrun _ _ (stepInSession_of_bad hflight (StepFields.checked_of_unknown hunknown))
    · intro well healthy
      have hchecked := fun h : well => stepInSession_of_checked (e := Ev.start (endFrame s)) hflight
        (StepFields.checked_of_well hk ht h)
      refine ⟨fun hbad => ?_, fun hwell hfull => ?_, fun hwell hroom hsick => ?_, fun hwell hroom hfit => ?_⟩
      · exact hrun _ _ (stepInSession_of_bad hflight (StepFields.checked_of_not_well hk ht hbad))
      · exact hrun _ _ ((hchecked hwell).trans (if_pos hfull))
      · exact hrun _ _ ((hchecked hwell).trans ((if_neg (Nat.not_le.mpr hroom)).trans
          (if_pos (Bool.eq_false_of_not_eq_true (mt targetHealthy_iff.mp hsick)))))
      · exact hrun _ _ ((hchecked hwell).trans ((if_neg (Nat.not_le.mpr hroom)).trans
          (if_neg (ne_false_of_eq_true (targetHealthy_iff.mpr hfit)))))

end Sys2Proof.Machine

/-! PROOFS. The close of an audit (R155, R156). -/

namespace Sys2Proof.Machine

/-! ## The due date (R156) -/

theorem Date.addDays_eq_iterate (d : Date) (n : Nat) : d.addDays n = Date.next^[n] d := by
  induction n generalizing d with
  | zero => rfl
  | succ n ih => exact ih d.next

theorem dueDate_eq (d : Date) (n : Nat) : dueDate d n = Date.next^[n] d.normalize := d.normalize.addDays_eq_iterate n

/-! ## The newest entries of a list that is full -/

theorem newest_eq_drop {α : Type} (l : List α) (n : Nat) :
    (if n + 1 ≤ l.length then l.drop (l.length - n) else l) = l.drop (l.length - n) := by
  split_ifs with h
  · rfl
  · rw [Nat.sub_eq_zero_of_le (by omega), List.drop_zero]

theorem addTrail_trail (st : Store) (k : TrailKind) :
    (st.addTrail k).trail = st.trail.drop (st.trail.length - 47) ++ [{ seq := st.nextSeq, kind := k }] :=
  congrArg (· ++ _) (newest_eq_drop st.trail 47)

theorem auditCloseStore_audits (r : AuditRecord) (st : Store) :
    (auditCloseStore r st).audits = st.audits.drop (st.audits.length - 7) ++ [r] :=
  congrArg (· ++ _) (newest_eq_drop st.audits 7)

/-! ## The judgement (R155) -/

/-- A passed LOAD step on a deck with at least its minimum test load. -/
def Covered (c : MetroConfig) (steps : List StepRecord) (d : Deck) : Prop :=
  ∃ y ∈ steps, y.kind = .load ∧ y.target = .deck d ∧ y.passed = true ∧ c.minTestLoad.get d ≤ y.load

/-- The last step is a passed ZERO step on the bridge. -/
def EndsWithZero (steps : List StepRecord) : Prop :=
  ∃ y, steps.getLast? = some y ∧ y.kind = .zero ∧ y.target = .bridge ∧ y.passed = true

section
variable {c : MetroConfig} {steps : List StepRecord} {d : Deck}

theorem auditReasons_stepFailed : (auditReasons c steps).stepFailed = true ↔ ∃ y ∈ steps, y.passed = false := by
  simp [auditReasons]

theorem covers_iff : (steps.any fun x => x.covers c d) = true ↔ Covered c steps d := by
  simp [StepRecord.covers, Covered, and_assoc]

theorem auditReasons_coverage_mem : d ∈ (auditReasons c steps).coverage ↔ d ∈ c.activeDecks ∧ ¬Covered c steps d := by
  rw [← covers_iff]
  simp [auditReasons]

theorem auditReasons_coverage_sorted : (auditReasons c steps).coverage.Pairwise (· < ·) := by
  have hdecks : allDecks.Pairwise (· < ·) := by decide
  exact (hdecks.filter _).filter _

theorem endsWithZero_iff : (steps.getLast?.map StepRecord.isFinalZero).getD false = true ↔ EndsWithZero steps := by
  cases h : steps.getLast? <;> simp [StepRecord.isFinalZero, EndsWithZero, h, and_assoc]

theorem auditReasons_noFinalZero : (auditReasons c steps).noFinalZero = true ↔ ¬EndsWithZero steps := by
  rw [← endsWithZero_iff]
  simp [auditReasons]

theorem auditReasons_pass : (auditReasons c steps).pass = true ↔
    (∀ y ∈ steps, y.passed = true) ∧ (∀ d ∈ c.activeDecks, Covered c steps d) ∧ EndsWithZero steps := by
  have hcoverage : (auditReasons c steps).coverage = [] ↔ ∀ d ∈ c.activeDecks, Covered c steps d := by
    simp only [List.eq_nil_iff_forall_not_mem, auditReasons_coverage_mem, not_and, not_not]
  simp only [AuditReasons.pass, Bool.and_eq_true, Bool.not_eq_true', ← Bool.not_eq_true, auditReasons_stepFailed,
    auditReasons_noFinalZero, beq_iff_eq, hcoverage, not_not]
  simp [and_assoc]

end

/-! ## The request -/

section
variable {ok : Bool} {x : AuditSession} {s : State} {e : Ev}

theorem closeAudit_of_none (h : ∀ a, e.st.cap.slot ≠ .audit a) :
    closeAudit ok e = (e, Reply.bare .notInSession) := by
  simp only [closeAudit, auditSession_eq_none.mpr h]

theorem closeChecks_of_flight (h : x.flight ≠ none) : closeChecks s x = some .busy :=
  if_pos (Option.isSome_iff_ne_none.mpr h)

/-- The checks of the close behind that of a step in flight. -/
theorem closeChecks_of_idle (h : x.flight = none) : closeChecks s x =
    if s.tm.storeFault then some .storeFault
    else if s.cal.value.isNone then some .calendarUnset
    else if 4294967295 ≤ s.store.auditCounter then some .counterExhausted
    else if s.store.trailExhausted then some .counterExhausted
    else none := if_neg (by simp [h])

section
variable (hslot : e.st.cap.slot = .audit x)
include hslot

theorem closeAudit_of_refused {st : Status} (h : closeChecks e.st x = some st) :
    closeAudit ok e = (e, Reply.bare st) := by
  simp only [closeAudit, auditSession_eq_some.mpr hslot, h]

theorem closeAudit_of_accepted {now : DateTime} (h : closeChecks e.st x = none) (hnow : e.st.cal.value = some now) :
    closeAudit ok e = closeSession ok x now e := by
  simp only [closeAudit, auditSession_eq_some.mpr hslot, h, hnow]

end

/-- The state in which a session stands closed with its record. -/
def closedState (r : AuditRecord) (s : State) : State :=
  ((s.setStore (auditCloseStore r s.store)).setCap { s.cap with slot := .free }).setMetro
    { s.metro with status := statusReasons s.metro.valid false (auditCloseStore r s.store) s.cal.value }

end

theorem exec_closeAudit (p : List Byte) (ok : Bool) (s : State) :
    exec (.closeAudit p ok) s = requestWith 0xE2 (parseEmpty p) (fun _ => closeAudit ok) s := rfl

/-- Settles O56: the close by its checks in their order, the record by what the reasons of a FAIL say. -/
theorem closeAuditActs : Obligations.CloseAuditActs := by
  intro ok s hready normal dayAfter refusedWith
  refine ⟨fun hnone => ?noSession, fun x hslot => ?session⟩
  case noSession =>
    exact (exec_closeAudit [] ok s).trans
      (requestWith_refused parseEmpty_nil hready (closeAudit_of_none hnone))
  case session =>
    have hrefused : ∀ st, closeChecks s x = some st → refusedWith st := fun st h =>
      (exec_closeAudit [] ok s).trans (requestWith_refused parseEmpty_nil hready (closeAudit_of_refused hslot h))
    refine ⟨fun hflight => hrefused _ (closeChecks_of_flight hflight), fun hidle hfault => ?_,
      fun hidle hfault hunset => ?_, fun now hidle hfault hnow => ⟨fun hexhausted => ?_, fun hcounter htrail => ?_⟩⟩
    · exact hrefused _ ((closeChecks_of_idle hidle).trans (if_pos hfault))
    · exact hrefused _ ((closeChecks_of_idle hidle).trans (by simp [hfault, hunset]))
    · refine hrefused _ ((closeChecks_of_idle hidle).trans ?_)
      obtain h | h := hexhausted <;> simp [hfault, hnow, h]
    · have hchecks : closeChecks s x = none :=
        (closeChecks_of_idle hidle).trans (by simp [hfault, hnow, htrail, Nat.not_le.mpr hcounter])
      have hclose := closeAudit_of_accepted (ok := ok) (e := Ev.start (endFrame s)) hslot hchecks hnow
      refine ⟨fun hok => ?failed, fun hok => ?written⟩
      case failed =>
        subst hok
        rw [exec_closeAudit]
        exact requestWith_answered parseEmpty_nil hready
          (hclose.trans (congrArg (·, Reply.bare .storeFault) (latchStoreFault_of_clear hfault))) rfl rfl rfl rfl rfl
      case written =>
        subst hok
        refine ⟨auditRecordOf s.store now.date x.steps, closedState (auditRecordOf s.store now.date x.steps) s, ?_, rfl,
          rfl, rfl, rfl, rfl, rfl, auditReasons_pass, auditReasons_stepFailed, auditReasons_coverage_sorted,
          fun d => auditReasons_coverage_mem, auditReasons_noFinalZero, ?_, auditCloseStore_audits _ _, rfl,
          addTrail_trail _ _, rfl, rfl, rfl, rfl, rfl, rfl, rfl, rfl, rfl, rfl, rfl, rfl, rfl, rfl, rfl⟩
        · rw [exec_closeAudit]
          exact requestWith_executed parseEmpty_nil hready hclose recomputeStatus_notes (recomputeStatus_st _)
        · exact if_congr Iff.rfl (congrArg some (dueDate_eq _ _)) rfl

end Sys2Proof.Machine

/-! PROOFS. The calendar: the crystal monitor, the supplies, and the requests (R162, R164, R165). -/

namespace Sys2Proof.Machine

/-! ## The checks of Set Calendar (R161, R164) -/

theorem DateTime.inRange_iff {t : DateTime} : t.inRange = true ↔
    2000 ≤ t.date.year ∧ t.date.year ≤ 2199 ∧ 1 ≤ t.date.month ∧ t.date.month ≤ 12 ∧ 1 ≤ t.date.day ∧
      t.date.day ≤ 31 ∧ t.hour ≤ 23 ∧ t.minute ≤ 59 ∧ t.second ≤ 59 := by
  simp [DateTime.inRange]

/-- A date before that of the newest audit record. -/
def TooEarly (s : State) (t : DateTime) : Prop := ∃ r, s.store.audits.getLast? = some r ∧
  (t.date.year < r.date.year ∨ t.date.year = r.date.year ∧
    (t.date.month < r.date.month ∨ t.date.month = r.date.month ∧ t.date.day < r.date.day))

section
variable {s : State} {t : DateTime} {e : Ev}

theorem calendarChecks_of_range (h : ¬t.inRange = true) : calendarChecks s t = some .badRequest :=
  if_pos (Bool.eq_false_of_not_eq_true h)

theorem tooEarly_iff : (match s.store.newestAudit with
    | none => false
    | some r => t.date.before r.date) = true ↔ TooEarly s t := by
  unfold TooEarly Store.newestAudit
  cases s.store.audits.getLast? with
  | none => simp
  | some r => simp [Date.before_iff]

theorem calendarChecks_of_early (h : t.inRange = true) (hearly : TooEarly s t) :
    calendarChecks s t = some .timeBeforeAudit :=
  (if_neg (ne_false_of_eq_true h)).trans (if_pos (tooEarly_iff.mpr hearly))

/-- The checks of Set Calendar behind those of the value. -/
theorem calendarChecks_of_late (h : t.inRange = true) (hlate : ¬TooEarly s t) : calendarChecks s t =
    if s.tm.storeFault then some .storeFault
    else if s.store.trailExhausted then some .counterExhausted
    else none :=
  (if_neg (ne_false_of_eq_true h)).trans (if_neg (mt tooEarly_iff.mp hlate))

theorem setCalendar_of_refused {ok : Bool} {st : Status} (h : calendarChecks e.st t = some st) :
    setCalendar ok t e = (e, Reply.bare st) := by
  simp only [setCalendar, h]

theorem setCalendar_of_failed (h : calendarChecks e.st t = none) :
    setCalendar false t e = (latchStoreFault .calendarSet e, Reply.bare .storeFault) := by
  simp only [setCalendar, h]
  rfl

/-- The event in which the calendar stands set, ahead of the status. -/
def calendarSetEvent (t : DateTime) (e : Ev) : Ev :=
  ((e.upd fun s => s.setStore (s.store.addTrail (.calendarSet e.st.cal.value t))).upd
    fun s => s.setCal (s.cal.setTo t)).when e.st.cal.value.isNone (·.note (.calendarState true))

theorem setCalendar_of_written (h : calendarChecks e.st t = none) : setCalendar true t e =
    (recomputeStatus (calendarSetEvent t e), Reply.okWith (.calendarSet t (weekdayOf t.date.dayNumber))) := by
  simp only [setCalendar, h]
  rfl

theorem calendarSetEvent_st : (calendarSetEvent t e).st =
    (e.st.setStore (e.st.store.addTrail (.calendarSet e.st.cal.value t))).setCal (e.st.cal.setTo t) :=
  Ev.when_note_st _ _ _

theorem calendarSetEvent_notes : (calendarSetEvent t e).notes =
    e.notes ++ if e.st.cal.value = none then [.calendarState true] else [] := by
  unfold calendarSetEvent
  cases e.st.cal.value with
  | none => rfl
  | some old => exact (List.append_nil _).symm

/-- A trail entry is nothing that the status speaks of. -/
theorem statusReasons_addTrail (valid adjusting : Bool) (st : Store) (k : TrailKind) (now : Option DateTime) :
    statusReasons valid adjusting (st.addTrail k) now = statusReasons valid adjusting st now := rfl

end

/-! ## The meanings -/

theorem exec_crystalStop (s : State) : exec .crystalStop s =
    if s.mainSupply then event crystalStop s else .next (s.setCal (backupStop s.cal)) := rfl

theorem exec_crystalReturn (s : State) : exec .crystalReturn s =
    if s.mainSupply then event crystalReturn s else .next (s.setCal (backupReturn s.cal)) := rfl

theorem exec_crystalRunGap (s : State) : exec .crystalRunGap s = .next (s.setCal (runGap s.cal)) := rfl

theorem exec_supplyFails (s : State) : exec (.mainSupplyLoss .supplyFails) s = .next (supplyFails s) := rfl

theorem exec_crystalStops (s : State) : exec (.mainSupplyLoss .crystalStops) s =
    if s.mainSupply then .next s else .next (s.setCal (backupStop s.cal)) := rfl

theorem exec_setCalendar (p : List Byte) (ok : Bool) (s : State) :
    exec (.setCalendar p ok) s = requestWith 0xF0 (parseStamp p) (setCalendar ok) s := rfl

theorem exec_readCalendar (p : List Byte) (s : State) :
    exec (.readCalendar p) s = requestWith 0xF1 (parseEmpty p) (fun _ => readCalendar) s := rfl

/-- Settles O60: the monitor and the supplies by their definitions, Set Calendar by its checks in their order. -/
theorem calendarRequestsAndSupplies : Obligations.CalendarRequestsAndSupplies := by
  refine ⟨fun s => ?supplies, fun p t ok s hp hready => ?set, fun s hready => ?read⟩
  case supplies =>
    intro c stoppedOff
    have hstopped : c.crystalRunning = true → s.setCal (backupStop s.cal) = stoppedOff := fun h =>
      congrArg s.setCal (if_pos h)
    refine ⟨fun hsupply hrunning => ?_, fun hsupply hstill => ?_, fun hstill => ?_, fun hsupply => ?_,
      fun hoff hrunning => ⟨?_, ?_⟩⟩
    · rw [exec_crystalStop, if_pos hsupply, event_happened hsupply,
        show crystalStop (Ev.start s) = _ from if_pos hrunning]
      exact congrArg _ (happened_plain rfl rfl rfl)
    · rw [exec_crystalReturn, if_pos hsupply, event_happened hsupply,
        show crystalReturn (Ev.start s) = _ from if_neg (ne_true_of_eq_false hstill)]
      exact congrArg _ (happened_plain rfl rfl rfl)
    · exact (exec_crystalRunGap s).trans
        (congrArg (fun c => Host.Outcome.next (s.setCal c)) (if_neg (ne_true_of_eq_false hstill)))
    · exact (exec_supplyFails s).trans (congrArg Host.Outcome.next (if_pos hsupply))
    · exact (exec_crystalStops s).trans
        ((if_neg (ne_true_of_eq_false hoff)).trans (congrArg Host.Outcome.next (hstopped hrunning)))
    · exact (exec_crystalStop s).trans
        ((if_neg (ne_true_of_eq_false hoff)).trans (congrArg Host.Outcome.next (hstopped hrunning)))
  case set =>
    intro refusedWith inRange tooEarly
    have hrange : t.inRange = true ↔ inRange := DateTime.inRange_iff
    have hrefused : ∀ st, calendarChecks s t = some st → refusedWith st := fun st h =>
      (exec_setCalendar p ok s).trans (requestWith_refused hp hready (setCalendar_of_refused h))
    have hlater := fun (hin : inRange) (hlate : ¬tooEarly) => calendarChecks_of_late (hrange.mpr hin) hlate
    refine ⟨fun hbad => hrefused _ (calendarChecks_of_range (mt hrange.mp hbad)),
      fun hin hearly => hrefused _ (calendarChecks_of_early (hrange.mpr hin) hearly),
      fun hin hlate hfault => hrefused _ ((hlater hin hlate).trans (if_pos hfault)),
      fun hin hlate hfault hfull => hrefused _ ((hlater hin hlate).trans ?_),
      fun hin hlate hfault htrail => ?accepted⟩
    · simp [hfault, hfull]
    case accepted =>
      intro entry st status
      have hnone : calendarChecks s t = none := (hlater hin hlate).trans (by simp [hfault, htrail])
      refine ⟨addTrail_last .., ?_⟩
      rw [exec_setCalendar]
      cases ok with
      | false =>
        exact requestWith_answered hp hready ((setCalendar_of_failed hnone).trans
          (congrArg (·, Reply.bare .storeFault) (latchStoreFault_of_clear hfault))) rfl rfl rfl rfl rfl
      | true =>
        refine requestWith_answered hp hready (setCalendar_of_written hnone) ?_ ?_ ?_ ?_ ?_
        · rw [recomputeStatus_notes, calendarSetEvent_notes, calendarSetEvent_st]
          rfl
        · rw [recomputeStatus_st, calendarSetEvent_st]
          rfl
        all_goals rfl
  case read =>
    rw [exec_readCalendar]
    exact requestWith_refused parseEmpty_nil hready rfl

end Sys2Proof.Machine

/-! PROOFS. The requests of the record store (R121, R122, R126, R131). -/

namespace Sys2Proof.Machine

/-! ## The order of identifiers (R126) -/

/-- An identifier before another, by the values of its characters. -/
def Before (v w : Text) : Prop := v.map BitVec.toNat < w.map BitVec.toNat

theorem textBefore_iff {v w : Text} : textBefore v w = true ↔ Before v w := by
  unfold Before
  induction v generalizing w with
  | nil => cases w <;> simp [textBefore]
  | cons a r ih =>
    cases w with
    | nil => simp [textBefore]
    | cons b r' => simp [textBefore, ih, List.cons_lt_cons_iff, BitVec.toNat_inj]

theorem sortBy_pairwise_vehicle (l : List StoredTare) :
    (sortBy (fun a b : StoredTare => !textBefore b.vehicle a.vehicle) l).Pairwise
      fun a b => ¬Before b.vehicle a.vehicle := by
  have hle : ∀ {a b : StoredTare}, (!textBefore b.vehicle a.vehicle) = true ↔
      a.vehicle.map BitVec.toNat ≤ b.vehicle.map BitVec.toNat := fun {a b} => by
    rw [Bool.not_eq_true', ← Bool.not_eq_true, textBefore_iff]
    exact not_lt
  refine (sortBy_pairwise (fun a b => ?_) (fun a b c hab hbc => ?_) l).imp fun h => not_lt.mpr (hle.mp h)
  · rw [hle, hle]
    exact le_total _ _
  · exact hle.mpr ((hle.mp hab).trans (hle.mp hbc))

/-! ## Reading (R122, R126, R131) -/

theorem entry_eq_none {st : Store} {n : Nat} : st.entry n = none ↔ ∀ x ∈ st.entries, x.number ≠ n := by
  simp [Store.entry]

theorem OpenEntry.listing_eq (x : OpenEntry) : x.listing =
    { number := x.number, kind := x.kind, vehicle := x.vehicle
      state := if x.state = .standing then .standing else .rework
      stale := x.stale, gross := x.first.gross } := by
  unfold OpenEntry.listing
  cases x.state <;> rfl

section
variable {n : Nat} {v : Text} {e : Ev}

theorem readTransaction_of_some {x : OpenEntry} (h : e.st.store.entry n = some x) :
    readTransaction n e = (e, Reply.okWith (.transaction x)) := by
  simp only [readTransaction, h]

theorem readTransaction_of_none (h : e.st.store.entry n = none) :
    readTransaction n e = (e, Reply.bare .noSuchTransaction) := by
  simp only [readTransaction, h]

theorem readStoredTare_of_some {i : Fin 128} {x : StoredTare} (hslot : e.st.store.tareSlot v = some i)
    (hx : e.st.store.tares.get i = some x) : readStoredTare v e =
      (e, Reply.okWith (.storedTare (i.val + 1) x (e.st.cal.value.map fun n => tareAge x.date n.date)
        (tareUnusable x e.st.cal.value e.st.site.ticket.tareValidity e.st.store.eventCounter))) := by
  simp [readStoredTare, Store.tareOf, hslot, hx]

theorem readStoredTare_of_none (h : e.st.store.tareSlot v = none) :
    readStoredTare v e = (e, Reply.bare .noSuchEntry) := by
  simp [readStoredTare, h]

theorem fetchTicket_of_nil (h : e.st.store.tickets = []) : fetchTicket e = (e, Reply.bare .empty) := by
  simp only [fetchTicket, h]

theorem fetchTicket_of_cons {x : Ticket} {r : List Ticket} (h : e.st.store.tickets = x :: r) :
    fetchTicket e = (e, Reply.okWith (.ticket x)) := by
  simp only [fetchTicket, h]

end

/-! ## Removing (R112, R121, R126, R131) -/

/-- A request whose checks have passed removes its record, or latches STORE_FAULT. -/
theorem requestWith_removal {α : Type} {k : Byte} {p : Option α} {x : α} {f : α → Ev → Ev × Reply} {s : State}
    {ok : Bool} {g : Store → Store} (hp : p = some x) (hready : s.ready) (hfault : s.tm.storeFault = false)
    (hf : f x (Ev.start (endFrame s)) = removalWrite ok g (Ev.start (endFrame s))) :
    requestWith k p f s = .next (
      if ok = true then answered k { status := .ok, body := .none } [] (s.setStore (g s.store))
      else answered k { status := .storeFault, body := .none } [.storeFault .removal]
        (s.setTm { s.tm with storeFault := true })) := by
  cases ok with
  | true => exact requestWith_answered hp hready (hf.trans Prod.mk.eta.symm) rfl rfl rfl rfl rfl
  | false =>
    exact requestWith_answered hp hready
      (hf.trans (congrArg (·, Reply.bare .storeFault) (latchStoreFault_of_clear hfault))) rfl rfl rfl rfl rfl

section
variable {ok : Bool} {n : Nat} {v : Text} {e : Ev}

theorem secondNames_iff {x : Slot} : secondNames x n = true ↔
    ∃ op, x = .capture op ∧ op.request.kind = .second ∧ op.request.txNumber = n := by
  cases x <;> simp [secondNames]

theorem cancelTransaction_of_fault (h : e.st.tm.storeFault = true) :
    cancelTransaction ok n e = (e, Reply.bare .storeFault) := if_pos h

theorem deleteStoredTare_of_fault (h : e.st.tm.storeFault = true) :
    deleteStoredTare ok v e = (e, Reply.bare .storeFault) := if_pos h

theorem releaseTicket_of_fault (h : e.st.tm.storeFault = true) :
    releaseTicket ok n e = (e, Reply.bare .storeFault) := if_pos h

section
variable (h : e.st.tm.storeFault = false)
include h

theorem cancelTransaction_of_none (hnone : e.st.store.entry n = none) :
    cancelTransaction ok n e = (e, Reply.bare .noSuchTransaction) :=
  (if_neg (ne_true_of_eq_false h)).trans (if_pos (Option.isNone_iff_eq_none.mpr hnone))

theorem cancelTransaction_of_named (hsome : e.st.store.entry n ≠ none) (hnamed : secondNames e.st.cap.slot n = true) :
    cancelTransaction ok n e = (e, Reply.bare .busy) :=
  (if_neg (ne_true_of_eq_false h)).trans
    ((if_neg (mt Option.isNone_iff_eq_none.mp hsome)).trans (if_pos hnamed))

theorem cancelTransaction_of_free (hsome : e.st.store.entry n ≠ none) (hfree : ¬secondNames e.st.cap.slot n = true) :
    cancelTransaction ok n e = removalWrite ok (removeEntry n) e :=
  (if_neg (ne_true_of_eq_false h)).trans
    ((if_neg (mt Option.isNone_iff_eq_none.mp hsome)).trans (if_neg hfree))

theorem deleteStoredTare_of_none (hslot : e.st.store.tareSlot v = none) :
    deleteStoredTare ok v e = (e, Reply.bare .noSuchEntry) := by
  simp [deleteStoredTare, h, hslot]

theorem deleteStoredTare_of_some {i : Fin 128} (hslot : e.st.store.tareSlot v = some i) : deleteStoredTare ok v e =
    removalWrite ok (fun st => { st with tares := st.tares.set i none }) e := by
  simp [deleteStoredTare, h, hslot]

theorem releaseTicket_of_nil (hnil : e.st.store.tickets = []) : releaseTicket ok n e = (e, Reply.bare .empty) := by
  simp [releaseTicket, h, hnil]

variable {x : Ticket} {r : List Ticket} (htickets : e.st.store.tickets = x :: r)
include htickets

theorem releaseTicket_of_other (hx : x.number ≠ n) : releaseTicket ok n e = (e, Reply.bare .badRequest) := by
  simp [releaseTicket, h, htickets, hx]

theorem releaseTicket_of_oldest (hx : x.number = n) : releaseTicket ok n e =
    removalWrite ok (fun st => { st with tickets := st.tickets.tail }) e := by
  simp [releaseTicket, h, htickets, hx]

end

end

theorem removeEntry_eq (n : Nat) (st : Store) :
    removeEntry n st = { st with entries := st.entries.filter fun x => decide (x.number ≠ n) } := by
  unfold removeEntry
  simp only [bne_eq_decide_ne]

/-! ## The meanings -/

section
variable (p : List Byte) (ok : Bool) (s : State)

theorem exec_readTransaction : exec (.readTransaction p) s = requestWith 0xC0 (parseNat 4 p) readTransaction s := rfl

theorem exec_listTransactions : exec (.listTransactions p) s = requestWith 0xC1 (parseNat 4 p) listTransactions s := rfl

theorem exec_cancelTransaction : exec (.cancelTransaction p ok) s =
    requestWith 0xC2 (parseNat 4 p) (cancelTransaction ok) s := rfl

theorem exec_readStoredTare : exec (.readStoredTare p) s = requestWith 0xC3 (parseText p) readStoredTare s := rfl

theorem exec_listStoredTares : exec (.listStoredTares p) s = requestWith 0xC4 (parseText p) listStoredTares s := rfl

theorem exec_deleteStoredTare : exec (.deleteStoredTare p ok) s =
    requestWith 0xC5 (parseText p) (deleteStoredTare ok) s := rfl

theorem exec_fetchTicket : exec (.fetchTicket p) s = requestWith 0xC6 (parseEmpty p) (fun _ => fetchTicket) s := rfl

theorem exec_releaseTicket : exec (.releaseTicket p ok) s = requestWith 0xC7 (parseNat 4 p) (releaseTicket ok) s := rfl

end

/-- Settles O58: each request by what it looks up, then by its checks in their order. -/
theorem recordStoreRequests : Obligations.RecordStoreRequests := by
  refine ⟨fun p s hready => ⟨fun n hp => ⟨fun x hx => ?read, fun hnone => ?unread, ?list⟩,
    fun v hp => ⟨fun i x hx hv hone => ?tare, fun hnone => ?noTare, ?tares⟩, fun hnil => ?empty,
    fun x r hr => ?ticket⟩, fun i code p ok s hready => ?removing⟩
  case read => exact (exec_readTransaction p s).trans (requestWith_refused hp hready (readTransaction_of_some hx))
  case unread =>
    exact (exec_readTransaction p s).trans
      (requestWith_refused hp hready (readTransaction_of_none (entry_eq_none.mpr hnone)))
  case list =>
    refine ⟨sortBy (fun a b : OpenEntry => decide (a.number ≤ b.number))
      (s.store.entries.filter fun x => decide (n ≤ x.number)), sortBy_perm _, sortBy_pairwise_key _ _, ?_⟩
    rw [exec_listTransactions]
    simp only [← OpenEntry.listing_eq]
    exact requestWith_refused hp hready rfl
  case tare =>
    intro age
    rw [exec_readStoredTare]
    exact requestWith_refused hp hready (readStoredTare_of_some (tareSlot_eq hx hv hone) hx)
  case noTare =>
    exact (exec_readStoredTare p s).trans
      (requestWith_refused hp hready (readStoredTare_of_none (tareSlot_eq_none hnone)))
  case tares =>
    refine ⟨sortBy (fun a b : StoredTare => !textBefore b.vehicle a.vehicle)
      ((s.store.tares.cells.filterMap id).filter fun t => textBefore v t.vehicle), ?_, sortBy_pairwise_vehicle _, ?_⟩
    · refine (sortBy_perm _).trans (.of_eq (List.filter_congr fun x _ => ?_))
      rw [Bool.eq_iff_iff, decide_eq_true_iff]
      exact textBefore_iff
    · rw [exec_listStoredTares]
      exact requestWith_refused hp hready rfl
  case empty =>
    exact (exec_fetchTicket [] s).trans (requestWith_refused parseEmpty_nil hready (fetchTicket_of_nil hnil))
  case ticket =>
    exact (exec_fetchTicket [] s).trans (requestWith_refused parseEmpty_nil hready (fetchTicket_of_cons hr))
  case removing =>
    intro refusedWith removed
    refine ⟨fun n hi hcode hp => ?cancel, fun v hi hcode hp => ?delete, fun n hi hcode hp => ?release⟩
    case cancel =>
      subst hi hcode
      intro named
      have hrun := exec_cancelTransaction p ok s
      have hsome : (∃ x ∈ s.store.entries, x.number = n) → s.store.entry n ≠ none := fun ⟨x, hx, hn⟩ h =>
        entry_eq_none.mp h x hx hn
      refine ⟨fun hfault => ?_, fun hfault => ⟨fun hnone => ?_, fun hheld hnamed => ?_, fun hheld hfree => ?_⟩⟩
      · exact hrun.trans (requestWith_refused hp hready (cancelTransaction_of_fault hfault))
      · exact hrun.trans (requestWith_refused hp hready (cancelTransaction_of_none hfault (entry_eq_none.mpr hnone)))
      · exact hrun.trans (requestWith_refused hp hready
          (cancelTransaction_of_named hfault (hsome hheld) (secondNames_iff.mpr hnamed)))
      · have hremove := cancelTransaction_of_free (ok := ok) (e := Ev.start (endFrame s)) hfault (hsome hheld)
          (mt secondNames_iff.mp hfree)
        rw [show removeEntry n = _ from funext (removeEntry_eq n)] at hremove
        exact hrun.trans (requestWith_removal hp hready hfault hremove)
    case delete =>
      subst hi hcode
      have hrun := exec_deleteStoredTare p ok s
      refine ⟨fun hfault => ?_, fun hfault => ⟨fun hnone => ?_, fun j y hy hv hone => ?_⟩⟩
      · exact hrun.trans (requestWith_refused hp hready (deleteStoredTare_of_fault hfault))
      · exact hrun.trans (requestWith_refused hp hready (deleteStoredTare_of_none hfault (tareSlot_eq_none hnone)))
      · exact hrun.trans (requestWith_removal hp hready hfault
          (deleteStoredTare_of_some hfault (tareSlot_eq hy hv hone)))
    case release =>
      subst hi hcode
      have hrun := exec_releaseTicket p ok s
      refine ⟨fun hfault => ?_, fun hfault => ⟨fun hnil => ?_, fun x r hr => ⟨fun hother => ?_, fun holdest => ?_⟩⟩⟩
      · exact hrun.trans (requestWith_refused hp hready (releaseTicket_of_fault hfault))
      · exact hrun.trans (requestWith_refused hp hready (releaseTicket_of_nil hfault hnil))
      · exact hrun.trans (requestWith_refused hp hready (releaseTicket_of_other hfault hr hother))
      · have hremove := requestWith_removal (k := 0xC7) hp hready hfault
          (releaseTicket_of_oldest (ok := ok) (e := Ev.start (endFrame s)) hfault hr holdest)
        rw [hr] at hremove
        exact hrun.trans hremove

end Sys2Proof.Machine

/-! PROOFS. Staging and the calibration requests (R8, R134, R138, R139). -/

namespace Sys2Proof.Machine

/-! ## The ranges (R8, R134) -/

theorem Bank.ext_get {α : Type} {n : Nat} {b c : Bank α n} (h : ∀ i, b.get i = c.get i) : b = c := by
  refine Bank.get_inj (List.ext_getElem (b.size.trans c.size.symm) fun i hb hc => ?_)
  exact h ⟨i, b.size ▸ hb⟩

theorem validTable_iff {below : Nat} {l : List LinPoint} : validTable below l = true ↔
    l.Pairwise (fun a b => a.load < b.load) ∧ ∀ q ∈ l, below < q.load ∧ 50 * q.correction.natAbs ≤ q.load := by
  induction l generalizing below with
  | nil => simp [validTable]
  | cons p r ih =>
    simp only [validTable, Bool.and_eq_true, decide_eq_true_eq, ih, List.pairwise_cons, List.forall_mem_cons]
    constructor
    · rintro ⟨⟨hbelow, hsmall⟩, hr, hall⟩
      exact ⟨⟨fun q hq => (hall q hq).1, hr⟩, ⟨hbelow, hsmall⟩, fun q hq =>
        ⟨hbelow.trans (hall q hq).1, (hall q hq).2⟩⟩
    · rintro ⟨⟨hp, hr⟩, ⟨hbelow, hsmall⟩, hall⟩
      exact ⟨⟨hbelow, hsmall⟩, hr, fun q hq => ⟨hp q hq, (hall q hq).2⟩⟩

theorem validBands_iff {below : Nat} {l : List (Nat × Nat)} : validBands below l = true ↔
    l.Pairwise (fun a b => a.1 < b.1) ∧ ∀ x ∈ l, below < x.1 ∧ x.1 ≤ 10000 ∧ x.2 ≤ 63 := by
  induction l generalizing below with
  | nil => simp [validBands]
  | cons p r ih =>
    simp only [validBands, Bool.and_eq_true, decide_eq_true_eq, ih, List.pairwise_cons, List.forall_mem_cons]
    constructor
    · rintro ⟨⟨⟨hbelow, hbound⟩, hmpe⟩, hr, hall⟩
      exact ⟨⟨fun q hq => (hall q hq).1, hr⟩, ⟨hbelow, hbound, hmpe⟩, fun q hq =>
        ⟨hbelow.trans (hall q hq).1, (hall q hq).2⟩⟩
    · rintro ⟨⟨hp, hr⟩, ⟨hbelow, hbound, hmpe⟩, hall⟩
      exact ⟨⟨⟨hbelow, hbound⟩, hmpe⟩, hr, fun q hq => ⟨hp q hq, (hall q hq).2⟩⟩

theorem chanOf_eq_none {n : Nat} (h : n = 0 ∨ 16 < n) : chanOf n = none := dif_neg (by omega)

/-- A staged deck: UNUSED, or one by its number. -/
def StagedAs (n : Nat) (d : Option Deck) : Prop := n = 0 ∧ d = none ∨ ∃ k : Deck, n = k.val + 1 ∧ d = some k

theorem stagedDeck_of {n : Nat} {d : Option Deck} (h : StagedAs n d) : stagedDeck n = some d := by
  obtain ⟨rfl, rfl⟩ | ⟨k, rfl, rfl⟩ := h
  · rfl
  · rw [stagedDeck, if_neg (Nat.succ_ne_zero _), deckOf_succ]
    rfl

theorem stagedDeck_eq_none {n : Nat} (h : 4 < n) : stagedDeck n = none := by
  rw [stagedDeck, if_neg (by omega), deckOf_eq_none (Or.inr h)]
  rfl

section
variable {c : MetroConfig}

theorem applyStage_channel_of_bad {ch deck gain : Nat} {zero : Int}
    (h : ch = 0 ∨ 16 < ch ∨ 4 < deck ∨ gain = 0 ∨ 16777215 < gain) :
    applyStage c (.channel ch deck zero gain) = none := by
  simp only [applyStage]
  split
  · rename_i i d hi hd
    refine if_neg fun hrange => ?_
    obtain h | h | h | h | h := h
    · rw [chanOf_eq_none (Or.inl h)] at hi
      cases hi
    · rw [chanOf_eq_none (Or.inr h)] at hi
      cases hi
    · rw [stagedDeck_eq_none h] at hd
      cases hd
    · omega
    · omega
  · rfl

theorem applyStage_channel_of_good {deck gain : Nat} {zero : Int} {i : Chan} {d : Option Deck} (hd : StagedAs deck d)
    (h : 1 ≤ gain ∧ gain ≤ 16777215 ∧ -8388608 ≤ zero ∧ zero ≤ 8388607) :
    applyStage c (.channel (i.val + 1) deck zero gain) =
      some { c with channels := c.channels.set i { deck := d, zero := zero, gain := gain } } := by
  simp only [applyStage, chanOf_succ, stagedDeck_of hd]
  exact if_pos h

/-- A linearity table in its ranges: at most four points that meet the three conditions of R8. -/
def GoodTable (points : List LinPoint) (count : Nat) : Prop :=
  count ≤ 4 ∧ points.Pairwise (fun a b => a.load < b.load) ∧
    ∀ q ∈ points, 0 < q.load ∧ 50 * q.correction.natAbs ≤ q.load

theorem applyStage_linearity_of_bad {deck count : Nat} {points : List LinPoint}
    (h : deck = 0 ∨ 4 < deck ∨ ¬GoodTable points count) : applyStage c (.linearity deck points count) = none := by
  rw [← or_assoc] at h
  simp only [applyStage]
  split
  · rename_i d hd
    refine if_neg fun hgood => ?_
    obtain h | h := h
    · rw [deckOf_eq_none h] at hd
      cases hd
    · exact h ⟨hgood.1, validTable_iff.mp hgood.2⟩
  · rfl

theorem applyStage_linearity_of_good {count : Nat} {points : List LinPoint} {d : Deck} (h : GoodTable points count) :
    applyStage c (.linearity (d.val + 1) points count) =
      some { c with linearity := c.linearity.set d points } := by
  simp only [applyStage, deckOf_succ]
  exact if_pos ⟨h.1, validTable_iff.mpr h.2⟩

/-- A band profile in its ranges. -/
def GoodProfile (segments : List (Nat × Nat)) (count : Nat) (offset : Int) : Prop :=
  1 ≤ count ∧ count ≤ 8 ∧ (∀ x ∈ segments, x.1 ≤ 15 ∧ x.2 ≤ 31) ∧ -8 ≤ offset ∧ offset ≤ 7

theorem goodProfile_iff {segments : List (Nat × Nat)} {count : Nat} {offset : Int} :
    (1 ≤ count ∧ count ≤ 8 ∧ segments.all (fun x => decide (x.1 ≤ 15 ∧ x.2 ≤ 31)) = true ∧ -8 ≤ offset ∧ offset ≤ 7) ↔
      GoodProfile segments count offset := by
  simp only [GoodProfile, List.all_eq_true, decide_eq_true_eq]

section
variable {number count : Nat} {segments : List (Nat × Nat)} {offset : Int}

theorem applyStage_profile_of_good (h : GoodProfile segments count offset) :
    applyStage c (.profile number segments count offset) = match profileOf number with
      | some .one => some { c with profile1 := { segments := segments, offset := offset } }
      | some .two => some { c with profile2 := { segments := segments, offset := offset } }
      | none => none := if_pos (goodProfile_iff.mpr h)

theorem applyStage_profile_of_bad (h : number ≠ 1 ∧ number ≠ 2 ∨ ¬GoodProfile segments count offset) :
    applyStage c (.profile number segments count offset) = none := by
  by_cases hgood : GoodProfile segments count offset
  · obtain ⟨hone, htwo⟩ := h.resolve_right (not_not.mpr hgood)
    have hnone : profileOf number = none := by
      unfold profileOf
      split
      · exact absurd rfl hone
      · exact absurd rfl htwo
      · rfl
    rw [applyStage_profile_of_good hgood, hnone]
  · exact if_neg (mt goodProfile_iff.mp hgood)

end

/-- The MPE bands in their ranges. -/
def GoodBands (bands : List (Nat × Nat)) (count : Nat) : Prop :=
  1 ≤ count ∧ count ≤ 4 ∧ bands.Pairwise (fun a b => a.1 < b.1) ∧ ∀ x ∈ bands, 1 ≤ x.1 ∧ x.1 ≤ 10000 ∧ x.2 ≤ 63

theorem goodBands_iff {bands : List (Nat × Nat)} {count : Nat} :
    (1 ≤ count ∧ count ≤ 4 ∧ validBands 0 bands = true) ↔ GoodBands bands count :=
  and_congr_right fun _ => and_congr_right fun _ => validBands_iff

/-- The audit settings in their ranges. -/
def GoodAudit (interval : Nat) (minima : List Nat) : Prop := 1 ≤ interval ∧ interval ≤ 730 ∧ ∀ m ∈ minima, m ≤ 200000

theorem goodAudit_iff {interval : Nat} {minima : List Nat} :
    (1 ≤ interval ∧ interval ≤ 730 ∧ minima.all (fun m => decide (m ≤ 200000)) = true) ↔ GoodAudit interval minima := by
  simp only [GoodAudit, List.all_eq_true, decide_eq_true_eq]

theorem applyStage_audit_of_good {interval : Nat} {minima : List Nat} (h : GoodAudit interval minima) {x : Bank Nat 4}
    (hx : ∀ d : Deck, x.get d = minima.getD d.val 0) :
    applyStage c (.audit interval minima) = some { c with auditInterval := interval, minTestLoad := x } := by
  have hbank : x = Bank.ofFn fun d => minima.getD d.val 0 :=
    Bank.ext_get fun i => (hx i).trans (Bank.get_ofFn (fun d : Deck => minima.getD d.val 0) i).symm
  rw [hbank]
  exact if_pos (goodAudit_iff.mpr h)

end

/-! ## Stage Parameter (R138) -/

section
variable {f : StageFields} {sess : AdjustSession} {e : Ev}

/-- The event in which a request has set the idle count of the session to 0. -/
def touchedSession (sess : AdjustSession) (e : Ev) : Ev := e.upd (setSession { sess with idle := 0 })

theorem stageParameter_of_none (h : ∀ sess, e.st.cap.slot ≠ .adjustment sess) :
    stageParameter f e = (e, Reply.bare .notInSession) := by
  unfold stageParameter
  split
  · exact absurd ‹_› (h _)
  all_goals rfl

variable (hslot : e.st.cap.slot = .adjustment sess)
include hslot

theorem stageParameter_of_busy (h : sess.calibration ≠ none) :
    stageParameter f e = (touchedSession sess e, Reply.bare .busy) := by
  simp only [stageParameter, hslot]
  exact if_pos (Option.isSome_iff_ne_none.mpr h)

variable (hidle : sess.calibration = none)
include hidle

theorem stageParameter_of_bad (h : applyStage sess.staged f = none) :
    stageParameter f e = (touchedSession sess e, Reply.bare .badRequest) := by
  simp only [stageParameter, hslot, h]
  exact if_neg (by simp [hidle])

theorem stageParameter_of_good {c : MetroConfig} (h : applyStage sess.staged f = some c) : stageParameter f e =
    (e.upd (setSession { sess with staged := c, idle := 0 }), Reply.okWith (.staged (configChecksum c))) := by
  simp only [stageParameter, hslot, h]
  exact if_neg (by simp [hidle])

end

/-! ## The calibration requests (R139) -/

section
variable {c : MetroConfig} {d : Deck} {deck load : Nat}

theorem calTarget_of_unknown (h : deck = 0 ∨ 4 < deck) : calTarget c deck load = none := by
  simp only [calTarget, deckOf_eq_none h]

theorem calTarget_of_load (h : load = 0 ∨ 200000 < load) : calTarget c deck load = none := by
  unfold calTarget
  split
  · exact if_neg (by omega)
  · rfl

theorem calTarget_of_inactive (h : ¬(2 ≤ (c.deckChans d).length ∧ (c.deckChans d).length ≤ 8)) :
    calTarget c (d.val + 1) load = none := by
  simp only [calTarget, deckOf_succ]
  exact if_neg fun hrange => h (of_decide_eq_true hrange.1)

theorem calTarget_of_active (h : 2 ≤ (c.deckChans d).length ∧ (c.deckChans d).length ≤ 8) (hlow : 1 ≤ load)
    (hhigh : load ≤ 200000) : calTarget c (d.val + 1) load = some d := by
  simp only [calTarget, deckOf_succ]
  exact if_pos ⟨decide_eq_true h, hlow, hhigh⟩

end

/-- The session with a calibration capture begun in it. -/
def begunSession (sess : AdjustSession) (kind : CalKind) (d : Deck) (load limit : Nat) : AdjustSession :=
  { sess with
    idle := 0
    calibration := some { kind := kind, deck := d, load := load, limit := limit, count := 0, window := [] } }

section
variable {kind : CalKind} {deck load : Nat} {sess : AdjustSession} {e : Ev}

theorem calibrate_of_none (h : ∀ sess, e.st.cap.slot ≠ .adjustment sess) :
    calibrate kind deck load e = (e, Reply.bare .notInSession) := by
  unfold calibrate
  split
  · exact absurd ‹_› (h _)
  all_goals rfl

variable (hslot : e.st.cap.slot = .adjustment sess)
include hslot

theorem calibrate_of_busy (h : sess.calibration ≠ none) :
    calibrate kind deck load e = (touchedSession sess e, Reply.bare .busy) := by
  simp only [calibrate, hslot]
  exact if_pos (Option.isSome_iff_ne_none.mpr h)

variable (hidle : sess.calibration = none)
include hidle

theorem calibrate_of_bad (h : calTarget sess.staged deck load = none) :
    calibrate kind deck load e = (touchedSession sess e, Reply.bare .badRequest) := by
  simp only [calibrate, hslot, h]
  exact if_neg (by simp [hidle])

/-- The checks of a calibration request behind its fields. -/
theorem calibrate_of_target {d : Deck} (h : calTarget sess.staged deck load = some d) : calibrate kind deck load e =
    if e.st.acq.scale ≠ .run ∨ e.st.metro.valid = false then (touchedSession sess e, Reply.bare .notReady)
    else if deckHealthy e.st sess.staged d = false then (touchedSession sess e, Reply.bare .channelExcluded)
    else (e.upd (setSession (begunSession sess kind d load (e.st.cap.timeout * 50))), Reply.bare .accepted) := by
  simp only [calibrate, hslot, h]
  exact if_neg (by simp [hidle])

end

/-! ## The obligation -/

theorem exec_stageParameter (p : List Byte) (s : State) :
    exec (.stageParameter p) s = requestWith 0xD1 (parseStage p) stageParameter s := rfl

/-- The three calibration requests are one, with their codes and fields (R139). -/
theorem exec_calibrate {i : Instr} {p : List Byte} {code : Byte} {kind : CalKind} {deck load : Nat} (s : State)
    (h : i = .calibrateZero p ∧ code = 0xD2 ∧ kind = .zero ∧ parseNat 1 p = some deck ∧ load = 1 ∨
      i = .calibrateSpan p ∧ code = 0xD3 ∧ kind = .span ∧ parseDeckLoad p = some (deck, load) ∨
      i = .calibrateLinearityPoint p ∧ code = 0xD4 ∧ kind = .linearity ∧ parseDeckLoad p = some (deck, load)) :
    exec i s = requestWith code (some (deck, load)) (fun x => calibrate kind x.1 x.2) s := by
  obtain ⟨rfl, rfl, rfl, hp, rfl⟩ | ⟨rfl, rfl, rfl, hp⟩ | ⟨rfl, rfl, rfl, hp⟩ := h
  · change requestWith 0xD2 (parseNat 1 p) (fun d => calibrate .zero d 1) s = _
    rw [hp]
    rfl
  · change requestWith 0xD3 (parseDeckLoad p) (fun x => calibrate .span x.1 x.2) s = _
    rw [hp]
  · change requestWith 0xD4 (parseDeckLoad p) (fun x => calibrate .linearity x.1 x.2) s = _
    rw [hp]

/-- Within an open session the lamps stand: an adjustment session stays one. -/
theorem lampInputs_setSession {s : State} {x : AdjustSession} (h : s.cap.slot = .adjustment x) (y : AdjustSession) :
    (setSession y s).lampInputs = s.lampInputs := by
  simp [State.lampInputs, setSession, setSlot, h, Slot.isSession]

/-- Settles O51: the staged copy by the ranges of each group, the calibration requests by their checks. -/
theorem stagedAndCalibrated : Obligations.StagedAndCalibrated := by
  refine ⟨fun p f s hp hready => ⟨fun hnone => ?noStage, fun sess hslot => ?stage⟩,
    fun i p code kind deck load s hready hi => ⟨fun hnone => ?noCalibration, fun sess hslot => ?calibration⟩⟩
  case noStage =>
    exact (exec_stageParameter p s).trans (requestWith_refused hp hready (stageParameter_of_none hnone))
  case stage =>
    intro touched staged bad
    have hrun : ∀ (y : AdjustSession) (r : Reply), stageParameter f (Ev.start (endFrame s)) =
        ((Ev.start (endFrame s)).upd (setSession y), r) →
          exec (.stageParameter p) s = .next (answered 0xD1 r [] (setSession y s)) := fun y r h =>
      (exec_stageParameter p s).trans
        (requestWith_answered hp hready h rfl rfl (lampInputs_setSession hslot y) rfl rfl)
    refine ⟨fun hbusy => hrun _ _ (stageParameter_of_busy hslot hbusy), fun hidle => ?_⟩
    have hbad : applyStage sess.staged f = none → bad := fun h => hrun _ _ (stageParameter_of_bad hslot hidle h)
    have hgood : ∀ c, applyStage sess.staged f = some c → staged c := fun c h =>
      hrun _ _ (stageParameter_of_good hslot hidle h)
    refine ⟨hbad, hgood, fun maxKg eKg hf => ?scale, fun w zt code hf => ?window, fun ch deck zero gain hf => ?channel,
      fun deck points count hf => ?linearity, fun number segments count offset hf => ?profile,
      fun bands count hf => ?mpe, fun interval minima hf => ?audit⟩
    case scale =>
      subst hf
      split_ifs with h
      · exact hgood _ (if_pos h)
      · exact hbad (if_neg h)
    case window =>
      subst hf
      rw [← beq_eq_decide]
      split_ifs with h
      · exact hgood _ (if_pos h)
      · exact hbad (if_neg h)
    case channel =>
      subst hf
      refine ⟨fun h => hbad (applyStage_channel_of_bad h), fun i d hi hd h1 h2 h3 h4 => ?_⟩
      subst hi
      exact hgood _ (applyStage_channel_of_good hd ⟨h1, h2, h3, h4⟩)
    case linearity =>
      subst hf
      refine ⟨fun h => hbad (applyStage_linearity_of_bad h), fun d hd h => ?_⟩
      subst hd
      exact hgood _ (applyStage_linearity_of_good h)
    case profile =>
      subst hf
      refine ⟨fun h => hbad (applyStage_profile_of_bad h), fun hone h => ?_, fun htwo h => ?_⟩
      · subst hone
        exact hgood _ (applyStage_profile_of_good h)
      · subst htwo
        exact hgood _ (applyStage_profile_of_good h)
    case mpe =>
      subst hf
      exact ⟨fun h => hbad (if_neg (mt goodBands_iff.mp h)), fun h => hgood _ (if_pos (goodBands_iff.mpr h))⟩
    case audit =>
      subst hf
      exact ⟨fun h => hbad (if_neg (mt goodAudit_iff.mp h)), fun x hx h => hgood _ (applyStage_audit_of_good h hx)⟩
  case noCalibration => exact (exec_calibrate s hi).trans (requestWith_refused rfl hready (calibrate_of_none hnone))
  case calibration =>
    intro touched refusedWith
    have hrun : ∀ (y : AdjustSession) (r : Reply), calibrate kind deck load (Ev.start (endFrame s)) =
        ((Ev.start (endFrame s)).upd (setSession y), r) →
          exec i s = .next (answered code r [] (setSession y s)) := fun y r h =>
      (exec_calibrate s hi).trans
        (requestWith_answered rfl hready h rfl rfl (lampInputs_setSession hslot y) rfl rfl)
    refine ⟨fun hbusy => hrun _ _ (calibrate_of_busy hslot hbusy), fun hidle => ⟨fun hbad => ?_,
      fun d hdeck hlow hhigh => ?_⟩⟩
    · refine hrun _ _ (calibrate_of_bad hslot hidle ?_)
      rw [← or_assoc] at hbad
      exact hbad.elim calTarget_of_unknown calTarget_of_load
    · subst hdeck
      intro chans
      have hchans : sess.staged.deckChans d = chans := deckChans_eq _ _
      have hmem : ∀ j, j ∈ chans ↔ sess.staged.assign j = some d := fun j => by rw [← hchans, mem_deckChans]
      refine ⟨fun hinactive => ?_, fun hactive => ?_⟩
      · exact hrun _ _ (calibrate_of_bad hslot hidle (calTarget_of_inactive (by rwa [hchans])))
      · have htarget := calibrate_of_target (kind := kind) (e := Ev.start (endFrame s)) hslot hidle
          (calTarget_of_active (by rwa [hchans]) hlow hhigh)
        refine ⟨fun hnot => hrun _ _ (htarget.trans (if_pos hnot)), fun hscale hvalid => ⟨fun hsick => ?_,
          fun hfit => ?_⟩⟩
        · obtain ⟨j, hj, hout⟩ := hsick
          have hunhealthy : ¬deckHealthy s sess.staged d = true := fun h => by
            have hhealth := deckHealthy_iff.mp h j ((hmem j).mp hj)
            obtain hout | hout := hout <;> rw [hout] at hhealth <;> simp at hhealth
          exact hrun _ _ (htarget.trans ((if_neg (by simp [hscale, hvalid])).trans
            (if_pos (Bool.eq_false_of_not_eq_true hunhealthy))))
        · have hhealthy : deckHealthy s sess.staged d = true :=
            deckHealthy_iff.mpr fun j hj => hfit j ((hmem j).mpr hj)
          exact hrun _ _ (htarget.trans ((if_neg (by simp [hscale, hvalid])).trans
            (if_neg (ne_false_of_eq_true hhealthy))))

end Sys2Proof.Machine

/-! PROOFS. The sessions at a sample event, and an audit step judged (R150, R152 to R154). -/

namespace Sys2Proof.Machine

/-! ## The slot behind the axle map unit (R45, R139) -/

section
variable {inp : SampleInput} {s : State}

theorem Slot.clearCalWindow_idem (x : Slot) : x.clearCalWindow.clearCalWindow = x.clearCalWindow := by
  cases x with
  | adjustment sess => cases h : sess.calibration <;> simp [Slot.clearCalWindow, h]
  | free => rfl
  | capture op => rfl
  | audit sess => rfl

/-- The acquisition unit and the zero and motion unit change of the slot a calibration window at most. -/
theorem zeroedAt_slot : (zeroedAt inp s).st.cap.slot = s.cap.slot ∨
    (zeroedAt inp s).st.cap.slot = s.cap.slot.clearCalWindow := by
  obtain hzero | hzero := serveZero_slot (resultAt inp s) (acquiredAt inp s) <;>
    obtain hacquire | hacquire := acquire_slot inp (Ev.start s) <;>
    rw [zeroedAt, hzero, acquiredAt, hacquire]
  · exact .inl rfl
  · exact .inr rfl
  · exact .inr rfl
  · exact .inr (Slot.clearCalWindow_idem _)

/-- A slot without an operation is that behind the zero and motion unit. -/
theorem mappedAt_slot (h : ∀ op, s.cap.slot ≠ .capture op) :
    (mappedAt inp s).st.cap.slot = (zeroedAt inp s).st.cap.slot := by
  refine serveMap_slot (fun op hslot => ?_) _ _
  obtain hsame | hsame := zeroedAt_slot (inp := inp) (s := s)
  · exact h op (hsame.symm.trans hslot)
  · cases hs : s.cap.slot with
    | capture op' => exact h op' hs
    | free => rw [hsame, hs] at hslot; cases hslot
    | audit x => rw [hsame, hs] at hslot; cases hslot
    | adjustment x => rw [hsame, hs] at hslot; cases hslot

theorem mappedAt_audit {x : AuditSession} (h : s.cap.slot = .audit x) : (mappedAt inp s).st.cap.slot = .audit x := by
  rw [mappedAt_slot fun op hop => by rw [h] at hop; cases hop]
  obtain hslot | hslot := zeroedAt_slot (inp := inp) (s := s)
  · exact hslot.trans h
  · rw [hslot, h]
    rfl

theorem mappedAt_keeps : (mappedAt inp s).st.store.config = s.store.config ∧ (mappedAt inp s).st.cal = s.cal ∧
    (mappedAt inp s).st.site = s.site ∧ (mappedAt inp s).st.metro = s.metro ∧
    (mappedAt inp s).st.acq = (acquiredAt inp s).st.acq := by
  simp [mappedAt, zeroedAt, acquiredAt]

/-! ## What follows the capture controller -/

/-- With an audit session open only its step and its idle count are served. -/
theorem sampled_of_audit {x : AuditSession} (h : (mappedAt inp s).st.cap.slot = .audit x) :
    sampled inp s = warmupEnd (serveAuditIdle (serveStep (mappedAt inp s))) := by
  have hoperation : serveOperation inp.storeOk (resultAt inp s) (mappedAt inp s) = mappedAt inp s :=
    serveOperation_of_no_capture (fun op hop => by rw [h] at hop; cases hop) _ _
  have hcalibration : ∀ (value : Chan → Int) (t : Nat),
      serveCalibration (resultAt inp s) value t (mappedAt inp s) = mappedAt inp s := fun value t => by
    simp only [serveCalibration, h]
  have hslot : ∃ y, (serveStep (mappedAt inp s)).st.cap.slot = .audit y := by
    unfold serveStep
    simp only [h, Slot.auditSession]
    split
    · exact ⟨x, h⟩
    · split_ifs <;> exact ⟨_, rfl⟩
  have hadjust : serveAdjustIdle (serveStep (mappedAt inp s)) = serveStep (mappedAt inp s) := by
    obtain ⟨y, hy⟩ := hslot
    simp only [serveAdjustIdle, hy]
  change warmupEnd (serveAuditIdle (serveAdjustIdle (serveStep (serveCalibration (resultAt inp s) _ _
    (serveOperation inp.storeOk (resultAt inp s) (mappedAt inp s)))))) = _
  rw [hoperation, hcalibration, hadjust]

/-- A sample event whose result is a VALUE stands in RUN, so no warm-up ends behind it. -/
theorem warmupEnd_of_value {e : Ev} (hvalue : (resultAt inp s).isValue = true)
    (hacq : e.st.acq = (acquiredAt inp s).st.acq) : warmupEnd e = e := by
  refine warmupEnd_of_not_warmup ?_
  rw [hacq, show (acquiredAt inp s).st.acq.scale = .run from formedResult_isValue hvalue]
  decide

end

section
variable {x : AuditSession} {f : StepFlight} {e : Ev}

theorem serveAuditIdle_of_below (h : e.st.cap.slot = .audit x) (hidle : x.idle + 1 < 90000) :
    serveAuditIdle e = e.upd (setAudit { x with idle := x.idle + 1 }) := by
  simp only [serveAuditIdle, h, Slot.auditSession]
  exact if_neg (Nat.not_le.mpr hidle)

theorem serveAuditIdle_of_reached (h : e.st.cap.slot = .audit x) (hidle : 90000 ≤ x.idle + 1) :
    serveAuditIdle e = (abandonSession .idle e).mark .auditIdle := by
  simp only [serveAuditIdle, h, Slot.auditSession]
  exact if_pos hidle

theorem serveStep_of_idle (h : e.st.cap.slot = .audit x) (hflight : x.flight = none) : serveStep e = e := by
  simp only [serveStep, h, Slot.auditSession, hflight]

variable (h : e.st.cap.slot = .audit x) (hflight : x.flight = some f)
include h hflight

theorem serveStep_of_flight : serveStep e =
    if e.st.zm.decisions.profile1 then
      (e.upd (setAudit { x with steps := x.steps ++ [stepRecord e.st x.steps f], flight := none })).note
        (.auditStepDone (stepRecord e.st x.steps f))
    else if f.limit ≤ f.count + 1 then
      ((e.upd (setAudit { x with flight := none })).note (.stepFailedUnstable f.kind f.target f.load)).mark .stepFailed
    else e.upd (setAudit { x with flight := some { f with count := f.count + 1 } }) := by
  simp only [serveStep, h, Slot.auditSession, hflight]

end

/-! ## The judgement of a step (R152 to R154) -/

theorem loadBand_of_first {eKg load : Nat} {pre post : List (Nat × Nat)} {b : Nat × Nat}
    (hpre : ∀ z ∈ pre, z.1 * eKg < load) (hb : load ≤ b.1 * eKg) : loadBand eKg load (pre ++ b :: post) = b := by
  induction pre with
  | nil =>
    cases post with
    | nil => rfl
    | cons y r => exact if_pos hb
  | cons z r ih =>
    obtain ⟨hz, hr⟩ := List.forall_mem_cons.mp hpre
    have hne : r ++ b :: post ≠ [] := List.append_ne_nil_of_right_ne_nil _ (List.cons_ne_nil b post)
    rw [List.cons_append, loadBand, if_neg (Nat.not_le.mpr hz), ih hr]
    exact hne

theorem loadBand_of_last {eKg load : Nat} {l : List (Nat × Nat)} {b : Nat × Nat} (hall : ∀ z ∈ l, z.1 * eKg < load)
    (hlast : l.getLast? = some b) : loadBand eKg load l = b := by
  induction l with
  | nil => cases hlast
  | cons z r ih =>
    obtain ⟨hz, hr⟩ := List.forall_mem_cons.mp hall
    cases r with
    | nil => exact Option.some.inj hlast
    | cons y r' =>
      rw [loadBand, if_neg (Nat.not_le.mpr hz)]
      · exact ih hr (by rwa [List.getLast?_cons_cons] at hlast)
      · exact List.cons_ne_nil y r'

section
variable {s : State} {steps : List StepRecord} {f : StepFlight}

theorem stepRecord_mpeQuarters_of_zero (h : f.kind = .zero) {b : Nat × Nat} {rest : List (Nat × Nat)}
    (hmpe : s.store.config.mpe = b :: rest) : (stepRecord s steps f).mpeQuarters = b.2 := by
  simp [stepRecord, mpeQuarters, h, hmpe]

theorem stepRecord_mpeQuarters_of_load (h : f.kind ≠ .zero) : (stepRecord s steps f).mpeQuarters =
    (loadBand s.store.config.eKg f.load s.store.config.mpe).2 := by
  cases hkind : f.kind with
  | zero => exact absurd hkind h
  | load => simp [stepRecord, mpeQuarters, hkind]
  | again => simp [stepRecord, mpeQuarters, hkind]

theorem stepRecord_indication : (stepRecord s steps f).indication = indication s f.target := rfl

theorem stepRecord_difference : (stepRecord s steps f).difference =
    if f.kind = .again then
      (steps.find? fun z => z.index == f.refIndex).map fun z => (stepRecord s steps f).indication - z.indication
    else none := by
  cases hkind : f.kind <;> simp [stepRecord, hkind, stepAt]

theorem stepRecord_substituted : (stepRecord s steps f).substituted = true ↔
    ∃ d ∈ s.store.config.activeDecks, (f.target = .bridge ∨ f.target = .deck d) ∧
      ∃ w ∈ s.zm.window, ∃ m ∈ w.decks, m.deck = d ∧ m.substituted = true := by
  have hany : (stepRecord s steps f).substituted = true ↔
      ∃ d ∈ targetDecks s.store.config f.target, d ∈ s.substitutedDecks := by
    simp [stepRecord]
  rw [hany]
  simp only [mem_substitutedDecks]
  cases f.target with
  | bridge => simp [targetDecks]
  | deck k =>
    simp only [targetDecks, List.mem_singleton, exists_eq_left, StepTarget.deck.injEq, reduceCtorEq, false_or]
    exact ⟨fun ⟨hk, hw⟩ => ⟨k, hk, rfl, hw⟩, fun ⟨d, hd, hkd, hw⟩ => hkd ▸ ⟨hd, hw⟩⟩

theorem stepRecord_passed : (stepRecord s steps f).passed = true ↔
    (stepRecord s steps f).substituted = false ∧
      ((stepRecord s steps f).indication - 10 * (f.load : Int)).natAbs ≤ (stepRecord s steps f).mpe ∧
      (f.kind = .again → ∃ z, (steps.find? fun z => z.index == f.refIndex) = some z ∧
        ((stepRecord s steps f).indication - z.indication).natAbs ≤ (stepRecord s steps f).mpe) := by
  have hpassed : (stepRecord s steps f).passed = stepPasses f.kind (stepRecord s steps f).mpe
      ((stepRecord s steps f).indication - 10 * (f.load : Int)) (stepRecord s steps f).difference
      (stepRecord s steps f).substituted := by
    simp [stepRecord]
  rw [hpassed, stepRecord_difference]
  cases f.kind with
  | load => simp [stepPasses]
  | zero => simp [stepPasses]
  | again => cases hfind : steps.find? fun z => z.index == f.refIndex <;> simp [stepPasses]

end

/-- Settles O55: the step by what a stable sample event takes, its record by the definitions of R152 to R154. -/
theorem auditStepJudged : Obligations.AuditStepJudged := by
  intro inp x f s hsupply a r e u c mean hslot hflight hstable hvalue
  obtain ⟨hconfig, hcal, -, -, hacq⟩ := mappedAt_keeps (inp := inp) (s := s)
  have hu : (mappedAt inp s).st.cap.slot = .audit x := mappedAt_audit hslot
  have hstep := (serveStep_of_flight hu hflight).trans (if_pos hstable)
  have hexec : ∀ e1 ns, serveAuditIdle (serveStep (mappedAt inp s)) = e1 → e1.st.acq = (mappedAt inp s).st.acq →
      e1.notes = ns → exec (.sampleEvent inp) s = .next (happened ns s e1.st) := fun e1 ns h hkeep hnotes => by
    rw [exec_sampleEvent hsupply, afterSample, sampled_of_audit hu, h, warmupEnd_of_value hvalue (hkeep.trans hacq),
      hnotes]
  refine ⟨stepRecord (mappedAt inp s).st x.steps f, fun hidle => ?below, fun hidle => ?reached, rfl, rfl, rfl, rfl, rfl,
    fun htarget => ?bridge, fun d htarget => ?deck, ?error, ?mpe, fun hkind b rest hmpe => ?zeroBand,
    fun hkind => ⟨fun pre b post hmpe hpre hb => ?firstBand, fun b hall hlast => ?lastBand⟩, stepRecord_difference,
    ?substituted, stepRecord_passed, congrArg Calendar.value hcal⟩
  case below =>
    have hdone := hexec _ _ ((congrArg serveAuditIdle hstep).trans (serveAuditIdle_of_below rfl hidle)) rfl rfl
    exact hdone
  case reached =>
    have hdone := hexec _ _ ((congrArg serveAuditIdle hstep).trans (serveAuditIdle_of_reached rfl hidle)) rfl
      (List.append_assoc _ [_] [_])
    exact hdone
  case bridge =>
    rw [stepRecord_indication, htarget, show c = u.store.config from hconfig.symm]
    exact sumInt_eq_sum _
  case deck =>
    rw [stepRecord_indication, htarget]
    rfl
  case error => rw [show c = u.store.config from hconfig.symm]; rfl
  case mpe => rw [show c = u.store.config from hconfig.symm]; rfl
  case zeroBand => exact stepRecord_mpeQuarters_of_zero hkind (by rw [hconfig]; exact hmpe)
  case firstBand =>
    rw [stepRecord_mpeQuarters_of_load hkind, hconfig, hmpe, loadBand_of_first hpre hb]
  case lastBand =>
    rw [stepRecord_mpeQuarters_of_load hkind, hconfig, loadBand_of_last hall hlast]
  case substituted =>
    rw [stepRecord_substituted, hconfig]
    exact Iff.rfl

end Sys2Proof.Machine

/-! PROOFS. What a calibration capture makes of its window (R140 to R142). -/

namespace Sys2Proof.Machine

theorem Bank.set_get_self {α : Type} {n : Nat} (b : Bank α n) (i : Fin n) : b.set i (b.get i) = b := by
  refine Bank.get_inj ?_
  simp [Bank.set, Bank.get]

/-! ## The mean counts and the sums (R140, R141) -/

theorem calMean_eq (l : List CalEntry) (i : Chan) : calMean l i =
    roundDiv (l.map fun w => ((w.values.filter fun v => decide (v.1 = i)).map Prod.snd).sum).sum l.length := by
  unfold calMean
  simp only [sumInt_eq_sum]
  rfl

theorem spanSum_eq (c : MetroConfig) (d : Deck) (l : List CalEntry) : spanSum c d l =
    ((namedChans c d).map fun i => (calMean l i - (c.channels.get i).zero) * ((c.channels.get i).gain : Int)).sum := by
  unfold spanSum
  rw [sumInt_eq_sum, deckChans_eq]

theorem mem_namedChans {c : MetroConfig} {d : Deck} {i : Chan} :
    i ∈ namedChans c d ↔ (c.channels.get i).deck = some d := by
  simp [namedChans, mem_allChans]

section
variable {c : MetroConfig} {cal : Calibration}

/-- The channels with the zero counts of a deck at their mean values. -/
def zeroedChannels (c : MetroConfig) (d : Deck) (l : List CalEntry) : Bank ChannelParams 16 := Bank.ofFn fun i =>
  if c.assign i = some d then { c.channels.get i with zero := calMean l i } else c.channels.get i

theorem calResult_zero (h : cal.kind = .zero) : calResult c cal =
    (.zeroOk ((namedChans c cal.deck).map fun i => (i, calMean cal.window i)),
      { c with channels := zeroedChannels c cal.deck cal.window }) := by
  have hmap : ((c.deckChans cal.deck).map fun i => (i, ((calibratedZeros c cal.deck cal.window).channels.get i).zero)) =
      (namedChans c cal.deck).map fun i => (i, calMean cal.window i) := by
    rw [deckChans_eq]
    refine List.map_congr_left fun i hi => congrArg (Prod.mk i) ?_
    have hnamed : c.assign i = some cal.deck := mem_namedChans.mp hi
    rw [calibratedZeros, Bank.get_ofFn, if_pos hnamed]
  simp only [calResult, h, hmap]
  rfl

/-! ## Calibrate Span (R141) -/

/-- The channels with the gains of a deck replaced. -/
def gainedChannels (c : MetroConfig) (d : Deck) (load : Nat) (total : Int) : Bank ChannelParams 16 := Bank.ofFn fun i =>
  if c.assign i = some d then
    { c.channels.get i with gain := (newGain load total (c.channels.get i).gain).toNat }
  else c.channels.get i

/-- The factor lies in its range and every new gain in its own. -/
def SpanFits (c : MetroConfig) (cal : Calibration) (total : Int) : Prop :=
  0 < total ∧ 4 * total ≤ 5 * (spanTarget cal.load : Int) ∧ 4 * (spanTarget cal.load : Int) ≤ 5 * total ∧
    ∀ i ∈ namedChans c cal.deck, 1 ≤ newGain cal.load total (c.channels.get i).gain ∧
      newGain cal.load total (c.channels.get i).gain ≤ 16777215

theorem spanInRange_iff {load : Nat} {total : Int} : spanInRange load total = true ↔
    0 < total ∧ 4 * total ≤ 5 * (spanTarget load : Int) ∧ 4 * (spanTarget load : Int) ≤ 5 * total := by
  simp [spanInRange]

theorem calResult_span (h : cal.kind = .span) : calResult c cal = spanResult c cal := by
  simp only [calResult, h]

theorem gains_any_iff {l : List Chan} {f : Chan → Int} :
    ((l.map fun i => (i, f i)).any fun g => decide (g.2 < 1) || decide (16777215 < g.2)) = true ↔
      ¬∀ i ∈ l, 1 ≤ f i ∧ f i ≤ 16777215 := by
  simp only [List.any_map, List.any_eq_true, Function.comp, Bool.or_eq_true, decide_eq_true_eq, not_forall, exists_prop]
  refine exists_congr fun i => and_congr_right fun _ => ?_
  rw [not_and_or, Int.not_le, Int.not_le]

theorem spanResult_of_not_fits (h : ¬SpanFits c cal (spanSum c cal.deck cal.window)) : spanResult c cal =
    (.spanRange (if 0 < spanSum c cal.deck cal.window then
      some (spanSum c cal.deck cal.window, spanFactor cal.load (spanSum c cal.deck cal.window)) else none), c) := by
  unfold spanResult
  dsimp only
  by_cases hrange : spanInRange cal.load (spanSum c cal.deck cal.window) = false
  · exact if_pos hrange
  · obtain ⟨hpos, hhigh, hlow⟩ := spanInRange_iff.mp (Bool.eq_true_of_not_eq_false hrange)
    rw [deckChans_eq]
    exact (if_neg hrange).trans (if_pos (gains_any_iff.mpr fun hgains => h ⟨hpos, hhigh, hlow, hgains⟩))

theorem spanResult_of_fits (h : SpanFits c cal (spanSum c cal.deck cal.window)) : spanResult c cal =
    (.spanOk (spanSum c cal.deck cal.window) (spanFactor cal.load (spanSum c cal.deck cal.window))
      ((namedChans c cal.deck).map fun i =>
        (i, (newGain cal.load (spanSum c cal.deck cal.window) (c.channels.get i).gain).toNat)),
      { c with
        channels := gainedChannels c cal.deck cal.load (spanSum c cal.deck cal.window)
        linearity := c.linearity.set cal.deck [] }) := by
  obtain ⟨hpos, hhigh, hlow, hgains⟩ := h
  have hrange := spanInRange_iff.mpr ⟨hpos, hhigh, hlow⟩
  unfold spanResult
  dsimp only
  rw [deckChans_eq, if_neg (ne_false_of_eq_true hrange), if_neg (fun hany => gains_any_iff.mp hany hgains),
    List.map_map]
  rfl

end

/-! ## Calibrate Linearity Point (R142) -/

/-- A point within 1% of its own load. -/
def Near (x : Int) (q : LinPoint) : Prop := 100 * (x - q.load).natAbs ≤ q.load

/-- The nearer of the best point so far and the next one; on a tie the best so far. -/
def nearer (x : Int) (best : Option LinPoint) (p : LinPoint) : Option LinPoint :=
  match best with
  | none => some p
  | some b => if (x - p.load).natAbs < (x - b.load).natAbs then some p else some b

section
variable {x : Int} {q : LinPoint} {l : List LinPoint}

theorem replacedPoint_eq (l : List LinPoint) (x : Int) : replacedPoint l x =
    (l.filter fun p => decide (100 * (x - p.load).natAbs ≤ p.load)).foldl (nearer x) none := rfl

theorem foldl_nearer_stays (h : ∀ w ∈ l, (x - q.load).natAbs ≤ (x - w.load).natAbs) :
    l.foldl (nearer x) (some q) = some q := by
  induction l with
  | nil => rfl
  | cons w r ih =>
    obtain ⟨hw, hr⟩ := List.forall_mem_cons.mp h
    rw [List.foldl_cons, nearer, if_neg (Nat.not_lt.mpr hw)]
    exact ih hr

theorem foldl_nearer_mem (o : Option LinPoint) : l.foldl (nearer x) o = o ∨ ∃ b ∈ l, l.foldl (nearer x) o = some b := by
  induction l generalizing o with
  | nil => exact .inl rfl
  | cons w r ih =>
    have hnext : nearer x o w = o ∨ nearer x o w = some w := by
      cases o with
      | none => exact .inr rfl
      | some b =>
        rw [nearer]
        split_ifs
        · exact .inr rfl
        · exact .inl rfl
    rw [List.foldl_cons]
    obtain h | ⟨b, hb, h⟩ := ih (nearer x o w)
    · rw [h]
      exact hnext.imp_right fun hw => ⟨w, List.mem_cons_self, hw⟩
    · exact .inr ⟨b, List.mem_cons_of_mem w hb, h⟩

/-- The point that a new one replaces is the nearest of those within 1%, on a tie the lower one. -/
theorem replacedPoint_of_nearest (hsorted : l.Pairwise fun q w => q.load < w.load) (hq : q ∈ l) (hnear : Near x q)
    (hall : ∀ w ∈ l, Near x w → (x - q.load).natAbs < (x - w.load).natAbs ∨
      (x - q.load).natAbs = (x - w.load).natAbs ∧ q.load ≤ w.load) : replacedPoint l x = some q := by
  have hmem : ∀ w, w ∈ l.filter (fun p => decide (100 * (x - p.load).natAbs ≤ p.load)) ↔ w ∈ l ∧ Near x w := fun w => by
    rw [List.mem_filter, decide_eq_true_iff]
    rfl
  rw [replacedPoint_eq]
  obtain ⟨pre, post, hsplit⟩ := List.append_of_mem ((hmem q).mpr ⟨hq, hnear⟩)
  have horder := hsorted.filter fun p => decide (100 * (x - p.load).natAbs ≤ p.load)
  rw [hsplit] at hmem horder ⊢
  obtain ⟨-, -, hbefore⟩ := List.pairwise_append.mp horder
  have hbest : ∀ w ∈ pre ++ q :: post, (x - q.load).natAbs < (x - w.load).natAbs ∨
      (x - q.load).natAbs = (x - w.load).natAbs ∧ q.load ≤ w.load := fun w hw =>
    hall w ((hmem w).mp hw).1 ((hmem w).mp hw).2
  have hreach : nearer x (pre.foldl (nearer x) none) q = some q := by
    obtain h | ⟨b, hb, h⟩ := foldl_nearer_mem (x := x) (l := pre) none
    · rw [h]
      rfl
    · have hlt := hbefore b hb q List.mem_cons_self
      have hb' := hbest b (List.mem_append_left _ hb)
      rw [h, nearer, if_pos (by omega)]
  rw [List.foldl_append, List.foldl_cons, hreach]
  refine foldl_nearer_stays fun w hw => ?_
  have hw' := hbest w (List.mem_append_right _ (List.mem_cons_of_mem q hw))
  omega

theorem replacedPoint_of_none (h : ∀ q ∈ l, ¬Near x q) : replacedPoint l x = none := by
  have hnil : l.filter (fun p => decide (100 * (x - p.load).natAbs ≤ p.load)) = [] :=
    List.filter_eq_nil_iff.mpr fun q hq hnear => h q hq (by simpa [Near] using hnear)
  rw [replacedPoint_eq, hnil]
  rfl

/-- A point that is not in the table goes between those below and those above it. -/
theorem insertBy_load (hsorted : l.Pairwise fun q w => q.load < w.load) (hne : ∀ w ∈ l, w.load ≠ q.load) :
    ∃ pre post, l = pre ++ post ∧ (∀ w ∈ pre, w.load < q.load) ∧ (∀ w ∈ post, q.load < w.load) ∧
      insertBy (fun a b : LinPoint => decide (a.load ≤ b.load)) q l = pre ++ q :: post := by
  induction l with
  | nil => exact ⟨[], [], rfl, nofun, nofun, rfl⟩
  | cons y r ih =>
    obtain ⟨hy, hr⟩ := List.pairwise_cons.mp hsorted
    obtain ⟨hney, hner⟩ := List.forall_mem_cons.mp hne
    by_cases hle : q.load ≤ y.load
    · have hlt : q.load < y.load := Nat.lt_of_le_of_ne hle (Ne.symm hney)
      refine ⟨[], y :: r, rfl, nofun, List.forall_mem_cons.mpr ⟨hlt, fun w hw => hlt.trans (hy w hw)⟩, ?_⟩
      rw [insertBy, if_pos (decide_eq_true hle)]
      rfl
    · obtain ⟨pre, post, hsplit, hpre, hpost, hinsert⟩ := ih hr hner
      refine ⟨y :: pre, post, congrArg (y :: ·) hsplit, List.forall_mem_cons.mpr ⟨Nat.not_le.mp hle, hpre⟩, hpost, ?_⟩
      rw [insertBy, if_neg (by simpa using hle), hinsert]
      rfl

end

/-- The mean raw sum of a window (R142). -/
def calLoad (l : List CalEntry) : Int := roundDiv (l.map CalEntry.rawSum).sum l.length

/-- The point that a window gives for a load. -/
def calPoint (load : Nat) (x : Int) : LinPoint := { load := x.toNat, correction := 10 * (load : Int) - x }

/-- The mean lies at or below 0, or the correction is above 2% of it. -/
def OutOfRange (load : Nat) (x : Int) : Prop := x ≤ 0 ∨ x < 50 * ((10 * (load : Int) - x).natAbs : Int)

section
variable {table : List LinPoint} {cal : Calibration} {c : MetroConfig}

theorem linearityResult_of_range (h : OutOfRange cal.load (calLoad cal.window)) : linearityResult table cal =
    (.linearityRange (calLoad cal.window) (10 * cal.load - calLoad cal.window) table, table) := by
  unfold linearityResult
  rw [sumInt_eq_sum]
  exact if_pos h

theorem linearityResult_of_fits (h : ¬OutOfRange cal.load (calLoad cal.window)) : linearityResult table cal =
    match replacedPoint table (calLoad cal.window) with
    | some p =>
      (.linearityOk (calLoad cal.window) (10 * cal.load - calLoad cal.window)
          (table.map fun y => if y = p then calPoint cal.load (calLoad cal.window) else y),
        table.map fun y => if y = p then calPoint cal.load (calLoad cal.window) else y)
    | none =>
      if 4 ≤ table.length then
        (.tableFull (calLoad cal.window) (10 * cal.load - calLoad cal.window) table, table)
      else
        (.linearityOk (calLoad cal.window) (10 * cal.load - calLoad cal.window)
            (insertBy (fun a b : LinPoint => decide (a.load ≤ b.load)) (calPoint cal.load (calLoad cal.window)) table),
          insertBy (fun a b : LinPoint => decide (a.load ≤ b.load)) (calPoint cal.load (calLoad cal.window))
            table) := by
  unfold linearityResult
  rw [sumInt_eq_sum]
  exact if_neg h

theorem calResult_linearity (h : cal.kind = .linearity) {o : CalOutcome} {t : List LinPoint}
    (hresult : linearityResult (c.linearity.get cal.deck) cal = (o, t)) :
    calResult c cal = (o, { c with linearity := c.linearity.set cal.deck t }) := by
  simp only [calResult, h, hresult]

/-- An outcome that leaves the table leaves the staged copy. -/
theorem calResult_linearity_same (h : cal.kind = .linearity) {o : CalOutcome}
    (hresult : linearityResult (c.linearity.get cal.deck) cal = (o, c.linearity.get cal.deck)) :
    calResult c cal = (o, c) := by
  rw [calResult_linearity h hresult, Bank.set_get_self]

end

end Sys2Proof.Machine

/-! PROOFS. A calibration capture and an adjustment session at a sample event (R139, R145). -/

namespace Sys2Proof.Machine

section
variable {inp : SampleInput} {s : State} {sess : AdjustSession}

/-- With an adjustment session open only its calibration capture and its idle count are served. -/
theorem sampled_of_adjustment (h : (mappedAt inp s).st.cap.slot = .adjustment sess) : sampled inp s =
    warmupEnd (serveAdjustIdle (serveCalibration (resultAt inp s) (acquire inp (Ev.start s)).value.get
      (acquiredAt inp s).st.zm.clock (mappedAt inp s))) := by
  set e := mappedAt inp s
  have hoperation : serveOperation inp.storeOk (resultAt inp s) e = e :=
    serveOperation_of_no_capture (fun op hop => by rw [h] at hop; cases hop) _ _
  have hcalibration : ∀ (r : SampleResult) (value : Chan → Int) (t : Nat),
      ∃ y, (serveCalibration r value t e).st.cap.slot = .adjustment y := fun r value t => by
    unfold serveCalibration
    simp only [h]
    split
    · exact ⟨sess, h⟩
    · split_ifs <;> exact ⟨_, rfl⟩
  have hstep : ∀ {e1 : Ev}, (∃ y, e1.st.cap.slot = .adjustment y) → serveStep e1 = e1 := fun {e1} ⟨y, hy⟩ => by
    simp only [serveStep, hy, Slot.auditSession]
  have hidle : ∀ {e1 : Ev}, (∃ y, e1.st.cap.slot = .adjustment y) → serveAuditIdle (serveAdjustIdle e1) =
      serveAdjustIdle e1 := fun {e1} ⟨y, hy⟩ => by
    have hnone : (serveAdjustIdle e1).st.cap.slot.auditSession = none := by
      unfold serveAdjustIdle
      simp only [hy]
      split_ifs
      · change (endAdjustment _).st.cap.slot.auditSession = none
        rw [endAdjustment_st]
        rfl
      · rfl
    simp only [serveAuditIdle, hnone]
  change warmupEnd (serveAuditIdle (serveAdjustIdle (serveStep (serveCalibration (resultAt inp s) _ _
    (serveOperation inp.storeOk (resultAt inp s) e))))) = _
  rw [hoperation, hstep (hcalibration _ _ _), hidle (hcalibration _ _ _)]
  rfl

end

/-! ## The calibration capture (R139) -/

/-- The event in which a calibration capture has ended with an outcome. -/
def calibrationEnded (sess : AdjustSession) (cal : Calibration) (c : MetroConfig) (o : CalOutcome) (e : Ev) : Ev :=
  (e.upd (setSession { sess with staged := c, calibration := none })).note (.calibrationResult cal.kind cal.deck o)

section
variable {sess : AdjustSession} {cal : Calibration} {s : State} {c : MetroConfig} {value : Chan → Int} {isValue : Bool}
  {r : SampleResult} {t : Nat} {e : Ev}

theorem push_keeps : (cal.push s c value isValue).kind = cal.kind ∧ (cal.push s c value isValue).deck = cal.deck ∧
    (cal.push s c value isValue).load = cal.load ∧ (cal.push s c value isValue).limit = cal.limit ∧
    (cal.push s c value isValue).count = cal.count := by
  unfold Calibration.push
  split_ifs
  · exact ⟨rfl, rfl, rfl, rfl, rfl⟩
  · split <;> exact ⟨rfl, rfl, rfl, rfl, rfl⟩

theorem push_of_no_value : cal.push s c value false = cal := rfl

theorem push_window {x : Int} {sub : Bool}
    (h : rawSum c (fun i => (s.acq.channels.get i).health) value cal.deck = some (x, sub)) :
    (cal.push s c value true).window =
      (cal.window ++ [({ values := (c.deckChans cal.deck).map fun i => (i, value i), rawSum := x } : CalEntry)]).drop
        (cal.window.length + 1 - c.window) := by
  rw [← pushWindow_eq]
  simp only [Calibration.push, h]
  rfl

theorem serveCalibration_of_idle (h : e.st.cap.slot = .adjustment sess) (hnone : sess.calibration = none) :
    serveCalibration r value t e = e := by
  simp only [serveCalibration, h, hnone]

/-- What a sample event does with a calibration capture in flight. -/
theorem serveCalibration_of_flight (h : e.st.cap.slot = .adjustment sess) {cal0 : Calibration}
    (hflight : sess.calibration = some cal0) (hcal : cal0.push e.st sess.staged value r.isValue = cal) :
    serveCalibration r value t e =
      if cal.stable sess.staged t then
        calibrationEnded sess cal (calResult sess.staged cal).2 (calResult sess.staged cal).1 e
      else if deckHealthy e.st sess.staged cal.deck = false then
        calibrationEnded sess cal sess.staged .channelExcluded e
      else if cal.limit ≤ cal.count + 1 then
        (calibrationEnded sess cal sess.staged .calUnstable e).mark .calUnstable
      else e.upd (setSession { sess with calibration := some { cal with count := cal.count + 1 } }) := by
  simp only [serveCalibration, h, hflight, hcal]
  rfl

end

/-! ## The idle count of an adjustment session (R145) -/

section
variable {sess : AdjustSession} {e : Ev}

theorem serveAdjustIdle_of_below (h : e.st.cap.slot = .adjustment sess) (hidle : sess.idle + 1 < 90000) :
    serveAdjustIdle e = e.upd (setSession { sess with idle := sess.idle + 1 }) := by
  simp only [serveAdjustIdle, h]
  exact if_neg (Nat.not_le.mpr hidle)

theorem serveAdjustIdle_of_reached (h : e.st.cap.slot = .adjustment sess) (hidle : 90000 ≤ sess.idle + 1) :
    serveAdjustIdle e = (abortAdjustment .idle e).mark .adjustIdle := by
  simp only [serveAdjustIdle, h]
  exact if_pos hidle

theorem abortAdjustment_st (cause : AbortCause) : (abortAdjustment cause e).st =
    (e.st.setCap { e.st.cap with slot := .free }).setMetro
      { e.st.metro with status := statusReasons e.st.metro.valid false e.st.store e.st.cal.value } := endAdjustment_st

theorem abortAdjustment_notes (cause : AbortCause) : (abortAdjustment cause e).notes = e.notes ++
    [.adjustAborted cause] ++ statusNote (statusReasons e.st.metro.valid false e.st.store e.st.cal.value)
      e.st.metro.status := endAdjustment_notes

end

/-! ## The outcomes in the words of R140 to R142 -/

section
variable {c : MetroConfig} {cal : Calibration} {x : Int}

theorem calResult_linearity_of_near (h : cal.kind = .linearity)
    (hsorted : (c.linearity.get cal.deck).Pairwise fun q w => q.load < w.load)
    (hfits : ¬OutOfRange cal.load (calLoad cal.window)) {q : LinPoint} (hq : q ∈ c.linearity.get cal.deck)
    (hnear : Near (calLoad cal.window) q)
    (hall : ∀ w ∈ c.linearity.get cal.deck, Near (calLoad cal.window) w →
      (calLoad cal.window - q.load).natAbs < (calLoad cal.window - w.load).natAbs ∨
        (calLoad cal.window - q.load).natAbs = (calLoad cal.window - w.load).natAbs ∧ q.load ≤ w.load) :
    calResult c cal = (.linearityOk (calLoad cal.window) (10 * cal.load - calLoad cal.window)
        ((c.linearity.get cal.deck).map fun w => if w = q then calPoint cal.load (calLoad cal.window) else w),
      { c with
        linearity := c.linearity.set cal.deck
          ((c.linearity.get cal.deck).map fun w => if w = q then calPoint cal.load (calLoad cal.window) else w) }) := by
  refine calResult_linearity h ?_
  rw [linearityResult_of_fits hfits, replacedPoint_of_nearest hsorted hq hnear hall]

theorem calResult_linearity_of_full (h : cal.kind = .linearity) (hfits : ¬OutOfRange cal.load (calLoad cal.window))
    (hfar : ∀ q ∈ c.linearity.get cal.deck, ¬Near (calLoad cal.window) q)
    (hfull : 4 ≤ (c.linearity.get cal.deck).length) :
    calResult c cal = (.tableFull (calLoad cal.window) (10 * cal.load - calLoad cal.window)
      (c.linearity.get cal.deck), c) := by
  refine calResult_linearity_same h ?_
  rw [linearityResult_of_fits hfits, replacedPoint_of_none hfar]
  exact if_pos hfull

theorem calResult_linearity_of_room (h : cal.kind = .linearity)
    (hsorted : (c.linearity.get cal.deck).Pairwise fun q w => q.load < w.load)
    (hfits : ¬OutOfRange cal.load (calLoad cal.window))
    (hfar : ∀ q ∈ c.linearity.get cal.deck, ¬Near (calLoad cal.window) q)
    (hroom : (c.linearity.get cal.deck).length < 4) :
    ∃ pre post, c.linearity.get cal.deck = pre ++ post ∧ (∀ q ∈ pre, (q.load : Int) < calLoad cal.window) ∧
      (∀ q ∈ post, calLoad cal.window < (q.load : Int)) ∧
      calResult c cal = (.linearityOk (calLoad cal.window) (10 * cal.load - calLoad cal.window)
          (pre ++ calPoint cal.load (calLoad cal.window) :: post),
        { c with
          linearity := c.linearity.set cal.deck (pre ++ calPoint cal.load (calLoad cal.window) :: post) }) := by
  have hpos : 0 < calLoad cal.window := by
    by_contra hno
    exact hfits (Or.inl (by omega))
  have hload : ((calPoint cal.load (calLoad cal.window)).load : Int) = calLoad cal.window :=
    Int.toNat_of_nonneg hpos.le
  have hne : ∀ w ∈ c.linearity.get cal.deck, w.load ≠ (calPoint cal.load (calLoad cal.window)).load := by
    intro w hw heq
    refine hfar w hw ?_
    rw [Near, heq, hload, Int.sub_self]
    exact Nat.zero_le _
  obtain ⟨pre, post, hsplit, hpre, hpost, hinsert⟩ := insertBy_load hsorted hne
  refine ⟨pre, post, hsplit, fun q hq => ?_, fun q hq => ?_, calResult_linearity h ?_⟩
  · rw [← hload]
    exact Int.ofNat_lt.mpr (hpre q hq)
  · rw [← hload]
    exact Int.ofNat_lt.mpr (hpost q hq)
  · rw [linearityResult_of_fits hfits, replacedPoint_of_none hfar, hinsert]
    exact if_neg (Nat.not_le.mpr hroom)

end

/-- Settles O52: each outcome by its window, then the capture in flight by the rows of R139. -/
theorem calibrationResults : Obligations.CalibrationResults := by
  refine ⟨fun c cal => ?outcomes, fun inp sess cal0 s hsupply => ?sample⟩
  case outcomes =>
    intro chans mean zeroed total target factor newGain inRange table x corr point range near withTable
    have hmean : ∀ i, calMean cal.window i = mean i := calMean_eq cal.window
    have htotal : spanSum c cal.deck cal.window = total := by
      rw [spanSum_eq]
      simp only [hmean]
      rfl
    refine ⟨fun hkind => ⟨zeroedChannels c cal.deck cal.window, fun i => ?_, ?_⟩, fun hkind => ⟨fun hout => ?_,
      fun hfits => ⟨gainedChannels c cal.deck cal.load total, fun i => ?_, ?_⟩⟩, fun hkind hsorted =>
      ⟨fun hout => ?_, fun hfits q hq hnear hall => ?_, fun hfits hfar => ⟨fun hfull => ?_, fun hroom => ?_⟩⟩⟩
    · rw [← hmean]
      exact Bank.get_ofFn _ i
    · rw [calResult_zero hkind]
      simp only [hmean]
      rfl
    · have hspan := spanResult_of_not_fits (c := c) (cal := cal)
      rw [htotal] at hspan
      exact (calResult_span hkind).trans (hspan hout)
    · exact Bank.get_ofFn _ i
    · have hspan := spanResult_of_fits (c := c) (cal := cal)
      rw [htotal] at hspan
      exact (calResult_span hkind).trans (hspan hfits)
    · exact calResult_linearity_same hkind (linearityResult_of_range hout)
    · exact calResult_linearity_of_near hkind hsorted hfits hq hnear hall
    · exact calResult_linearity_of_full hkind hfits hfar hfull
    · exact calResult_linearity_of_room hkind hsorted hfits hfar hroom
  case sample =>
    intro a r e u c cal stable now ended hslot hflight hvalue
    obtain ⟨-, -, -, -, hacq⟩ := mappedAt_keeps (inp := inp) (s := s)
    obtain ⟨hkind, hdeck, hload, hlimit, hcount⟩ :=
      push_keeps (cal := cal0) (s := u) (c := c) (value := a.value.get) (isValue := r.isValue)
    have hserve := serveCalibration_of_flight (r := resultAt inp s) (t := (acquiredAt inp s).st.zm.clock)
      (e := mappedAt inp s) hslot hflight (cal := cal) rfl
    have hexec : ∀ e1 ns, serveAdjustIdle (serveCalibration (resultAt inp s) (acquire inp (Ev.start s)).value.get
        (acquiredAt inp s).st.zm.clock (mappedAt inp s)) = e1 → e1.st.acq = (mappedAt inp s).st.acq → e1.notes = ns →
          exec (.sampleEvent inp) s = .next (happened ns s e1.st) := fun e1 ns h hkeep hnotes => by
      rw [exec_sampleEvent hsupply, afterSample, sampled_of_adjustment hslot, h,
        warmupEnd_of_value hvalue (hkeep.trans hacq), hnotes]
    have hended : ∀ staged o e1, serveCalibration (resultAt inp s) (acquire inp (Ev.start s)).value.get
        (acquiredAt inp s).st.zm.clock (mappedAt inp s) = e1 →
          e1.st = (calibrationEnded sess cal staged o (mappedAt inp s)).st →
          e1.notes = (calibrationEnded sess cal staged o (mappedAt inp s)).notes → ended staged o := by
      intro staged o e1 hserved hst hnotes
      have hslot1 : e1.st.cap.slot = .adjustment { sess with staged := staged, calibration := none } := by
        rw [hst]
        rfl
      refine ⟨fun hidle => ?_, fun hidle => ?_⟩
      · have hdone := hexec _ _ ((congrArg serveAdjustIdle hserved).trans (serveAdjustIdle_of_below hslot1 hidle))
          (by rw [Ev.upd_st, hst]; rfl) hnotes
        rw [Ev.upd_st, hst] at hdone
        exact hdone
      · have hdone := hexec _ _ ((congrArg serveAdjustIdle hserved).trans (serveAdjustIdle_of_reached hslot1 hidle))
          (by rw [Ev.mark_st, abortAdjustment_st, hst]; rfl) (abortAdjustment_notes .idle)
        have hended : (calibrationEnded sess cal staged o (mappedAt inp s)).notes ++ [.adjustAborted .idle] =
            e.notes ++ [.calibrationResult cal.kind cal.deck o, .adjustAborted .idle] := List.append_assoc _ [_] [_]
        rw [Ev.mark_st, abortAdjustment_st, hst, hnotes, hended] at hdone
        exact hdone
    have hhealth : deckHealthy u c cal.deck = true ↔ ∀ i, (c.channels.get i).deck = some cal0.deck →
        (u.acq.channels.get i).health = .good ∨ (u.acq.channels.get i).health = .watch := by
      rw [deckHealthy_iff, hdeck]
      rfl
    refine ⟨hkind, hdeck, hload, fun x sub hsum => ?_, fun hstable => ?_, fun hunstable hlost => ?_,
      fun hunstable hfit => ⟨fun hlimited => ?_, fun hmore hidle => ?_⟩⟩
    · intro entry
      have hwindow := push_window hsum
      rw [← hvalue] at hwindow
      exact hwindow
    · exact hended _ _ _ (hserve.trans (if_pos hstable)) rfl rfl
    · obtain ⟨i, hi, hout⟩ := hlost
      have hsick : ¬deckHealthy u c cal.deck = true := fun h => by
        have hin := hhealth.mp h i hi
        obtain hout | hout := hout <;> rw [hout] at hin <;> simp at hin
      exact hended _ _ _ (hserve.trans ((if_neg (ne_true_of_eq_false hunstable)).trans
        (if_pos (Bool.eq_false_of_not_eq_true hsick)))) rfl rfl
    · have hon := hserve.trans ((if_neg (ne_true_of_eq_false hunstable)).trans
        (if_neg (ne_false_of_eq_true (hhealth.mpr hfit))))
      exact hended _ _ _ (hon.trans (if_pos (by rw [hlimit, hcount]; exact hlimited))) rfl rfl
    · have hon := hserve.trans ((if_neg (ne_true_of_eq_false hunstable)).trans
        ((if_neg (ne_false_of_eq_true (hhealth.mpr hfit))).trans
          (if_neg (by rw [hlimit, hcount]; exact Nat.not_le.mpr hmore))))
      have hdone := hexec _ _ ((congrArg serveAdjustIdle hon).trans (serveAdjustIdle_of_below rfl hidle)) rfl rfl
      rw [← hcount]
      exact hdone

end Sys2Proof.Machine

/-! PROOFS. Where the mark of an unstable timeout comes from, and the operation behind the axle map unit (R98, R101 to
R104, log 4). -/

namespace Sys2Proof.Machine

/-! ## What the completions mark: nothing -/

section
variable {ok : Bool} {op : Operation} {r : CaptureResult} {e : Ev}

theorem storeWrite_marks (w : StoreWrite) (f : State → State) : (storeWrite ok w f e).marks = e.marks := by
  cases ok with
  | true => rfl
  | false => exact latchStoreFault_marks w e

theorem when_marks {b : Bool} {f : Ev → Ev} (h : ∀ e, (f e).marks = e.marks) : (e.when b f).marks = e.marks := by
  cases b with
  | true => exact h e
  | false => rfl

theorem issueWrite_marks (t : Ticket) (also : Store → Store) : (issueWrite ok t also e).marks = e.marks := by
  refine Eq.trans (when_marks ?_) (storeWrite_marks _ _)
  exact fun _ => rfl

theorem completeSecond_marks : (completeSecond ok r e).1.marks = e.marks := by
  unfold completeSecond
  split
  · rfl
  · split
    · exact storeWrite_marks _ _
    · exact issueWrite_marks _ _

theorem completeTare_marks : (completeTare ok r e).1.marks = e.marks := by
  unfold completeTare
  dsimp only
  split
  · exact storeWrite_marks _ _
  · rfl

theorem completeSinglePass_marks : (completeSinglePass ok r e).1.marks = e.marks := by
  unfold completeSinglePass
  dsimp only
  split
  · exact issueWrite_marks _ _
  · exact storeWrite_marks _ _

theorem completeKind_marks : (completeKind ok r e).1.marks = e.marks := by
  unfold completeKind
  cases r.request.kind with
  | axleCheck => rfl
  | first =>
    dsimp only
    split_ifs
    · rfl
    · exact storeWrite_marks _ _
  | second =>
    dsimp only
    split_ifs
    · rfl
    · exact completeSecond_marks
  | singlePass =>
    dsimp only
    split_ifs
    · rfl
    · exact completeSinglePass_marks
  | tare =>
    dsimp only
    split_ifs
    · rfl
    · exact completeTare_marks

theorem failOp_marks (reason : FailReason) : (failOp op reason e).marks = e.marks := rfl

theorem completeOp_marks : (completeOp ok op r e).marks = e.marks := by
  cases h : (completeKind ok r e).2 with
  | none => rw [completeOp_of_none h, failOp_marks, completeKind_marks]
  | some o => rw [completeOp_of_some h, completeKind_marks]

theorem completeComposite_marks : (completeComposite ok op e).marks = e.marks := by
  unfold completeComposite
  dsimp only
  split
  · rfl
  · rfl
  · exact completeOp_marks

theorem takeWhole_marks : (takeWhole ok op e).marks = e.marks := by
  unfold takeWhole
  dsimp only
  split
  · rfl
  · rfl
  · exact completeOp_marks

theorem takePosition_marks (comps : List Component) : (takePosition ok op comps e).marks = e.marks := by
  unfold takePosition
  dsimp only
  split_ifs
  · exact completeComposite_marks
  · rfl
  · rfl

theorem tryCapture_marks {e1 : Ev} (h : tryCapture ok op e = some e1) : e1.marks = e.marks :=
  tryCapture_keeps (P := fun e1 => e1.marks = e.marks) h (fun _ => rfl) takePosition_marks takeWhole_marks

theorem resumeSettling_marks (crossing : Bool) : (resumeSettling crossing op e).2.marks = e.marks := by
  unfold resumeSettling
  split_ifs <;> rfl

/-- A composite operation at a report stays, completes or fails. -/
theorem reportComposite_cases (rep : MapReport) : reportComposite ok rep op e = e ∨
    reportComposite ok rep op e = completeComposite ok op e ∨ ∃ reason, reportComposite ok rep op e =
      failOp op reason e := by
  unfold reportComposite
  split
  · exact .inl rfl
  · split
    · exact .inr (.inl rfl)
    · split
      · exact .inr (.inr ⟨_, rfl⟩)
      · exact .inr (.inr ⟨_, rfl⟩)
      · split
        · exact .inr (.inr ⟨_, rfl⟩)
        · exact .inl rfl

/-- An operation in WHOLE mode at a report fails by a second vehicle, or moves. -/
theorem reportWhole_cases (rep : MapReport) :
    rep.loss = some .secondVehicle ∧ reportWhole rep op e = failOp op .twoVehicles e ∨
      ∃ x, reportWhole rep op e = movedTo x op e := by
  by_cases hloss : rep.loss = some .secondVehicle
  · exact .inl ⟨hloss, reportWhole_of_second hloss⟩
  · cases hchanged : rep.changed with
    | false => exact .inr ⟨op.state, (reportWhole_of_unchanged hloss hchanged).trans movedTo_self.symm⟩
    | true => exact .inr ⟨_, reportWhole_of_changed hloss hchanged⟩

theorem movedTo_marks (x : OpState) : (movedTo x op e).marks = e.marks := by
  unfold movedTo
  split_ifs <;> rfl

theorem reportComposite_marks (rep : MapReport) : (reportComposite ok rep op e).marks = e.marks := by
  obtain h | h | ⟨reason, h⟩ := reportComposite_cases (ok := ok) (op := op) (e := e) rep
  · rw [h]
  · rw [h, completeComposite_marks]
  · rw [h, failOp_marks]

theorem reportWhole_marks (rep : MapReport) : (reportWhole rep op e).marks = e.marks := by
  obtain ⟨-, h⟩ | ⟨x, h⟩ := reportWhole_cases (op := op) (e := e) rep
  · rw [h, failOp_marks]
  · rw [h, movedTo_marks]

theorem reportToCapture_marks (rep : MapReport) : (reportToCapture ok rep e).marks = e.marks := by
  unfold reportToCapture
  split
  · dsimp only
    split
    · exact (reportComposite_marks _).trans (resumeSettling_marks _)
    · exact (reportWhole_marks _).trans (resumeSettling_marks _)
  all_goals rfl

theorem formOccupancy_marks (m : AxleMap) (crossing : Bool) (loss : Option LossCause) :
    (formOccupancy ok m crossing loss e).marks = e.marks :=
  (reportToCapture_marks _).trans (when_marks fun _ => rfl)

end

/-! ## The mark of an unstable timeout (R103, log 4) -/

section
variable {inp : SampleInput} {s : State} {ok : Bool} {r : SampleResult} {e : Ev}

theorem acquiredAt_timeout : .unstableTimeout ∉ (acquiredAt inp s).marks := by
  unfold acquiredAt
  cases hscale : s.acq.scale with
  | run =>
    rw [acquire_run_marks inp hscale]
    intro h
    obtain ⟨i, -, hi⟩ := List.mem_flatMap.mp h
    split at hi
    · cases hi
    · simp only [List.mem_append] at hi
      obtain (hi | hi) | hi := hi <;> split_ifs at hi <;> simp at hi
  | warmup =>
    have hbegun : ((Ev.start s).upd beginSample).st.acq.scale = .warmup := hscale
    unfold acquire
    dsimp only
    rw [hbegun]
    exact List.not_mem_nil
  | standby =>
    have hbegun : ((Ev.start s).upd beginSample).st.acq.scale = .standby := hscale
    unfold acquire
    dsimp only
    rw [hbegun]
    exact List.not_mem_nil

theorem serveZero_timeout (h : .unstableTimeout ∈ (serveZero r e).marks) : .unstableTimeout ∈ e.marks := by
  have hinitial : ∀ e, (initialZero e).marks = e.marks := fun e => by
    unfold initialZero takeInitialZero
    dsimp only
    split_ifs <;> rfl
  have htracking : ∀ e, .unstableTimeout ∈ (tracking e).marks → .unstableTimeout ∈ e.marks := fun e h => by
    unfold tracking at h
    split_ifs at h
    · unfold trackingStep at h
      dsimp only at h
      rw [Ev.mark_marks, List.mem_cons] at h
      simpa using h
    · exact h
    · exact h
  unfold serveZero at h
  dsimp only at h
  split_ifs at h
  · have hmem := htracking _ h
    rw [hinitial] at hmem
    exact hmem
  · exact h

theorem loseCertainty_marks (cause : LossCause) (line : Option LineNo) :
    (loseCertainty cause line e).marks = e.marks := by
  unfold loseCertainty
  split_ifs <;> rfl

theorem serveMap_timeout (h : .unstableTimeout ∈ (serveMap ok r e).marks) : .unstableTimeout ∈ e.marks := by
  unfold serveMap at h
  dsimp only at h
  split_ifs at h
  · rw [formOccupancy_marks] at h
    unfold serveHiddenLoad at h
    dsimp only at h
    split_ifs at h
    · exact h
    · rw [Ev.mark_marks, loseCertainty_marks] at h
      simpa using h
    · exact h
  · rw [formOccupancy_marks] at h
    unfold serveRecovery at h
    dsimp only at h
    split_ifs at h
    · exact h
    · simpa using h
    · exact h

theorem mappedAt_timeout : .unstableTimeout ∉ (mappedAt inp s).marks := fun h =>
  acquiredAt_timeout (serveZero_timeout (serveMap_timeout h))

/-- The capture controller marks a timeout where an operation fails by it. -/
theorem serveOperation_of_timeout (hno : .unstableTimeout ∉ e.marks)
    (h : .unstableTimeout ∈ (serveOperation ok r e).marks) : ∃ op, e.st.cap.slot = .capture op ∧
      serveOperation ok r e = (failOp op .unstableTimeout e).mark .unstableTimeout := by
  cases hslot : e.st.cap.slot with
  | capture op =>
    refine ⟨op, rfl, ?_⟩
    by_cases hdown : r.isDeckDown = true
    · rw [serveOperation_of_deckDown hslot hdown] at h
      exact absurd h hno
    · have hup := Bool.eq_false_of_not_eq_true hdown
      cases htry : tryCapture ok { op with timeoutCount := op.timeoutCount + 1 } e with
      | some e1 =>
        rw [serveOperation_of_taken hslot hup htry, tryCapture_marks htry] at h
        exact absurd h hno
      | none =>
        rw [serveOperation_of_waiting hslot hup htry] at h ⊢
        split_ifs at h ⊢
        · rfl
        · exact absurd h hno
  | free => exact absurd (by rwa [serveOperation_of_no_capture (by simp [hslot])] at h) hno
  | adjustment x => exact absurd (by rwa [serveOperation_of_no_capture (by simp [hslot])] at h) hno
  | audit x => exact absurd (by rwa [serveOperation_of_no_capture (by simp [hslot])] at h) hno

/-- Behind the capture controller nothing marks a timeout. -/
theorem sampled_timeout (h : finds .unstableTimeout inp s = true) :
    .unstableTimeout ∈ (serveOperation inp.storeOk (resultAt inp s) (mappedAt inp s)).marks := by
  have hcalibration : ∀ (value : Chan → Int) (t : Nat) (e : Ev),
      .unstableTimeout ∈ (serveCalibration (resultAt inp s) value t e).marks → .unstableTimeout ∈ e.marks := by
    intro value t e h
    unfold serveCalibration at h
    split at h
    · split at h
      · exact h
      · dsimp only at h
        split_ifs at h
        · exact h
        · exact h
        · simpa using h
        · exact h
    all_goals exact h
  have hstep : ∀ e : Ev, .unstableTimeout ∈ (serveStep e).marks → .unstableTimeout ∈ e.marks := by
    intro e h
    unfold serveStep at h
    split at h
    · exact h
    · split at h
      · exact h
      · dsimp only at h
        split_ifs at h
        · exact h
        · simpa using h
        · exact h
  have hadjust : ∀ e : Ev, .unstableTimeout ∈ (serveAdjustIdle e).marks → .unstableTimeout ∈ e.marks := by
    intro e h
    unfold serveAdjustIdle at h
    split at h
    · split_ifs at h
      · have habort : (abortAdjustment .idle e).marks = e.marks := when_marks fun _ => rfl
        rw [Ev.mark_marks, habort] at h
        simpa using h
      · exact h
    all_goals exact h
  have haudit : ∀ e : Ev, .unstableTimeout ∈ (serveAuditIdle e).marks → .unstableTimeout ∈ e.marks := by
    intro e h
    unfold serveAuditIdle at h
    split at h
    · exact h
    · split_ifs at h
      · simpa [abandonSession] using h
      · exact h
  have hend : ∀ e : Ev, .unstableTimeout ∈ (warmupEnd e).marks → .unstableTimeout ∈ e.marks := by
    intro e h
    unfold warmupEnd at h
    split_ifs at h
    · simpa using h
    · exact h
  have hmem : .unstableTimeout ∈ (sampled inp s).marks := List.contains_iff_mem.mp h
  exact hcalibration _ _ _ (hstep _ (hadjust _ (haudit _ (hend _ hmem))))

end

/-! ## The operation behind the axle map unit (R98, R101, R104) -/

/-- The operation still holds the slot, in some state, and the record store stands. -/
def GoesOn (op : Operation) (a b : State) : Prop :=
  ∃ x, b.cap.slot = .capture { op with state := x } ∧ b.store = a.store ∧ b.tm = a.tm

section
variable {ok : Bool} {rep : MapReport} {op : Operation} {e : Ev} {inp : SampleInput} {s : State}

theorem goesOn_resumeSettling (h : e.st.cap.slot = .capture op) (crossing : Bool) :
    ∃ x, (resumeSettling crossing op e).1 = { op with state := x } ∧
      (resumeSettling crossing op e).2.st.cap.slot = .capture { op with state := x } ∧
      (resumeSettling crossing op e).2.st.store = e.st.store ∧ (resumeSettling crossing op e).2.st.tm = e.st.tm := by
  unfold resumeSettling
  split_ifs
  · exact ⟨.settling, rfl, rfl, rfl, rfl⟩
  · exact ⟨op.state, rfl, h, rfl, rfl⟩

theorem goesOn_movedTo {x : OpState} (y : OpState) (h : e.st.cap.slot = .capture { op with state := x }) :
    GoesOn op e.st (movedTo y { op with state := x } e).st := by
  unfold movedTo
  split_ifs
  · exact ⟨x, h, rfl, rfl⟩
  · exact ⟨y, rfl, rfl, rfl⟩

theorem reportToCapture_course (h : e.st.cap.slot = .capture op) :
    (reportToCapture ok rep e).st.cap.slot = .free ∨ GoesOn op e.st (reportToCapture ok rep e).st := by
  obtain ⟨x, hop, hslot, hstore, htm⟩ := goesOn_resumeSettling h rep.crossing
  cases hmode : op.mode with
  | composite =>
    rw [reportToCapture_composite h hmode Prod.mk.eta.symm]
    obtain hreport | hreport | ⟨reason, hreport⟩ := reportComposite_cases (ok := ok)
      (op := (resumeSettling rep.crossing op e).1) (e := (resumeSettling rep.crossing op e).2) rep
    · rw [hreport]
      exact .inr ⟨x, hslot, hstore, htm⟩
    · rw [hreport]
      exact .inl (completeComposite_slot _ _ _)
    · rw [hreport]
      exact .inl rfl
  | whole =>
    rw [reportToCapture_whole h hmode Prod.mk.eta.symm]
    obtain ⟨-, hreport⟩ | ⟨y, hreport⟩ := reportWhole_cases
      (op := (resumeSettling rep.crossing op e).1) (e := (resumeSettling rep.crossing op e).2) rep
    · rw [hreport]
      exact .inl rfl
    · rw [hreport, hop]
      obtain ⟨z, hz, hzstore, hztm⟩ := goesOn_movedTo y hslot
      exact .inr ⟨z, hz, hzstore.trans hstore, hztm.trans htm⟩

theorem reportToCapture_whole_course (h : e.st.cap.slot = .capture op) (hmode : op.mode = .whole)
    (hloss : rep.loss ≠ some .secondVehicle) : GoesOn op e.st (reportToCapture ok rep e).st := by
  obtain ⟨x, hop, hslot, hstore, htm⟩ := goesOn_resumeSettling h rep.crossing
  rw [reportToCapture_whole h hmode Prod.mk.eta.symm]
  obtain ⟨hsecond, -⟩ | ⟨y, hreport⟩ := reportWhole_cases
    (op := (resumeSettling rep.crossing op e).1) (e := (resumeSettling rep.crossing op e).2) rep
  · exact absurd hsecond hloss
  · rw [hreport, hop]
    obtain ⟨z, hz, hzstore, hztm⟩ := goesOn_movedTo y hslot
    exact ⟨z, hz, hzstore.trans hstore, hztm.trans htm⟩

theorem zeroedAt_capture (h : s.cap.slot = .capture op) : (zeroedAt inp s).st.cap.slot = .capture op := by
  obtain hslot | hslot := zeroedAt_slot (inp := inp) (s := s)
  · exact hslot.trans h
  · rw [hslot, h]
    rfl

/-- What the axle map unit hands to the capture controller at a sample event: a report with no loss or that of a hidden
load, in a state that has the slot and the record store as they were. -/
theorem mappedAt_eq : ∃ (rep : MapReport) (e : Ev), rep.loss ≠ some .secondVehicle ∧
    e.st.cap.slot = (zeroedAt inp s).st.cap.slot ∧ e.st.store = s.store ∧ e.st.tm = s.tm ∧
    mappedAt inp s = reportToCapture inp.storeOk rep e := by
  have hzeroed : (zeroedAt inp s).st.store = s.store ∧ (zeroedAt inp s).st.tm = s.tm := by
    simp [zeroedAt, acquiredAt]
  obtain ⟨hstore, htm⟩ := hzeroed
  unfold mappedAt serveMap
  dsimp only
  split_ifs
  · obtain ⟨hslot, htm', hstore', -⟩ := occupied_keeps (zeroedAt inp s).st.axle
      (e := (serveHiddenLoad (resultAt inp s) (zeroedAt inp s)).1)
    refine ⟨_, _, ?_, ?_, ?_, ?_, formOccupancy_eq _⟩
    · change (serveHiddenLoad (resultAt inp s) (zeroedAt inp s)).2 ≠ some .secondVehicle
      unfold serveHiddenLoad
      dsimp only
      split_ifs <;> simp
    · rw [hslot, serveHiddenLoad_slot]
    · rw [hstore', ← hstore]
      simp
    · rw [htm', ← htm]
      simp
  · obtain ⟨hslot, htm', hstore', -⟩ := occupied_keeps (zeroedAt inp s).st.axle
      (e := serveRecovery (resultAt inp s) (zeroedAt inp s))
    refine ⟨_, _, ?_, ?_, ?_, ?_, formOccupancy_eq _⟩
    · exact nofun
    · rw [hslot, serveRecovery_slot]
    · rw [hstore', ← hstore]
      simp
    · rw [htm', ← htm]
      simp

theorem mappedAt_course (h : s.cap.slot = .capture op) :
    (mappedAt inp s).st.cap.slot = .free ∨ GoesOn op s (mappedAt inp s).st := by
  obtain ⟨rep, e, -, hslot, hstore, htm, heq⟩ := mappedAt_eq (inp := inp) (s := s)
  rw [heq]
  refine (reportToCapture_course (hslot.trans (zeroedAt_capture h))).imp_right fun ⟨x, hx, hxstore, hxtm⟩ => ?_
  exact ⟨x, hx, hxstore.trans hstore, hxtm.trans htm⟩

theorem mappedAt_whole (h : s.cap.slot = .capture op) (hmode : op.mode = .whole) : GoesOn op s (mappedAt inp s).st := by
  obtain ⟨rep, e, hloss, hslot, hstore, htm, heq⟩ := mappedAt_eq (inp := inp) (s := s)
  rw [heq]
  obtain ⟨x, hx, hxstore, hxtm⟩ := reportToCapture_whole_course (ok := inp.storeOk)
    (hslot.trans (zeroedAt_capture h)) hmode hloss
  exact ⟨x, hx, hxstore.trans hstore, hxtm.trans htm⟩

/-- Without an operation in the slot the record store stands behind the axle map unit. -/
theorem mappedAt_store (h : ∀ op, (zeroedAt inp s).st.cap.slot ≠ .capture op) :
    (mappedAt inp s).st.store = s.store ∧ (mappedAt inp s).st.tm = s.tm := by
  obtain ⟨rep, e, -, hslot, hstore, htm, heq⟩ := mappedAt_eq (inp := inp) (s := s)
  rw [heq, reportToCapture_of_no_capture fun op hop => h op (hslot.symm.trans hop)]
  exact ⟨hstore, htm⟩

end

end Sys2Proof.Machine

/-! PROOFS. The counts of timed work (R103, R104, R139, R145, R150, R152, R157). -/

namespace Sys2Proof.Machine

/-! ## What stands at the end of a sample event -/

section
variable {inp : SampleInput} {s : State} {e : Ev}

theorem warmupEnd_slot (e : Ev) : (warmupEnd e).st.cap.slot = e.st.cap.slot ∨
    (warmupEnd e).st.cap.slot = e.st.cap.slot.clearCalWindow := by
  unfold warmupEnd
  split_ifs
  · exact .inr rfl
  · exact .inl rfl

/-- A slot that holds no calibration window stands. -/
theorem afterSample_slot_of (h : sampled inp s = warmupEnd e) (hslot : e.st.cap.slot.clearCalWindow = e.st.cap.slot) :
    (afterSample inp s).cap.slot = e.st.cap.slot := by
  rw [afterSample_slot, h]
  obtain hend | hend := warmupEnd_slot e
  · exact hend
  · exact hend.trans hslot

/-- Behind the sessions a sample event sends at most the SCALE_STATE of a warm-up that ends. -/
theorem afterSample_told (h : sampled inp s = warmupEnd e) {ns : List Notice} (hnotes : e.notes = ns) :
    s.raisedFirst ns (· = .scaleState .run .warmup) (afterSample inp s) := by
  have hend := warmupEnd_notes e
  rw [← h, hnotes] at hend
  refine raisedFirst_of_notes ⟨_, hend, fun n hn => ?_⟩
  split_ifs at hn
  · exact List.mem_singleton.mp hn
  · cases hn

/-- What stands of the record store and the tables when the work before the warm-up has left the record store. -/
theorem afterSample_kept (h : sampled inp s = warmupEnd e) (hstore : e.st.store = s.store)
    (htm : e.st.tm.storeFault = s.tm.storeFault) :
    (afterSample inp s).store = s.store ∧ (afterSample inp s).site = s.site ∧ (afterSample inp s).cal = s.cal ∧
      (afterSample inp s).tm.storeFault = s.tm.storeFault := by
  refine ⟨?_, afterSample_site, afterSample_cal, ?_⟩
  · rw [afterSample_store, h]
    simp [hstore]
  · rw [afterSample_tm, h]
    simp [htm]

theorem afterSample_tm_of (h : sampled inp s = warmupEnd e) : (afterSample inp s).tm = e.st.tm := by
  rw [afterSample_tm, h]
  simp

theorem afterSample_metro_of (h : sampled inp s = warmupEnd e) : (afterSample inp s).metro = e.st.metro := by
  rw [afterSample_metro, h]
  simp

theorem finds_of_sampled (h : sampled inp s = warmupEnd e) {m : Mark} (hm : m ∈ e.marks) : finds m inp s = true :=
  List.contains_iff_mem.mpr (by
    rw [show (sampleEvent inp (Ev.start s)).marks = (warmupEnd e).marks from congrArg Ev.marks h]
    exact warmupEnd_marks e hm)

/-- A row that names a count does what the sample event does that marks it (log 4). -/
theorem sampleWhen_of_sampled (hsupply : s.mainSupply = true) (h : sampled inp s = warmupEnd e) {m : Mark}
    (hm : m ∈ e.marks) : sampleWhen m inp s = .next (afterSample inp s) :=
  sampleWhen_of_mark hsupply (finds_of_sampled h hm)

end

/-! ## An operation (R103, R104) -/

section
variable {inp : SampleInput} {s : State} {op : Operation} {ok : Bool} {r : SampleResult} {e : Ev}

theorem tryCapture_of_unstable (h : op.state ≠ .settling ∨ e.st.zm.decisions.forProfile op.profile = false) :
    tryCapture ok op e = none := if_pos h

/-- The event in which an operation has failed by its timeout. -/
def timedOut (op : Operation) (e : Ev) : Ev := (failOp op .unstableTimeout e).mark .unstableTimeout

theorem serveOperation_of_limit (hslot : e.st.cap.slot = .capture op) (hup : r.isDeckDown = false)
    (h : op.state ≠ .settling ∨ e.st.zm.decisions.forProfile op.profile = false)
    (hlimit : op.timeoutLimit ≤ op.timeoutCount + 1) : serveOperation ok r e = timedOut op e :=
  (serveOperation_of_waiting hslot hup (tryCapture_of_unstable h)).trans (if_pos hlimit)

theorem serveOperation_of_more (hslot : e.st.cap.slot = .capture op) (hup : r.isDeckDown = false)
    (h : op.state ≠ .settling ∨ e.st.zm.decisions.forProfile op.profile = false)
    (hmore : op.timeoutCount + 1 < op.timeoutLimit) : serveOperation ok r e =
      e.upd (setSlot (.capture { op with timeoutCount := op.timeoutCount + 1 })) :=
  (serveOperation_of_waiting hslot hup (tryCapture_of_unstable h)).trans (if_neg (Nat.not_le.mpr hmore))

theorem mappedAt_decisions : (mappedAt inp s).st.zm.decisions = (zeroedAt inp s).st.zm.decisions := by
  simp [mappedAt]

end

/-! ## A calibration capture, and an adjustment session (R139, R145) -/

section
variable {inp : SampleInput} {s : State} {sess : AdjustSession}

/-- An adjustment session behind the axle map unit is the one that stood, its calibration window cleared at most. -/
theorem mappedAt_adjustment (h : s.cap.slot = .adjustment sess) : ∃ x : Option Calibration,
    (mappedAt inp s).st.cap.slot = .adjustment { sess with calibration := x } := by
  rw [mappedAt_slot fun op hop => by rw [h] at hop; cases hop]
  obtain hslot | hslot := zeroedAt_slot (inp := inp) (s := s)
  · exact ⟨sess.calibration, hslot.trans h⟩
  · exact ⟨_, hslot.trans (congrArg Slot.clearCalWindow h)⟩

/-- A result that is no VALUE clears a calibration window (R45, R139). -/
theorem mappedAt_cleared (h : s.cap.slot = .adjustment sess) {cal : Calibration} (hcal : sess.calibration = some cal)
    (hvalue : (resultAt inp s).isValue = false) : (mappedAt inp s).st.cap.slot =
      .adjustment { sess with calibration := some { cal with window := [] } } := by
  have hclear : ∀ r : SampleResult, r.isValue = false → ∀ u : State,
      (takeResult r u).cap.slot = u.cap.slot.clearCalWindow := fun r hr u => by
    cases r with
    | value decks t gross zone => cases hr
    | scaleNotRunning => rfl
    | uncalibrated => rfl
    | deckDown d => rfl
  have hcleared : s.cap.slot.clearCalWindow =
      .adjustment { sess with calibration := some { cal with window := [] } } := by
    rw [h]
    simp [Slot.clearCalWindow, hcal]
  rw [mappedAt_slot (fun op hop => by rw [h] at hop; cases hop), zeroedAt, serveZero_of_other hvalue, takenAt,
    Ev.upd_st, hclear _ hvalue]
  obtain hslot | hslot := acquire_slot inp (Ev.start s)
  · rw [acquiredAt, hslot]
    exact hcleared
  · rw [acquiredAt, hslot, Slot.clearCalWindow_idem]
    exact hcleared

theorem mappedAt_session_store (h : ∀ op, s.cap.slot ≠ .capture op) :
    (mappedAt inp s).st.store = s.store ∧ (mappedAt inp s).st.tm = s.tm := by
  refine mappedAt_store fun op hop => ?_
  obtain hslot | hslot := zeroedAt_slot (inp := inp) (s := s)
  · exact h op (hslot.symm.trans hop)
  · cases hs : s.cap.slot with
    | capture op' => exact h op' hs
    | free => rw [hslot, hs] at hop; cases hop
    | audit x => rw [hslot, hs] at hop; cases hop
    | adjustment x => rw [hslot, hs] at hop; cases hop

/-- An empty window is not stable. -/
theorem Calibration.stable_of_empty {cal : Calibration} {c : MetroConfig} (hwindow : cal.window = [])
    (hc : 1 ≤ c.window) (t : Nat) : ¬cal.stable c t = true := by
  simp only [Calibration.stable, hwindow, stableUnder, List.map_nil, List.length_nil, decide_eq_true_eq]
  omega

/-- A calibration capture at a sample event: the session it leaves, with its idle count, and the notice of its end. -/
def CalibrationLeft (sess : AdjustSession) (e e1 : Ev) : Prop :=
  ∃ (y : AdjustSession) (ended : List Notice), e1.st.cap.slot = .adjustment y ∧ y.idle = sess.idle ∧
    e1.notes = e.notes ++ ended ∧ ended.length ≤ 1 ∧ ∀ n ∈ ended, ∃ k deck o, n = .calibrationResult k deck o

theorem calibrationLeft_of_ended {cal : Calibration} {e : Ev} (c : MetroConfig) (o : CalOutcome) :
    CalibrationLeft sess e (calibrationEnded sess cal c o e) :=
  ⟨{ sess with staged := c, calibration := none }, [.calibrationResult cal.kind cal.deck o], rfl, rfl, rfl,
    Nat.le_refl 1, fun _ hn => ⟨_, _, _, List.mem_singleton.mp hn⟩⟩

theorem calibrationLeft_of_going {e : Ev} (x : Option Calibration) :
    CalibrationLeft sess e (e.upd (setSession { sess with calibration := x })) :=
  ⟨{ sess with calibration := x }, [], rfl, rfl, (List.append_nil _).symm, Nat.zero_le 1,
    fun _ hn => absurd hn List.not_mem_nil⟩

theorem serveCalibration_left {r : SampleResult} {value : Chan → Int} {t : Nat} {e : Ev}
    (h : e.st.cap.slot = .adjustment sess) : CalibrationLeft sess e (serveCalibration r value t e) := by
  cases hflight : sess.calibration with
  | none =>
    rw [serveCalibration_of_idle h hflight]
    exact ⟨sess, [], h, rfl, (List.append_nil _).symm, Nat.zero_le 1,
    fun _ hn => absurd hn List.not_mem_nil⟩
  | some cal0 =>
    rw [serveCalibration_of_flight h hflight rfl]
    split_ifs
    · exact calibrationLeft_of_ended _ _
    · exact calibrationLeft_of_ended _ _
    · exact calibrationLeft_of_ended _ _
    · exact calibrationLeft_of_going _

/-- A step at a sample event: the session it leaves, with its idle count and number, and the notice of its end. -/
def StepLeft (x : AuditSession) (e e1 : Ev) : Prop :=
  ∃ (y : AuditSession) (ended : List Notice), e1.st.cap.slot = .audit y ∧ y.idle = x.idle ∧ y.number = x.number ∧
    e1.notes = e.notes ++ ended ∧ ended.length ≤ 1 ∧
    ∀ n ∈ ended, (∃ y, n = .auditStepDone y) ∨ ∃ k target load, n = .stepFailedUnstable k target load

theorem stepLeft_of_done {x : AuditSession} {e : Ev} (y : StepRecord) (steps : List StepRecord) :
    StepLeft x e ((e.upd (setAudit { x with steps := steps, flight := none })).note (.auditStepDone y)) :=
  ⟨{ x with steps := steps, flight := none }, [.auditStepDone y], rfl, rfl, rfl, rfl, Nat.le_refl 1,
    fun _ hn => .inl ⟨_, List.mem_singleton.mp hn⟩⟩

theorem stepLeft_of_failed {x : AuditSession} {e : Ev} (k : StepKind) (target : StepTarget) (load : Nat) :
    StepLeft x e ((e.upd (setAudit { x with flight := none })).note (.stepFailedUnstable k target load)) :=
  ⟨{ x with flight := none }, [.stepFailedUnstable k target load], rfl, rfl, rfl, rfl, Nat.le_refl 1,
    fun _ hn => .inr ⟨_, _, _, List.mem_singleton.mp hn⟩⟩

theorem stepLeft_of_going {x : AuditSession} {e : Ev} (y : Option StepFlight) :
    StepLeft x e (e.upd (setAudit { x with flight := y })) :=
  ⟨{ x with flight := y }, [], rfl, rfl, rfl, (List.append_nil _).symm, Nat.zero_le 1,
    fun _ hn => absurd hn List.not_mem_nil⟩

theorem serveStep_left {x : AuditSession} {e : Ev} (h : e.st.cap.slot = .audit x) : StepLeft x e (serveStep e) := by
  cases hflight : x.flight with
  | none =>
    rw [serveStep_of_idle h hflight]
    exact ⟨x, [], h, rfl, rfl, (List.append_nil _).symm, Nat.zero_le 1,
    fun _ hn => absurd hn List.not_mem_nil⟩
  | some f =>
    rw [serveStep_of_flight h hflight]
    split_ifs
    · exact stepLeft_of_done _ _
    · exact stepLeft_of_failed _ _ _
    · exact stepLeft_of_going _

end

/-! ## The sessions served (R139, R145, R150, R152) -/

/-- The event at which the calibration capture has been served. -/
def calibrated (inp : SampleInput) (s : State) : Ev :=
  serveCalibration (resultAt inp s) (acquire inp (Ev.start s)).value.get (acquiredAt inp s).st.zm.clock (mappedAt inp s)

section
variable {inp : SampleInput} {s : State} {sess : AdjustSession} {x : AuditSession}

theorem calibrated_keeps (h : s.cap.slot = .adjustment sess) : (calibrated inp s).st.store = s.store ∧
    (calibrated inp s).st.tm = s.tm ∧ (calibrated inp s).st.metro = s.metro ∧ (calibrated inp s).st.cal = s.cal := by
  obtain ⟨hstore, htm⟩ := mappedAt_session_store (inp := inp) (s := s) fun op hop => by rw [h] at hop; cases hop
  obtain ⟨-, hcal, -, hmetro, -⟩ := mappedAt_keeps (inp := inp) (s := s)
  simp [calibrated, hstore, htm, hmetro, hcal]

theorem stepped_keeps (h : s.cap.slot = .audit x) : (serveStep (mappedAt inp s)).st.store = s.store ∧
    (serveStep (mappedAt inp s)).st.tm = s.tm ∧ (serveStep (mappedAt inp s)).st.metro = s.metro := by
  obtain ⟨hstore, htm⟩ := mappedAt_session_store (inp := inp) (s := s) fun op hop => by rw [h] at hop; cases hop
  obtain ⟨-, -, -, hmetro, -⟩ := mappedAt_keeps (inp := inp) (s := s)
  simp [hstore, htm, hmetro]

theorem sampled_of_calibrated (h : s.cap.slot = .adjustment sess) :
    sampled inp s = warmupEnd (serveAdjustIdle (calibrated inp s)) := by
  obtain ⟨y, hy⟩ := mappedAt_adjustment (inp := inp) h
  exact sampled_of_adjustment hy

theorem sampled_of_stepped (h : s.cap.slot = .audit x) :
    sampled inp s = warmupEnd (serveAuditIdle (serveStep (mappedAt inp s))) := sampled_of_audit (mappedAt_audit h)

/-- A sample event below the idle limit leaves the metrology unit and the record store of an adjustment session. -/
theorem adjustment_below (h : s.cap.slot = .adjustment sess) {y : AdjustSession}
    (hy : (calibrated inp s).st.cap.slot = .adjustment y) (hidle : y.idle + 1 < 90000) :
    sampled inp s = warmupEnd ((calibrated inp s).upd (setSession { y with idle := y.idle + 1 })) ∧
      (afterSample inp s).tm = s.tm ∧ (afterSample inp s).metro = s.metro := by
  have hsampled := (sampled_of_calibrated (inp := inp) h).trans (congrArg warmupEnd (serveAdjustIdle_of_below hy hidle))
  obtain ⟨-, htm, hmetro, -⟩ := calibrated_keeps (inp := inp) h
  exact ⟨hsampled, (afterSample_tm_of hsampled).trans htm, (afterSample_metro_of hsampled).trans hmetro⟩

/-- A sample event below the idle limit leaves the metrology unit and the record store of an audit session. -/
theorem audit_below (h : s.cap.slot = .audit x) {y : AuditSession}
    (hy : (serveStep (mappedAt inp s)).st.cap.slot = .audit y) (hidle : y.idle + 1 < 90000) :
    sampled inp s = warmupEnd ((serveStep (mappedAt inp s)).upd (setAudit { y with idle := y.idle + 1 })) :=
  (sampled_of_stepped h).trans (congrArg warmupEnd (serveAuditIdle_of_below hy hidle))

theorem adjustment_kept (h : s.cap.slot = .adjustment sess) :
    ((afterSample inp s).store = s.store ∧ (afterSample inp s).site = s.site ∧ (afterSample inp s).cal = s.cal ∧
      (afterSample inp s).tm.storeFault = s.tm.storeFault) ∧ (afterSample inp s).tm = s.tm := by
  obtain ⟨hstore, htm, -⟩ := calibrated_keeps (inp := inp) h
  have hsampled := sampled_of_calibrated (inp := inp) h
  have htm' : (afterSample inp s).tm = s.tm := by
    rw [afterSample_tm_of hsampled]
    simp [htm]
  exact ⟨afterSample_kept hsampled (by simp [hstore]) (by simp [htm]), htm'⟩

theorem audit_kept (h : s.cap.slot = .audit x) :
    ((afterSample inp s).store = s.store ∧ (afterSample inp s).site = s.site ∧ (afterSample inp s).cal = s.cal ∧
      (afterSample inp s).tm.storeFault = s.tm.storeFault) ∧ (afterSample inp s).tm = s.tm ∧
      (afterSample inp s).metro = s.metro := by
  obtain ⟨hstore, htm⟩ := mappedAt_session_store (inp := inp) (s := s) fun op hop => by rw [h] at hop; cases hop
  obtain ⟨-, -, -, hmetro, -⟩ := mappedAt_keeps (inp := inp) (s := s)
  have hsampled := sampled_of_stepped (inp := inp) h
  refine ⟨afterSample_kept hsampled (by simp [hstore]) (by simp [htm]), ?_, ?_⟩
  · rw [afterSample_tm_of hsampled]
    simp [htm]
  · rw [afterSample_metro_of hsampled]
    simp [hmetro]

end

section
variable (inp : SampleInput) (s : State)

theorem exec_unstableTimeout : exec (.unstableTimeout inp) s = sampleWhen .unstableTimeout inp s := rfl

theorem exec_calUnstable : exec (.calUnstable inp) s = sampleWhen .calUnstable inp s := rfl

theorem exec_stepFailedUnstable : exec (.stepFailedUnstable inp) s = sampleWhen .stepFailed inp s := rfl

theorem exec_adjustIdleAbort : exec (.adjustIdleAbort inp) s = sampleWhen .adjustIdle inp s := rfl

theorem exec_auditIdleAbandon : exec (.auditIdleAbandon inp) s = sampleWhen .auditIdle inp s := rfl

end

/-- Settles O57: each count by the branch of its unit that is taken, and what the units before it leave. -/
theorem timedWorkRows : Obligations.TimedWorkRows := by
  intro inp s hsupply a r decided before u told kept
  have hrun : exec (.sampleEvent inp) s = .next (afterSample inp s) := exec_sampleEvent hsupply
  obtain ⟨-, -, -, hmetro, hacq⟩ := mappedAt_keeps (inp := inp) (s := s)
  refine ⟨fun op hslot hrow => ?timeout, fun op hslot hmode hup hunstable hmore => ?counted,
    fun op hslot hup hunstable hmore => ?held, fun sess cal hslot hcal hvalue hwindow hfit hidle => ?calibration,
    fun x f hslot hflight hunstable hidle => ?step, fun sess hslot => ?adjustment, fun x hslot => ?audit⟩
  case timeout =>
    have hserve : ∃ x, GoesOn op s (mappedAt inp s).st ∧ serveOperation inp.storeOk (resultAt inp s) (mappedAt inp s) =
        timedOut { op with state := x } (mappedAt inp s) := by
      obtain ⟨hmode, hup, hunstable, hlimit⟩ | hfinds := hrow
      · have hgoes := mappedAt_whole (inp := inp) hslot hmode
        obtain ⟨x, hx, -, -⟩ := id hgoes
        refine ⟨x, hgoes, serveOperation_of_limit hx hup (Or.inr ?_) hlimit.le⟩
        rw [mappedAt_decisions]
        exact hunstable
      · obtain ⟨op', hop', hserve⟩ := serveOperation_of_timeout mappedAt_timeout (sampled_timeout hfinds)
        obtain hfree | hgoes := mappedAt_course (inp := inp) hslot
        · rw [hfree] at hop'
          cases hop'
        · obtain ⟨x, hx, -, -⟩ := id hgoes
          rw [hx] at hop'
          cases hop'
          exact ⟨x, hgoes, hserve⟩
    obtain ⟨x, ⟨y, -, hstore, htm⟩, hserve⟩ := hserve
    have hfault : (mappedAt inp s).st.tm.storeFault = s.tm.storeFault := by rw [htm]
    have hsampled := sampled_of_served hserve (Or.inl rfl)
    refine ⟨afterSample inp s, ?_, hrun, afterSample_slot_of hsampled rfl, ?_,
      afterSample_kept hsampled hstore hfault, ?_, afterSample_told hsampled rfl⟩
    · exact (exec_unstableTimeout inp s).trans (sampleWhen_of_sampled hsupply hsampled List.mem_cons_self)
    · rw [afterSample_tm_of hsampled]
      rfl
    · rw [afterSample_metro_of hsampled]
      exact hmetro
  case counted =>
    obtain ⟨x, hx, hstore, htm⟩ := mappedAt_whole (inp := inp) hslot hmode
    have hfault : (mappedAt inp s).st.tm.storeFault = s.tm.storeFault := by rw [htm]
    have hserve := serveOperation_of_more (ok := inp.storeOk) (r := resultAt inp s) hx hup
      (Or.inr (by rw [mappedAt_decisions]; exact hunstable)) hmore
    have hsampled := sampled_of_served hserve (Or.inr ⟨_, rfl⟩)
    refine ⟨afterSample inp s, x, hrun, afterSample_told hsampled (List.append_nil _).symm,
      afterSample_kept hsampled hstore hfault, ?_, afterSample_slot_of hsampled rfl⟩
    rw [afterSample_tm_of hsampled]
    exact htm
  case held =>
    have hserve := serveOperation_of_more (ok := inp.storeOk) (r := resultAt inp s) hslot hup hunstable hmore
    have hsampled := sampled_of_served hserve (Or.inr ⟨_, rfl⟩)
    exact ⟨afterSample inp s, hrun, afterSample_told hsampled (List.append_nil _).symm,
      afterSample_slot_of hsampled rfl⟩
  case calibration =>
    intro holds
    have hmapped := mappedAt_cleared (inp := inp) hslot hcal hvalue
    obtain ⟨hkept, htm⟩ := adjustment_kept (inp := inp) hslot
    have hserve := serveCalibration_of_flight (r := resultAt inp s) (t := (acquiredAt inp s).st.zm.clock)
      (value := (acquire inp (Ev.start s)).value.get) (cal := { cal with window := [] }) hmapped rfl
      (by rw [show (resultAt inp s).isValue = false from hvalue]; rfl)
    have hhealthy : deckHealthy (mappedAt inp s).st sess.staged cal.deck = true := by
      rw [deckHealthy, hacq]
      exact hfit
    rw [if_neg (Calibration.stable_of_empty rfl hwindow _), if_neg (ne_false_of_eq_true hhealthy)] at hserve
    refine ⟨afterSample inp s, hrun, fun hmore => ?_, fun hlimit => ?_⟩
    · have hgoing : calibrated inp s = (mappedAt inp s).upd (setSession
          { sess with calibration := some { cal with window := [], count := cal.count + 1 } }) :=
        hserve.trans (if_neg (Nat.not_le.mpr hmore))
      obtain ⟨hsampled, -, hmetro'⟩ := adjustment_below (inp := inp) hslot
        (y := { sess with calibration := some { cal with window := [], count := cal.count + 1 } })
        (by rw [hgoing]; rfl) hidle
      rw [hgoing] at hsampled
      exact ⟨⟨afterSample_slot_of hsampled rfl, hkept, htm, hmetro'⟩,
        afterSample_told hsampled (List.append_nil _).symm⟩
    · have hended : calibrated inp s = (calibrationEnded { sess with calibration := some { cal with window := [] } }
          { cal with window := [] } sess.staged .calUnstable (mappedAt inp s)).mark .calUnstable :=
        hserve.trans (if_pos hlimit.le)
      obtain ⟨hsampled, -, hmetro'⟩ := adjustment_below (inp := inp) hslot
        (y := { sess with calibration := none }) (by rw [hended]; rfl) hidle
      rw [hended] at hsampled
      exact ⟨(exec_calUnstable inp s).trans (sampleWhen_of_sampled hsupply hsampled List.mem_cons_self),
        ⟨afterSample_slot_of hsampled rfl, hkept, htm, hmetro'⟩, afterSample_told hsampled rfl⟩
  case step =>
    intro holds
    obtain ⟨hkept, htm, hmetro'⟩ := audit_kept (inp := inp) hslot
    have hserve := serveStep_of_flight (mappedAt_audit (inp := inp) hslot) hflight
    rw [if_neg (by rw [mappedAt_decisions]; exact ne_true_of_eq_false hunstable)] at hserve
    refine ⟨afterSample inp s, hrun, fun hmore => ?_, fun hlimit => ?_⟩
    · have hgoing := hserve.trans (if_neg (Nat.not_le.mpr hmore))
      have hsampled := audit_below (inp := inp) hslot
        (y := { x with flight := some { f with count := f.count + 1 } }) (by rw [hgoing]; rfl) hidle
      rw [hgoing] at hsampled
      exact ⟨⟨afterSample_slot_of hsampled rfl, hkept, htm, hmetro'⟩,
        afterSample_told hsampled (List.append_nil _).symm⟩
    · have hended := hserve.trans (if_pos hlimit.le)
      have hsampled := audit_below (inp := inp) hslot (y := { x with flight := none })
        (by rw [hended]; rfl) hidle
      rw [hended] at hsampled
      exact ⟨(exec_stepFailedUnstable inp s).trans (sampleWhen_of_sampled hsupply hsampled List.mem_cons_self),
        ⟨afterSample_slot_of hsampled rfl, hkept, htm, hmetro'⟩, afterSample_told hsampled rfl⟩
  case adjustment =>
    obtain ⟨hkept, htm⟩ := adjustment_kept (inp := inp) hslot
    obtain ⟨x, hx⟩ := mappedAt_adjustment (inp := inp) hslot
    obtain ⟨y, ended, hy, hyidle, hnotes, hlength, hended⟩ : CalibrationLeft _ _ (calibrated inp s) :=
      serveCalibration_left hx
    refine ⟨afterSample inp s, hrun, hkept, htm, fun hidle => ?_, fun hidle => ?_⟩
    · obtain ⟨hsampled, -, hmetro'⟩ := adjustment_below (inp := inp) hslot hy (by rw [hyidle]; exact hidle)
      refine ⟨hmetro', ?_⟩
      rw [afterSample_slot, hsampled]
      obtain hend | hend := warmupEnd_slot ((calibrated inp s).upd (setSession { y with idle := y.idle + 1 }))
      · exact ⟨_, hend, congrArg (· + 1) hyidle⟩
      · exact ⟨_, hend, congrArg (· + 1) hyidle⟩
    · have hreached : 90000 ≤ y.idle + 1 := by
        rw [hyidle]
        exact hidle.ge
      obtain ⟨hstore, -, hmetro', hcal⟩ := calibrated_keeps (inp := inp) hslot
      have hsampled := (sampled_of_calibrated (inp := inp) hslot).trans
        (congrArg warmupEnd (serveAdjustIdle_of_reached hy hreached))
      have hmetro'' : (afterSample inp s).metro =
          { s.metro with status := statusReasons s.metro.valid false s.store s.cal.value } := by
        rw [afterSample_metro_of hsampled, Ev.mark_st, abortAdjustment_st, hstore, hmetro', hcal]
        rfl
      refine ⟨(exec_adjustIdleAbort inp s).trans (sampleWhen_of_sampled hsupply hsampled List.mem_cons_self),
        afterSample_slot_of hsampled (by rw [Ev.mark_st, abortAdjustment_st]; rfl) |>.trans ?_, hmetro'', ended,
        hlength, hended, afterSample_told hsampled ?_⟩
      · rw [Ev.mark_st, abortAdjustment_st]
        rfl
      · rw [Ev.mark_notes, abortAdjustment_notes, hnotes, hstore, hmetro', hcal, hmetro'']
        simp only [List.append_assoc]
        rfl
  case audit =>
    obtain ⟨hkept, htm, hmetro'⟩ := audit_kept (inp := inp) hslot
    obtain ⟨y, ended, hy, hyidle, hnumber, hnotes, hlength, hended⟩ :=
      serveStep_left (mappedAt_audit (inp := inp) hslot)
    refine ⟨afterSample inp s, hrun, hkept, htm, hmetro', fun hidle => ?_, fun hidle => ?_⟩
    · have hsampled := audit_below (inp := inp) hslot hy (by rw [hyidle]; exact hidle)
      exact ⟨_, afterSample_slot_of hsampled rfl, congrArg (· + 1) hyidle, hnumber⟩
    · have hreached : 90000 ≤ y.idle + 1 := by
        rw [hyidle]
        exact hidle.ge
      have hsampled := (sampled_of_stepped (inp := inp) hslot).trans
        (congrArg warmupEnd (serveAuditIdle_of_reached hy hreached))
      refine ⟨(exec_auditIdleAbandon inp s).trans (sampleWhen_of_sampled hsupply hsampled List.mem_cons_self),
        afterSample_slot_of hsampled rfl, ended, hlength, hended, afterSample_told hsampled ?_⟩
      exact (congrArg (· ++ [Notice.auditAbandoned .idle]) hnotes).trans (List.append_assoc _ _ _)

end Sys2Proof.Machine

/-! PROOFS. A second carry: the value, the hour event and the day event (R119, R124, R160 to R163, R166). -/

namespace Sys2Proof.Machine

/-! ## The value carried on (R160, R163) -/

section
variable {t v : DateTime}

theorem DateTime.carry_value (t : DateTime) : t.carry.value =
    if t.second < 59 then some { t with second := t.second + 1 }
    else if t.minute < 59 then some { t with minute := t.minute + 1, second := 0 }
    else if t.hour < 23 then some { t with hour := t.hour + 1, minute := 0, second := 0 }
    else if 2199 < t.date.next.year then none
    else some { date := t.date.next, hour := 0, minute := 0, second := 0 } := by
  unfold DateTime.carry
  dsimp only
  split_ifs <;> rfl

/-- A carry inside an hour hands no event. -/
theorem DateTime.carry_within_hour (h : t.second < 59 ∨ t.minute < 59) :
    (∃ v, t.carry.value = some v) ∧ t.carry.hourEvent = false ∧ t.carry.dayEvent = false := by
  unfold DateTime.carry
  dsimp only
  split_ifs
  · exact ⟨⟨_, rfl⟩, rfl, rfl⟩
  · exact ⟨⟨_, rfl⟩, rfl, rfl⟩
  · omega
  · omega
  · omega

/-- A carry from the last second of an hour hands the hour event, and the day event at midnight. -/
theorem DateTime.carry_events (hsecond : 59 ≤ t.second) (hminute : 59 ≤ t.minute) (hv : t.carry.value = some v) :
    t.carry.hourEvent = true ∧ t.carry.dayEvent = decide (23 ≤ t.hour) := by
  unfold DateTime.carry at hv ⊢
  rw [if_neg (Nat.not_lt.mpr hsecond), if_neg (Nat.not_lt.mpr hminute)] at hv ⊢
  dsimp only at hv ⊢
  split_ifs at hv ⊢ with hhour
  · exact ⟨rfl, (decide_eq_false (Nat.not_le.mpr hhour)).symm⟩
  · exact ⟨rfl, (decide_eq_true (Nat.not_lt.mp hhour)).symm⟩

end

/-! ## The entries that go stale (R119) -/

/-- The age of a stamp in whole hours reaches the limit. -/
theorem agedHours_iff {stamp now : DateTime} {limit : Nat} : agedHours stamp now limit = true ↔
    0 ≤ (now.seconds : Int) - stamp.seconds ∧ 3600 * (limit : Int) ≤ (now.seconds : Int) - stamp.seconds := by
  rw [agedHours, decide_eq_true_iff, Nat.le_div_iff_mul_le (by decide)]
  omega

theorem goesStale_iff {now : DateTime} {limit : Nat} {x : OpenEntry} : goesStale now limit x = true ↔
    x.stale = false ∧ ∃ w, x.first.stamp = some w ∧ agedHours w now limit = true := by
  unfold goesStale
  split
  next h => simp [h]
  next w h => simp [h]

/-- The entries with those of the given numbers marked STALE. -/
def markedStale (marked entries : List OpenEntry) : List OpenEntry :=
  entries.map fun x => if ∃ y ∈ marked, y.number = x.number then { x with stale := true } else x

theorem markedStale_nil (entries : List OpenEntry) : markedStale [] entries = entries := by
  simp [markedStale]

theorem markStale_eq (x : OpenEntry) (st : Store) :
    markStale x.number st = { st with entries := markedStale [x] st.entries } := by
  simp [markStale, markedStale, eq_comm]

theorem markedStale_cons (x : OpenEntry) (marked entries : List OpenEntry) :
    markedStale marked (markedStale [x] entries) = markedStale (x :: marked) entries := by
  unfold markedStale
  rw [List.map_map]
  refine List.map_congr_left fun y _ => ?_
  by_cases hx : x.number = y.number <;> by_cases hm : ∃ z ∈ marked, z.number = y.number <;> simp [hx, hm]

/-- The notice of each Stale write that verifies. -/
def staleNotes (marked : List OpenEntry) : List Notice :=
  marked.map fun x => .transactionStale x.number x.vehicle

/-- The event after Stale writes that verify. -/
def staled (marked : List OpenEntry) (e : Ev) : Ev :=
  (e.upd fun s => s.setStore { s.store with entries := markedStale marked s.store.entries }).noteAll (staleNotes marked)

section
variable {oks : List Bool} {e : Ev}

theorem staled_cons (x : OpenEntry) (marked : List OpenEntry) :
    staled marked ((storeWrite true .stale (fun s => s.setStore (markStale x.number s.store)) e).note
      (.transactionStale x.number x.vehicle)) = staled (x :: marked) e := by
  simp only [staled, storeWrite_true, markStale_eq, Ev.noteAll, Ev.note, Ev.upd, State.setStore, markedStale_cons,
    List.append_assoc]
  rfl

/-- The Stale writes before the first that fails leave their entries marked. -/
theorem staleWrites_append {pre rest : List OpenEntry} (h : ∀ b ∈ oks.take pre.length, b = true) :
    staleWrites (pre ++ rest) oks e = staleWrites rest (oks.drop pre.length) (staled pre e) := by
  induction pre generalizing oks e with
  | nil =>
    have hnone : staled [] e = e := by
      simp only [staled, markedStale_nil, staleNotes, Ev.noteAll, Ev.upd, List.map_nil, List.append_nil]
      rfl
    rw [hnone]
    rfl
  | cons x pre ih =>
    have hok : oks.headD true = true := by
      cases oks with
      | nil => rfl
      | cons b oks => exact h b (by simp)
    have htail : ∀ b ∈ oks.tail.take pre.length, b = true := by
      cases oks with
      | nil => simp
      | cons b oks => exact fun c hc => h c (by simp at hc ⊢; exact .inr hc)
    rw [List.cons_append, staleWrites, if_pos hok, ih htail, staled_cons]
    cases oks <;> simp

theorem staleWrites_of_verified {order : List OpenEntry} (h : ∀ b ∈ oks.take order.length, b = true) :
    staleWrites order oks e = staled order e := by
  have happend := staleWrites_append (e := e) (rest := []) h
  rw [List.append_nil] at happend
  exact happend

theorem staleWrites_of_failed {pre post : List OpenEntry} {x : OpenEntry} (h : ∀ b ∈ oks.take pre.length, b = true)
    (hfail : oks[pre.length]? = some false) :
    staleWrites (pre ++ x :: post) oks e = latchStoreFault .stale (staled pre e) := by
  have hhead : (oks.drop pre.length).headD true = false := by
    rw [List.headD_eq_head?_getD, List.head?_drop, hfail]
    rfl
  rw [staleWrites_append h, staleWrites, if_neg (ne_true_of_eq_false hhead), storeWrite_false]

end

/-! ## The events of a carry -/

section
variable {oks : List Bool} {s : State} {t v : DateTime} {e : Ev}

/-- A second carry changes no input of the entry lamp, so that its notices are its own. -/
theorem exec_secondCarry (h : s.mainSupply = true) : exec (.secondCarry oks) s =
    .next (notified (secondCarry oks (Ev.start s)).notes (secondCarry oks (Ev.start s)).st) := by
  have hexec : exec (.secondCarry oks) s = event (secondCarry oks) s := if_pos h
  rw [hexec, event_happened h, happened_plain (by simp [State.lampInputs, Ev.start]) (by simp [Ev.start])
    (by simp [Ev.start])]

theorem exec_secondCarry_of_backup (h : s.mainSupply = false) :
    exec (.secondCarry oks) s = .next (backupCarry s) := if_neg (ne_true_of_eq_false h)

theorem secondCarry_of_unset (h : e.st.cal.value = none) : secondCarry oks e = e := by
  simp only [secondCarry, h]

theorem secondCarry_of_none (h : e.st.cal.value = some t) (hv : t.carry.value = none) :
    secondCarry oks e = recomputeStatus ((e.upd (setCalValue none)).note (.calendarState false)) := by
  simp only [secondCarry, h, hv]

theorem secondCarry_of_some (h : e.st.cal.value = some t) (hv : t.carry.value = some v) :
    secondCarry oks e =
      ((e.upd (setCalValue (some v))).when t.carry.hourEvent (hourEvent oks v)).when t.carry.dayEvent (dayEvent v) := by
  simp only [secondCarry, h, hv]

theorem dayEvent_st : (dayEvent v e).st = e.st.setMetro { e.st.metro with
    status := statusReasons e.st.metro.valid e.st.cap.slot.isAdjustment e.st.store e.st.cal.value } :=
  recomputeStatus_st _

theorem dayEvent_notes : (dayEvent v e).notes = e.notes ++
    (statusNote (statusReasons e.st.metro.valid e.st.cap.slot.isAdjustment e.st.store e.st.cal.value)
      e.st.metro.status ++ expiredTares e.st v) := by
  have hexpired : expiredTares (recomputeStatus e).st v = expiredTares e.st v := by
    rw [recomputeStatus_st]
    rfl
  rw [dayEvent, Ev.noteAll_notes, hexpired, recomputeStatus_notes, List.append_assoc]

end

/-- Settles O59: the branch of the carry by the fields of the value, and the Stale writes up to the first that fails. -/
theorem secondCarryRow : Obligations.SecondCarryRow := by
  unfold Obligations.SecondCarryRow
  intro oks s moved next midnight valueAfter status note
  have hvalue : ∀ t : DateTime, t.carry.value = valueAfter t := DateTime.carry_value
  refine ⟨fun hsupply => ⟨fun hunset => ?unset, fun t ht => ⟨fun hwithin => ?within, fun hsecond hminute hend => ?ended,
    fun v hsecond hminute hv => ?hour⟩⟩, fun hsupply => ⟨fun hlost => ?lost, fun t ht hrun => ?backup⟩⟩
  case unset =>
    rw [exec_secondCarry hsupply, secondCarry_of_unset hunset]
    rfl
  case within =>
    obtain ⟨⟨v, hv⟩, hhour, hday⟩ := DateTime.carry_within_hour hwithin
    rw [exec_secondCarry hsupply, secondCarry_of_some ht hv, Ev.when_of_false hday, Ev.when_of_false hhour, ← hvalue,
      hv]
    rfl
  case ended =>
    rw [exec_secondCarry hsupply, secondCarry_of_none ht ((hvalue t).trans hend), recomputeStatus_notes,
      recomputeStatus_st]
    rfl
  case hour =>
    intro clock due expired day ended told
    obtain ⟨hhour, hday⟩ := DateTime.carry_events hsecond hminute ((hvalue t).trans hv)
    set e := (Ev.start s).upd (setCalValue (some v))
    have hcarry : secondCarry oks (Ev.start s) = (hourEvent oks v e).when (decide (midnight t)) (dayEvent v) := by
      rw [secondCarry_of_some ht ((hvalue t).trans hv), hhour, hday]
      rfl
    have hended : ∀ marked fault hour, (hourEvent oks v e).st = (e.st.setStore { s.store with
        entries := markedStale marked s.store.entries }).setTm { s.tm with storeFault := fault } →
        (hourEvent oks v e).notes = hour → ended marked fault hour := by
      intro marked fault hour hst hnotes
      refine (exec_secondCarry hsupply).trans ?_
      rw [hcarry]
      by_cases hmidnight : midnight t
      · rw [Ev.when_of_true (decide_eq_true hmidnight), dayEvent_notes, dayEvent_st, hst, hnotes]
        simp only [day, if_pos hmidnight]
        rfl
      · rw [Ev.when_of_false (decide_eq_false hmidnight), hst, hnotes]
        simp only [day, if_neg hmidnight, List.append_nil]
        rfl
    refine ⟨fun hfault => ?_, fun hclear => ?_⟩
    · have hskipped : hourEvent oks v e = e := if_pos hfault
      refine hended [] true [] ?_ ?_
      · rw [hskipped, markedStale_nil, ← hfault]
        rfl
      · rw [hskipped]
        rfl
    · have hdue : (fun x => decide (due x)) = goesStale v s.site.ticket.staleness := by
        funext x
        rw [Bool.eq_iff_iff, decide_eq_true_iff, goesStale_iff]
        refine and_congr_right fun _ => exists_congr fun w => and_congr_right fun _ => ?_
        rw [agedHours_iff]
        simp only [clock, DateTime.seconds]
        omega
      refine ⟨sortBy (fun a b => decide (a.number ≤ b.number)) (s.store.entries.filter fun x => decide (due x)),
        sortBy_pairwise_key _ _, sortBy_perm _, ?_⟩
      rw [hdue]
      set order := sortBy (fun a b : OpenEntry => decide (a.number ≤ b.number))
        (s.store.entries.filter (goesStale v s.site.ticket.staleness))
      have hwrites : hourEvent oks v e = staleWrites order oks e := if_neg (ne_true_of_eq_false hclear)
      refine ⟨fun hverified => ?_, fun pre x post horder hverified hfail => ?_⟩
      · have hstaled := hwrites.trans (staleWrites_of_verified hverified)
        refine hended order false (told order) ?_ ?_
        · rw [hstaled, ← hclear]
          rfl
        · rw [hstaled]
          rfl
      · rw [horder] at hwrites
        have hstaled := hwrites.trans (staleWrites_of_failed hverified hfail)
        rw [latchStoreFault_of_clear hclear] at hstaled
        refine hended pre true (told pre ++ [.storeFault .stale]) ?_ ?_
        · rw [hstaled]
          rfl
        · rw [hstaled]
          rfl
  case lost =>
    rw [exec_secondCarry_of_backup hsupply, backupCarry]
    obtain hunset | hstop := hlost
    · rw [hunset]
    · split
      · rfl
      · rw [if_pos hstop]
  case backup =>
    rw [exec_secondCarry_of_backup hsupply, backupCarry, ht]
    dsimp only
    rw [if_neg (ne_true_of_eq_false hrun), hvalue]
    rfl

end Sys2Proof.Machine

/-! PROOFS. The commit of an adjustment session (R68, R134, R143, R146). -/

namespace Sys2Proof.Machine

/-! ## A complete configuration (R134) -/

section
variable {c : MetroConfig}

theorem MetroConfig.deckChans_eq (c : MetroConfig) (d : Deck) :
    c.deckChans d = allChans.filter fun i => decide ((c.channels.get i).deck = some d) :=
  List.filter_congr fun i _ => by rw [Bool.eq_iff_iff, beq_iff_eq, decide_eq_true_iff, MetroConfig.assign]

theorem MetroConfig.activeDecks_ne_nil : c.activeDecks ≠ [] ↔ ∃ d, c.active d = true := by
  simp [MetroConfig.activeDecks, mem_allDecks]

theorem MetroConfig.named_active : allDecks.any (fun d => c.deckChans d != [] && !c.active d) = false ↔
    ∀ d, (c.deckChans d).length ≠ 0 → c.active d = true := by
  simp [mem_allDecks]

/-- The decks that a condition takes are the first ones exactly where none that it leaves stands before one. -/
theorem filter_eq_take_iff : ∀ p : Deck → Bool,
    allDecks.filter p = allDecks.take (allDecks.filter p).length ↔ ∀ d k : Deck, p d = true → k < d → p k = true := by
  decide

theorem MetroConfig.activeDecks_eq_take : c.activeDecks = allDecks.take c.deckCount ↔
    ∀ d k : Deck, c.active d = true → k < d → c.active k = true := filter_eq_take_iff c.active

/-- The conditions of a complete configuration, each with what it names, in the order of the checks. -/
theorem MetroConfig.incomplete_eq {anyActive allActive noGap divided : Prop} [Decidable anyActive]
    [Decidable allActive] [Decidable noGap] [Decidable divided]
    (hany : anyActive ↔ ∃ d, c.active d = true)
    (hall : allActive ↔ ∀ d, (c.deckChans d).length ≠ 0 → c.active d = true)
    (hgap : noGap ↔ ∀ d k : Deck, c.active d = true → k < d → c.active k = true)
    (hdivided : divided ↔ c.eKg ≠ 0 ∧ c.maxKg % c.eKg = 0 ∧ 500 ≤ c.maxKg / c.eKg ∧ c.maxKg / c.eKg ≤ 10000) :
    c.incomplete = if ¬anyActive then some .noActiveDeck else if ¬allActive then some .namedDeckNotActive
      else if ¬noGap then some .deckGap else if ¬divided then some .maxDivision else none := by
  unfold MetroConfig.incomplete
  refine if_congr ?_ rfl (if_congr ?_ rfl (if_congr ?_ rfl (if_congr ?_ rfl rfl)))
  · rw [hany, ← MetroConfig.activeDecks_ne_nil, not_not]
  · rw [hall, ← MetroConfig.named_active, Bool.not_eq_false]
  · rw [hgap, ← MetroConfig.activeDecks_eq_take, bne_iff_ne]
  · rw [hdivided]
    omega

end

/-! ## What the blocks do at a commit (R43, R50, R68, R143) -/

/-- The map brought to UNCERTAIN by a commit, its occupancy not yet formed anew. -/
def committedMap (m : AxleMap) : AxleMap :=
  (if m.certain = true then m.lose .configuration else { m with hiddenCount := 0, recoveryCount := 0 }).idlePairings

/-- The occupancy formed anew at a commit. -/
def committedOccupancy (staged : MetroConfig) (s : State) : Occupancy :=
  occupancyOf (committedMap s.axle) s.zm.latest staged.eHg

/-- The zero and motion unit in PENDING, restarted. -/
def committedZero (zm : ZeroMotion) : ZeroMotion :=
  { zm with
    zeroState := .pending, offset := Bank.fill 4 0, initial := Bank.fill 4 0, halt := Bank.fill 4 false
    rangeReported := false, trackCount := 0, window := [], clock := 0, decisions := notStable }

/-- The state after a commit of a staged copy. -/
def committed (staged : MetroConfig) (s : State) : State :=
  { s with
    store := commitStore staged s.cal.value s.store
    metro := { s.metro with
      valid := true, status := statusReasons true false (commitStore staged s.cal.value s.store) s.cal.value }
    zm := committedZero s.zm
    axle := { committedMap s.axle with occupancy := committedOccupancy staged s }
    cap := { s.cap with
      slot := .free
      exitLamp := if committedOccupancy staged s = .empty ∧ s.axle.occupancy ≠ .empty then .red else s.cap.exitLamp } }

/-- The notices of a commit, in their order (R143). -/
def commitNotes (staged : MetroConfig) (s : State) : List Notice :=
  statusNote (committed staged s).metro.status s.metro.status ++
    (if s.zm.zeroState = .set then [.zeroState .pending []] else []) ++
    (if s.axle.certain = true then [.axleInconsistent .configuration none] else []) ++
    occupancyNotes s (committed staged s)

section
variable {e : Ev} {m : AxleMap}

theorem enterZeroPending_st : (enterZeroPending e).st = e.st.setZm { e.st.zm with
    zeroState := .pending, offset := Bank.fill 4 0, initial := Bank.fill 4 0, halt := Bank.fill 4 false
    rangeReported := false, trackCount := 0 } := Ev.when_note_st ..

theorem enterZeroPending_notes : (enterZeroPending e).notes =
    e.notes ++ if e.st.zm.zeroState = .set then [.zeroState .pending []] else [] := by
  unfold enterZeroPending
  cases h : e.st.zm.zeroState <;> simp [Ev.when, Ev.note, Ev.upd]

theorem committedMap_uncertain : (committedMap m).certain = false := by
  unfold committedMap
  split_ifs with h
  · rfl
  · exact Bool.eq_false_of_not_eq_true h

theorem committedMap_counts : (committedMap m).hiddenCount = 0 ∧ (committedMap m).recoveryCount = 0 := by
  unfold committedMap
  split_ifs <;> exact ⟨rfl, rfl⟩

theorem committedMap_idle (i : LineNo) : ((committedMap m).lines.get i).pairing = .idle :=
  congrArg TreadleLine.pairing (Bank.get_map _ _ i)

theorem committedMap_lost (h : m.certain = true) : committedMap m = (m.lose .configuration).idlePairings := by
  rw [committedMap, if_pos h]

/-- With the slot FREE the map forms its occupancy anew at a commit, and nothing else answers (R68). -/
theorem commitMap_of_free (h : e.st.cap.slot = .free) : commitMap e = occupied e.st.axle
    ((e.upd fun s => s.setAxle (committedMap s.axle)).noteAll
      (if e.st.axle.certain = true then [.axleInconsistent .configuration none] else [])) := by
  have hlost : ((if e.st.axle.certain = true then loseCertainty .configuration none e
      else e.upd fun s => s.setAxle { s.axle with hiddenCount := 0, recoveryCount := 0 }).upd
        fun s => s.setAxle s.axle.idlePairings) = (e.upd fun s => s.setAxle (committedMap s.axle)).noteAll
          (if e.st.axle.certain = true then [.axleInconsistent .configuration none] else []) := by
    unfold committedMap loseCertainty
    by_cases hcertain : e.st.axle.certain = true
    · simp only [hcertain, if_true, Ev.upd, Ev.note, Ev.noteAll, State.setAxle]
    · simp only [hcertain, Bool.false_eq_true, if_false, Ev.upd, Ev.noteAll, State.setAxle, List.append_nil]
  refine (congrArg (formOccupancy true e.st.axle false _) hlost).trans ?_
  rw [formOccupancy_eq]
  exact reportToCapture_of_no_capture (fun op hop => by
    rw [(occupied_keeps _).1] at hop
    exact absurd (h.symm.trans hop) nofun) _ _

theorem occupied_st (m0 : AxleMap) : (occupied m0 e).st =
    let occ := occupancyOf e.st.axle e.st.zm.latest e.st.store.config.eHg
    (e.st.setAxle { e.st.axle with occupancy := occ }).setCap
      { e.st.cap with exitLamp := if occ = .empty ∧ m0.occupancy ≠ .empty then .red else e.st.cap.exitLamp } := by
  unfold occupied
  dsimp only
  rw [Ev.when_note_st, Ev.upd_st]
  simp only [Bool.and_eq_true, beq_iff_eq, bne_iff_ne]
  split_ifs <;> rfl

end

/-! ## The checks and the write -/

section
variable {s : State} {e : Ev} {sess : AdjustSession} {ok : Bool}

/-- The event of a commit ahead of its map: the status formed anew and ZERO_PENDING entered with a restart. -/
def beforeCommitMap (staged : MetroConfig) (s : State) : Ev :=
  (enterZeroPending (recomputeStatus ((Ev.start (s.setStore (commitStore staged s.cal.value s.store))).upd fun s =>
    setSlot .free (s.setMetro { s.metro with valid := true })))).upd restart

theorem beforeCommitMap_st (staged : MetroConfig) : (beforeCommitMap staged s).st = { s with
    store := commitStore staged s.cal.value s.store
    metro := { s.metro with
      valid := true, status := statusReasons true false (commitStore staged s.cal.value s.store) s.cal.value }
    zm := committedZero s.zm
    cap := { s.cap with slot := .free } } := by
  simp only [beforeCommitMap, Ev.upd_st, enterZeroPending_st, recomputeStatus_st, Ev.start, restart, setSlot,
    State.setZm, State.setCap, State.setMetro, State.setStore, Slot.clearCalWindow, Slot.isAdjustment, committedZero]

theorem beforeCommitMap_notes (staged : MetroConfig) : (beforeCommitMap staged s).notes =
    statusNote (committed staged s).metro.status s.metro.status ++
      if s.zm.zeroState = .set then [.zeroState .pending []] else [] := by
  rw [beforeCommitMap, Ev.upd_notes, enterZeroPending_notes, recomputeStatus_notes, recomputeStatus_st]
  rfl

theorem afterCommit_eq (staged : MetroConfig) :
    (afterCommit (Ev.start (s.setStore (commitStore staged s.cal.value s.store)))).st = committed staged s ∧
    (afterCommit (Ev.start (s.setStore (commitStore staged s.cal.value s.store)))).notes = commitNotes staged s := by
  have hfree : (beforeCommitMap staged s).st.cap.slot = .free := by rw [beforeCommitMap_st]
  have hcommit : afterCommit (Ev.start (s.setStore (commitStore staged s.cal.value s.store))) =
      commitMap (beforeCommitMap staged s) := rfl
  have haxle : (beforeCommitMap staged s).st.axle = s.axle := by rw [beforeCommitMap_st]
  rw [hcommit, commitMap_of_free hfree, haxle]
  constructor
  · rw [occupied_st, Ev.noteAll_st, Ev.upd_st, beforeCommitMap_st]
    rfl
  · rw [occupied_notes (t := committed staged s), Ev.noteAll_notes, Ev.upd_notes, beforeCommitMap_notes]
    · rfl
    · rw [occupied_st, Ev.noteAll_st, Ev.upd_st, beforeCommitMap_st]
      rfl

theorem commitAdjustment_of_no_session (h : ∀ sess, e.st.cap.slot ≠ .adjustment sess) :
    commitAdjustment ok e = (e, Reply.bare .notInSession) := by
  unfold commitAdjustment
  split
  next sess hslot => exact absurd hslot (h sess)
  all_goals rfl

theorem commitAdjustment_of_calibrating (h : e.st.cap.slot = .adjustment sess) (hcal : sess.calibration ≠ none) :
    commitAdjustment ok e = (e, Reply.bare .busy) := by
  simp only [commitAdjustment, h, if_pos (Option.isSome_iff_ne_none.mpr hcal)]

theorem commitAdjustment_of_fault (h : e.st.cap.slot = .adjustment sess) (hcal : sess.calibration = none)
    (hfault : e.st.tm.storeFault = true) : commitAdjustment ok e = (e, Reply.bare .storeFault) := by
  simp [commitAdjustment, h, hcal, hfault]

theorem commitAdjustment_of_incomplete {c : IncompleteCondition} (h : e.st.cap.slot = .adjustment sess)
    (hcal : sess.calibration = none) (hfault : e.st.tm.storeFault = false) (hc : sess.staged.incomplete = some c) :
    commitAdjustment ok e = (e, { status := .configIncomplete, body := .incomplete c }) := by
  simp [commitAdjustment, h, hcal, hfault, hc]

theorem commitAdjustment_of_complete (h : e.st.cap.slot = .adjustment sess) (hcal : sess.calibration = none)
    (hfault : e.st.tm.storeFault = false) (hc : sess.staged.incomplete = none) : commitAdjustment ok e =
      if 65535 ≤ e.st.store.eventCounter ∨ e.st.store.trailExhausted = true then (e, Reply.bare .counterExhausted)
      else
        let e1 := storeWrite ok .commit (fun s => s.setStore (commitStore sess.staged s.cal.value s.store)) e
        if ok then (afterCommit e1, Reply.okWith (.committed e1.st.store.eventCounter e1.st.store.checksum))
        else (e1, Reply.bare .storeFault) := by
  simp [commitAdjustment, h, hcal, hfault, hc]

theorem exec_commitAdjustment (p : List Byte) (ok : Bool) (s : State) : exec (.commitAdjustment p ok) s =
    requestWith 0xD5 (parseEmpty p) (fun _ => commitAdjustment ok) s := rfl

end

/-! ## The groups of the trail entry (R146) -/

theorem mem_changedGroups (old new : MetroConfig) :
    (.channel ∈ changedGroups old new ↔ new.channels ≠ old.channels) ∧
    (.linearity ∈ changedGroups old new ↔ new.linearity ≠ old.linearity) ∧
    (.scale ∈ changedGroups old new ↔ new.maxKg ≠ old.maxKg ∨ new.eKg ≠ old.eKg) ∧
    (.profile ∈ changedGroups old new ↔ new.profile1 ≠ old.profile1 ∨ new.profile2 ≠ old.profile2) ∧
    (.window ∈ changedGroups old new ↔
      new.window ≠ old.window ∨ new.zeroTracking ≠ old.zeroTracking ∨ new.warmupCode ≠ old.warmupCode) ∧
    (.mpe ∈ changedGroups old new ↔ new.mpe ≠ old.mpe) ∧
    (.audit ∈ changedGroups old new ↔ new.auditInterval ≠ old.auditInterval ∨ new.minTestLoad ≠ old.minTestLoad) := by
  simp only [changedGroups, List.mem_append, List.mem_ite_nil_left, List.mem_singleton, reduceCtorEq, and_false,
    and_true, or_false, false_or, not_and_or, ne_eq, eq_comm, and_self]

/-- Settles O53: the checks in their order, and what the blocks do behind a write that verifies. -/
theorem commitAdjustmentActs : Obligations.CommitAdjustmentActs := by
  classical
  refine ⟨fun c => ?complete, fun ok s hready => ?acts⟩
  case complete =>
    intro named active anyActive allActive noGap divided
    have hnamed : ∀ d, named d = (c.deckChans d).length := fun d => by rw [MetroConfig.deckChans_eq]
    have hactive : ∀ d, active d ↔ c.active d = true := fun d => by
      rw [MetroConfig.active, decide_eq_true_iff, ← hnamed]
    have heq := MetroConfig.incomplete_eq (c := c) (anyActive := anyActive) (allActive := allActive) (noGap := noGap)
      (divided := divided) (exists_congr hactive)
      (forall_congr' fun d => imp_congr (by rw [hnamed]) (hactive d))
      (forall_congr' fun d => forall_congr' fun k => imp_congr (hactive d) (imp_congr Iff.rfl (hactive k))) Iff.rfl
    rw [heq]
    split_ifs with hany hall hgap hdivided
    all_goals simp [*]
  case acts =>
    intro refusedWith
    have hrefused : ∀ {st : Status} {b : Body}, commitAdjustment ok (Ev.start (endFrame s)) =
        (Ev.start (endFrame s), { status := st, body := b }) → refusedWith st b := fun h =>
      (exec_commitAdjustment [] ok s).trans (requestWith_refused parseEmpty_nil hready h)
    refine ⟨fun hslot => hrefused (commitAdjustment_of_no_session hslot), fun sess hslot =>
      ⟨fun hcal => hrefused (commitAdjustment_of_calibrating hslot hcal),
        fun hcal hfault => hrefused (commitAdjustment_of_fault hslot hcal hfault), fun hcal hfault =>
        ⟨fun c hc => hrefused (commitAdjustment_of_incomplete hslot hcal hfault hc), fun hc =>
          ⟨fun hend => ?exhausted, fun hcounter htrail => ?write⟩⟩⟩⟩
    case exhausted =>
      exact hrefused ((commitAdjustment_of_complete hslot hcal hfault hc).trans (if_pos hend))
    case write =>
      have hwrite := (commitAdjustment_of_complete (e := Ev.start (endFrame s)) (ok := ok) hslot hcal hfault hc).trans
        (if_neg fun hend => hend.elim (Nat.not_le.mpr hcounter) (ne_true_of_eq_false htrail))
      refine ⟨fun hfailed => ?_, fun hverified => ?_⟩
      · subst hfailed
        have hlatched := latchStoreFault_of_clear (w := .commit) (e := Ev.start (endFrame s)) hfault
        rw [exec_commitAdjustment]
        exact requestWith_answered parseEmpty_nil hready hwrite (congrArg Ev.notes hlatched) (congrArg Ev.st hlatched)
          rfl rfl rfl
      · subst hverified
        obtain ⟨hst, hnotes⟩ := afterCommit_eq (s := endFrame s) sess.staged
        obtain ⟨hhidden, hrecovery⟩ := committedMap_counts (m := s.axle)
        have huncertain : (committed sess.staged s).axle.certain = false := committedMap_uncertain
        refine ⟨committed sess.staged s, changedGroups s.store.config sess.staged, ?_, rfl, rfl, rfl, rfl,
          mem_changedGroups _ _, addTrail_trail _ _, rfl, rfl, rfl, rfl, rfl, rfl, ?_, rfl, rfl, rfl,
          fun d => ⟨Bank.get_fill _ d, Bank.get_fill _ d, Bank.get_fill _ d⟩, rfl, rfl, rfl, rfl, huncertain,
          committedMap_idle, hhidden, hrecovery, rfl, fun hcertain => ?_, rfl, rfl, rfl, rfl⟩
        · have hoccupancy : occupancyNotes s (committed sess.staged s) =
              if s.axle.certain = true ∨ (committed sess.staged s).axle.occupancy ≠ s.axle.occupancy then
                [.occupancy (committed sess.staged s).axle.occupancy false s.axle.occupancy] else [] := by
            rw [occupancyNotes, huncertain]
            cases s.axle.certain <;> simp
          rw [← hoccupancy, exec_commitAdjustment]
          exact requestWith_executed parseEmpty_nil hready hwrite hnotes hst
        · unfold exitByMap
          split_ifs with hemptied
          · exact congrArg (·, s.cap.reworkHold) (if_pos hemptied)
          · exact congrArg (·, s.cap.reworkHold) (if_neg hemptied)
        · have hlost := committedMap_lost hcertain
          refine ⟨?_, fun d => ?_, ?_, ?_, ?_⟩
          · exact congrArg AxleMap.cause hlost
          · exact (congrArg (fun m => m.decks.get d) hlost).trans (Bank.get_fill _ d)
          · exact congrArg AxleMap.entered hlost
          · exact congrArg AxleMap.exitedCount hlost
          · exact congrArg AxleMap.exited hlost

end Sys2Proof.Machine
